-- ==== Sys2Proof/Word.lean ====
section
/-! DEFINITION. Words, bytes and the plainest arithmetic on them: little-endian fields (R4), bits of a
field (R3), sparse maps and fixed tables kept as lists. -/

namespace Sys2Proof

/-- One byte of a packet or of memory. -/
abbrev Byte := BitVec 8

/-- A register of BAR0 is 32 bits wide (R75). -/
abbrev Reg := BitVec 32

/-- The byte that holds the low 8 bits of a number. -/
def byte (n : Nat) : Byte := BitVec.ofNat 8 n

/-- The `n` low bytes of a number, least significant first (R4). -/
def le : Nat → Nat → List Byte
  | 0, _ => []
  | n + 1, v => byte v :: le n (v / 256)

/-- The number that a list of bytes holds, least significant first (R4). -/
def unle : List Byte → Nat
  | [] => 0
  | b :: bs => b.toNat + 256 * unle bs

/-- A signed number as the `n` low bytes of its two's complement, least significant first. -/
def leInt (n : Nat) (v : Int) : List Byte := le n (v % (2 ^ (8 * n) : Int)).toNat

/-- Bit `i` of a field (R3). -/
def bit (v i : Nat) : Bool := v / 2 ^ i % 2 == 1

/-- Bits [hi:lo] of a field (R3). -/
def bits (v hi lo : Nat) : Nat := v / 2 ^ lo % 2 ^ (hi + 1 - lo)

/-- 1 for true and 0 for false. -/
def boolNat (b : Bool) : Nat := if b then 1 else 0

/-- Two's complement reading of a `w`-bit field. -/
def signed (w v : Nat) : Int := if v % 2 ^ w < 2 ^ (w - 1) then (v % 2 ^ w : Nat) else (v % 2 ^ w : Nat) - (2 ^ w : Nat)

/-- `n ÷ d`, rounded up. -/
def ceilDiv (n d : Nat) : Nat := (n + d - 1) / d

/-- The bytes of a list from an offset on, `n` of them. -/
def slice (l : List Byte) (off n : Nat) : List Byte := (l.drop off).take n

/-- The little-endian field of `n` bytes at an offset of a parameter block (R4, R6). -/
def fieldAt (l : List Byte) (off n : Nat) : Nat := unle (slice l off n)

/-- The signed little-endian field of `n` bytes at an offset. -/
def sfieldAt (l : List Byte) (off n : Nat) : Int := signed (8 * n) (fieldAt l off n)

/-- A sparse map from numbers: key and value pairs with keys strictly rising. -/
abbrev NMap (β : Type) := List (Nat × β)

/-- The value a sparse map lists for a key. -/
def mapGet {β : Type} : NMap β → Nat → Option β
  | [], _ => none
  | (k, v) :: m, i => if k = i then some v else mapGet m i

/-- The sparse map with a key set to a value, keys kept strictly rising. -/
def mapSet {β : Type} : NMap β → Nat → β → NMap β
  | [], i, v => [(i, v)]
  | (k, w) :: m, i, v =>
    if i < k then (i, v) :: (k, w) :: m
    else if k = i then (i, v) :: m
    else (k, w) :: mapSet m i v

/-- The sparse map without a key. -/
def mapDel {β : Type} (m : NMap β) (i : Nat) : NMap β := m.filter (fun p => p.1 != i)

/-- The value a sparse map lists for a key, or a default. -/
def mapGetD {β : Type} (m : NMap β) (i : Nat) (dflt : β) : β := (mapGet m i).getD dflt

/-- Keys strictly rising: the canonical form of a sparse map. -/
def mapSorted {β : Type} : NMap β → Bool
  | [] => true
  | [_] => true
  | (k, _) :: (k', v') :: m => decide (k < k') && mapSorted ((k', v') :: m)

/-- The entry of a fixed table, or its type's default outside the table. -/
def tabGet {β : Type} [Inhabited β] (l : List β) (i : Nat) : β := l.getD i default

/-- A fixed table with one entry changed by a function; nothing changes outside the table. -/
def tabMod {β : Type} [Inhabited β] (l : List β) (i : Nat) (f : β → β) : List β := l.set i (f (tabGet l i))

/-- The entries of a table with their indexes. -/
def indexed {β : Type} (l : List β) : List (Nat × β) := l.zipIdx.map (fun p => (p.2, p.1))

/-- The first entry of a list that answers. -/
def firstSome {β γ : Type} (f : β → Option γ) : List β → Option γ
  | [] => none
  | x :: xs => (f x).orElse (fun _ => firstSome f xs)

/-- The sum of a function over a list. -/
def sumOf {β : Type} (f : β → Nat) (l : List β) : Nat := l.foldl (fun a x => a + f x) 0

/-- The sum of an exact function over a list. -/
def sumRat {β : Type} (f : β → Rat) (l : List β) : Rat := l.foldl (fun a x => a + f x) 0

/-- The largest value of a function over a list, 0 on the empty list. -/
def maxOf {β : Type} (f : β → Nat) (l : List β) : Nat := l.foldl (fun a x => max a (f x)) 0

/-- A number held between two bounds. -/
def clampNat (v lo hi : Nat) : Nat := max lo (min v hi)

/-- A signed number held between two bounds. -/
def clampInt (v lo hi : Int) : Int := max lo (min v hi)

end Sys2Proof
end

