-- ==== Sys2Proof/Machine/Types/Packet.lean ====
section
/-! DEFINITION. What the outside world hands the block: endpoints, packets, and the measurements and bytes
that come with an event. No part of this file is machine state; `Syntax.lean` builds its operands from it. -/

namespace Sys2Proof

/-- Where a packet arrives and where its reply goes (R65). -/
inductive Endpoint where
  /-- PCIe ring pair r. -/
  | ring (r : Fin 16)
  /-- A UDP source address and port on an Ethernet port (0–3 media MACs, 4 management). -/
  | udp (port : Fin 5) (addr : Nat) (udpPort : Nat)
  /-- The SPI target. -/
  | spi
  deriving DecidableEq, Repr, Inhabited

/-- A fragment of a UDP datagram (R80): the datagram's identification, the piece's place, how many pieces. -/
structure Fragment where
  ident : Nat := 0
  index : Nat := 0
  total : Nat := 1
  deriving DecidableEq, Repr, Inhabited

/-- A request as it stands on its transport (Table 3.1). The opcode is the row's. `len` is the length the
transport gives (R54 step 2) and `time` the intake instant in ns since VAON came up. `frag` marks a piece of
a fragmented datagram, and `host` holds what the host wrote to its own memory before this packet. `toAddr` and `toPort` are where a
datagram was sent, `checksumBad` says that its UDP checksum is not zero and fails (R79), and `hostFailed` that the module's access to
host memory for this packet's ring slot fails (R77, error 2), `listFailed` that its read of the page list that the command names does
(R424). -/
structure Packet where
  time : Nat := 0
  endpoint : Endpoint := .spi
  len : Nat := 24
  magic : Nat := 0xB7E5
  version : Nat := 1
  flags : Nat := 0
  session : Nat := 0xFFFF
  seq : Nat := 0
  txn : Nat := 0
  paramLength : Nat := 0
  reserved : Nat := 0
  crc : Nat := 0
  params : List Byte := []
  frag : Option Fragment := none
  host : List (Nat × Byte) := []
  toAddr : Nat := 0
  toPort : Nat := 47077
  checksumBad : Bool := false
  hostFailed : Bool := false
  listFailed : Bool := false
  deriving DecidableEq, Repr, Inhabited

/-- What one source presents in the deskewed word slot of a possible start of frame: the four words that end there (R116, R118), or in
CSI-2 mode whether its Frame Start packet has come (R123). -/
structure SyncIn where
  words : List Nat := []
  frameStart : Bool := false
  deriving DecidableEq, Repr, Inhabited

/-- One source's part of a row (R118 to R123): the four words that end in the slot of its start code and of its end code, the payload
words between, and the words that follow the end code. In CSI-2 mode it is the source's packet: its words, whether its CRC failed, and
the lanes with a start-of-transmission error. -/
structure LaneRow where
  start : List Nat := []
  words : List Nat := []
  stop : List Nat := []
  crc : List Nat := []
  crcBad : Bool := false
  sot : List Nat := []
  deriving DecidableEq, Repr, Inhabited

/-- A CSI-2 packet other than a row of pixels (Table 5.3): its link and virtual channel as Table 5.10 codes them, its data type and
payload, whether its CRC failed, the lanes with a start-of-transmission error, and whether its header has a worse than a single-bit
error. -/
structure CsiPacket where
  source : Nat := 0
  dataType : Nat := 0x12
  data : List Byte := []
  crcBad : Bool := false
  sot : List Nat := []
  badHeader : Bool := false
  deriving DecidableEq, Repr, Inhabited

/-- What training finds on a lane (R124) beside its eye: the word it repeats, for how many words without an error, and by how many words
it arrives after the earliest lane. In CSI-2 mode `ready` tells that the deskew sequence, or an error-free
start of transmission, came. -/
structure TrainIn where
  word : Nat := 0
  run : Nat := 0
  skew : Nat := 0
  ready : Bool := false
  deriving DecidableEq, Repr, Inhabited

/-- A row as it arrives (R119): its sources of pixels in map order (line-interleaved dual gain: those of plane 0's line, then
those of plane 1's), and whether the furrow's write buffer overflowed on it (R141). In CSI-2 mode, also the other packets that
came before it and whether Frame End follows it. -/
structure RowIn where
  lanes : List LaneRow := []
  packets : List CsiPacket := []
  frameEnd : Bool := false
  overflow : Bool := false
  deriving DecidableEq, Repr, Inhabited

/-- How a sensor bus transfer ended (R105). -/
inductive BusResult where
  | ack | nak | timeout
  deriving DecidableEq, Repr, Inhabited

/-- The kind of an engine's access fault (R431). -/
inductive AccessFault where
  | unmapped | readOnly | hostFailed | poison
  deriving DecidableEq, Repr, Inhabited

/-- The engine whose access faulted (Table 18.6), by its index. -/
inductive EngineRef where
  | drill (d : Fin 384)
  | harrow (h : Fin 16)
  | tine (t : Fin 64)
  | raster (r : Fin 8) (line : Nat) (plane : Fin 4)
  | furrow (f : Fin 16)
  | sender (f : Fin 64)
  | receiver (f : Fin 64)
  | audio (p : Fin 16) (isWrite : Bool)
  | channel (c : Fin 64)
  | magazine (reel : Nat)
  deriving DecidableEq, Repr

/-- A prediction unit or partition that an encode job codes between pictures (R280): its place and size in the coded picture, and
the AMVP or merge candidates, in ¼ pel, that the standard derives from what is coded before it. -/
structure PredUnit where
  x : Nat := 0
  y : Nat := 0
  w : Nat := 0
  h : Nat := 0
  candidates : List (Int × Int) := []
  deriving DecidableEq, Repr, Inhabited

/-- What a tine's job came to. An encode job gives the bytes it coded, the bytes that holding QLIMIT takes, its activity (R258), its
mean QP in 1/16 (R283), its units between pictures, and the samples that a decoder of its bytes reconstructs, by plane and row. A
decode job gives the samples of its area and, of each 16 × 16 block that it decoded with a vector, its column and row, the vector in
¼ pel and the order count that it refers to; `error` is the first of its CTUs, macroblocks or slices that could not be decoded.
The first job of a unit also tells of its picture the order count, the type (0 I, 1 P, 2 B), the random-access kind (0 none, 1 IDR,
2 CRA or BLA), the order counts it references, the recovery_poc of a recovery point SEI that comes with it, and whether it is a RASL
picture. -/
structure TineResult where
  coded : List Byte := []
  needAtLimit : Nat := 0
  activity : Nat := 1
  qp : Int := 0
  units : List PredUnit := []
  planes : List (List (List Nat)) := []
  error : Option Nat := none
  vectors : List (Nat × Nat × Int × Int × Int) := []
  poc : Int := 0
  picType : Nat := 0
  irap : Nat := 0
  refs : List Int := []
  recoveryPoc : Option Int := none
  rasl : Bool := false
  deriving DecidableEq, Repr, Inhabited

/-- A checked reference input (Table 14.3). -/
inductive RefIn where
  | genlockH | genlockF | ltcIn
  | audio (p : Fin 16)
  deriving DecidableEq, Repr

/-- A delay set of a pseudo-channel (R402). -/
structure DelaySet where
  writeLevel : Rat := 0
  readStrobe : Rat := 0
  deskew : List Rat := []
  deriving DecidableEq, Repr, Inhabited

/-- What the module fuse bank holds from manufacture besides its rollback row (R10, R402, R541): the boot key hash, and for every
pseudo-channel the delay sets measured at 25 °C, 65 °C and 105 °C; `weakBits` are the bits of the rollback row that fail to blow (R542). -/
structure FuseBank where
  keyHash : Nat := 0
  delays : List (List DelaySet) := []
  weakBits : List Nat := []
  deriving DecidableEq, Repr, Inhabited

/-- What the boot ROM finds at a boot (Table 24.7): BOOT_MODE, the fuse bank, the pseudo-channels whose delay record fails
its CRC, the fuse bank's key-hash CRC, the stack temperatures, CC-B's self-test, how long it took, and whether the directory copy last
written fails its CRC (R539). -/
structure BootInputs where
  fuses : FuseBank := {}
  bootMode : Nat := 0
  badChannels : List Nat := []
  keyCrcOk : Bool := true
  stackTemps : List Int := [250, 250]
  standbyOk : Bool := true
  bootMs : Nat := 0
  directoryBad : Bool := false
  deriving DecidableEq, Repr, Inhabited

/-- What the model does not compute of an image (Table 24.6, results 2, 3 and 4): the SHA-384 of its public key, and the outcomes
of the signature and payload checks. -/
structure ImageIn where
  keyHash : Nat := 0
  signatureOk : Bool := false
  payloadOk : Bool := false
  deriving DecidableEq, Repr, Inhabited

/-- A NAND operation that completed (R463). -/
inductive NandOp where
  /-- The program of a physical acre of a logical acre. -/
  | program (logical : Nat) (ok : Bool)
  /-- The erase of a block of a die. -/
  | erase (die block : Nat) (ok : Bool)
  /-- A read of a block for the host or for churn, and whether it was recovered. -/
  | read (nsid lba : Nat) (churn recovered : Bool)
  deriving DecidableEq, Repr

/-- Measurements that a telemetry sample takes (Table 23.2). -/
structure TelemetryIn where
  iout : Nat := 0
  power : Nat := 0
  busy : List Nat := []
  deriving DecidableEq, Repr, Inhabited

/-- A neighbour or group message that a port receives (Table 15.1). -/
inductive NeighbourIn where
  | arp (target sender : Nat)
  | ndp (target sender : Nat)
  | icmpEcho (target sender : Nat) (data : List Byte)
  | igmpQuery (group : Nat)
  | mldQuery (group : Nat)
  deriving DecidableEq, Repr

end Sys2Proof
end

