-- ==== Sys2Proof/Machine/Types/Control.lean ====
section
/-! DEFINITION. Control state: sessions, ownership, transactions and commits, BAR0 and its rings, the SPI
target, the UDP transport, events, counters, the journal, the complexes and the yoke (chapters 03, 04, 22
and 23). A field's default is its value at reset. -/

namespace Sys2Proof.Machine

/-- A packet with the opcode it carries. -/
structure Request where
  op : Nat := 0
  pkt : Packet := {}
  deriving DecidableEq, Repr, Inhabited

/-- A reply as the controller forms it (R53): flags, status and detail, and the parameters after them. -/
structure Reply where
  op : Nat := 0
  flags : Nat := 0
  session : Nat := 0
  seq : Nat := 0
  txn : Nat := 0
  status : Nat := 0
  detail : Nat := 0
  params : List Byte := []
  deriving DecidableEq, Repr, Inhabited

/-- What a session remembers of one accepted sequence number (R57, R58): status and detail, and the full
reply while it is cached. `done` is clear until the reply is formed (R59). -/
structure SeqRec where
  seq : Nat := 0
  done : Bool := false
  status : Nat := 0
  detail : Nat := 0
  cached : Option (List Byte) := none
  deriving DecidableEq, Repr, Inhabited

/-- The state of a transaction (Table 4.7). -/
inductive TxnState where
  | opened | committing | applied | failed | aborted
  deriving DecidableEq, Repr, Inhabited

/-- What TXN_STATUS reports of a closed transaction (R107, Table 4.7). -/
structure ClosedTxn where
  id : Nat := 0
  state : TxnState := .applied
  staged : Nat := 0
  bytes : Nat := 0
  epoch : Nat := 0
  effective : Nat := 0
  status : Nat := 0
  detail : Nat := 0
  deriving DecidableEq, Repr, Inhabited

/-- The event filter of a session or of the ring (R530, R533). -/
structure EventFilter where
  minSeverity : Nat := 0
  areaMask : Nat := 0xFFFFF
  deriving DecidableEq, Repr, Inhabited

/-- An open session (R63 to R69). `recs` holds the seen map with its replies, newest accepted first. -/
structure Session where
  gen : Nat := 1
  endpoint : Endpoint := .spi
  nonce : Nat := 0
  leaseMs : Nat := 2000
  policy : Nat := 0
  name : List Byte := []
  deadline : Nat := 0
  h : Nat := 0
  recs : List SeqRec := []
  openParams : List Byte := []
  cursor : Nat := 0
  filter : EventFilter := {}
  closed : List ClosedTxn := []
  deriving DecidableEq, Repr, Inhabited

/-- A closed session's tombstone (R70). -/
structure Tombstone where
  gen : Nat := 1
  byExpiry : Bool := false
  endpoint : Endpoint := .spi
  closedAt : Nat := 0
  deriving DecidableEq, Repr, Inhabited

/-- A staged command (R90): its opcode, its sequence number and its parameters. -/
structure Staged where
  op : Nat := 0
  seq : Nat := 0
  params : List Byte := []
  deriving DecidableEq, Repr, Inhabited

/-- An open transaction (R88 to R92). `owned` lists the targets that the session owned when it staged them (Table 4.4 check 4). -/
structure Txn where
  session : Nat := 0
  idleNs : Nat := 0
  idleDeadline : Nat := 0
  staged : List Staged := []
  bytes : Nat := 0
  versions : NMap Nat := []
  owned : List Nat := []
  lastStatus : Nat := 0
  lastDetail : Nat := 0
  deriving DecidableEq, Repr, Inhabited

/-- The timeline of a target (Table 4.2). -/
inductive Timeline where
  | stream (n : Nat)
  | raster (n : Nat)
  | group (n : Nat)
  | untimed
  deriving DecidableEq, Repr, Inhabited

/-- A part of a commit: the staged commands of one object, and the frame of its timeline at which they
apply (R101); `frame` is none while it is not yet chosen (R103). -/
structure Part where
  timeline : Timeline := .untimed
  object : Nat := 0
  frame : Option Nat := none
  cmds : List Staged := []
  applied : Bool := false
  deriving DecidableEq, Repr, Inhabited

/-- The writes a commit makes to one register group (R103 to R105). `previous` holds the cached values to
restore, `confirmed` how many were confirmed; `order` gives each write's place in the staged set (R145), and `attempted` how many were
attempted before a fail-over made the group start again (R105, R111). -/
structure GroupWrite where
  furrow : Nat := 0
  group : Nat := 0
  writes : List (Nat × List Byte) := []
  closeFrame : Option Nat := none
  started : Bool := false
  confirmed : Nat := 0
  retries : Nat := 0
  previous : List (Nat × Option (List Byte)) := []
  order : List Nat := []
  attempted : Nat := 0
  deriving DecidableEq, Repr, Inhabited

/-- A commit in progress (R99 to R106). -/
structure Commit where
  txn : Nat := 0
  session : Nat := 0
  op : Nat := 0
  seq : Nat := 0
  reports : Bool := true
  epoch : Nat := 0
  anchor : Nat := 0
  anchorLine : Timeline := .untimed
  atFrame : Option Nat := none
  split : Bool := false
  effective : Option Nat := none
  parts : List Part := []
  groups : List GroupWrite := []
  staged : Nat := 0
  bytes : Nat := 0
  deriving DecidableEq, Repr, Inhabited

/-- A restore of registers after a failed commit (R105 step 2, R106). -/
structure Restore where
  furrow : Nat := 0
  group : Nat := 0
  writes : List (Nat × List Byte) := []
  retries : Nat := 0
  deriving DecidableEq, Repr, Inhabited

/-- What the device keeps of a settings epoch for TXN_EPOCH_QUERY (R109, Table 4.7). -/
structure EpochRecord where
  epoch : Nat := 0
  state : TxnState := .committing
  anchor : Nat := 0
  txn : Nat := 0
  effective : Nat := 0
  sofSeconds : Nat := 0
  sofNs : Nat := 0
  parts : List (Nat × Nat) := []
  deriving DecidableEq, Repr, Inhabited

/-- A PENDING command whose final status a COMMAND_COMPLETE will report (R62). -/
structure PendingCmd where
  session : Nat := 0
  seq : Nat := 0
  op : Nat := 0
  deriving DecidableEq, Repr, Inhabited

/-- A ring block of BAR0 (Table 3.9). `posted` holds the requests that stand in the ring's slots from
SQ_HEAD on, as far as their arrival has been told to the model; `waiting` holds the replies for which the reply ring has no free slot
(R76). -/
structure Ring where
  sqBaseLo : Reg := 0
  sqBaseHi : Reg := 0
  cqBaseLo : Reg := 0
  cqBaseHi : Reg := 0
  size : Reg := 0
  ctrl : Reg := 0
  sqTail : Reg := 0
  sqHead : Reg := 0
  cqTail : Reg := 0
  cqHead : Reg := 0
  status : Reg := 0
  posted : List Request := []
  waiting : List (List Byte) := []
  deriving DecidableEq, Repr, Inhabited

/-- The registers of BAR0 outside the ring blocks (Table 3.8), and the MSI-X table and pending bits. -/
structure Bar0 where
  devStatus : Reg := 0
  intStatus : Reg := 0
  intMask : Reg := 0x0007FFFF
  evBaseLo : Reg := 0
  evBaseHi : Reg := 0
  evSize : Reg := 0
  evTail : Reg := 0
  evHead : Reg := 0
  rings : List Ring := List.replicate 16 {}
  msixTable : NMap Reg := []
  msixPending : List Nat := []
  msixSent : NMap Nat := []
  deriving DecidableEq, Repr, Inhabited

/-- The SPI target (R82, R83): packets waiting for intake, the reply queue and the replies that it has no place for, OVERRUN, and the bytes
that the latest assertion of CS_N clocked out after its command byte. -/
structure SpiTarget where
  input : List Request := []
  replies : List (List Byte) := []
  waiting : List (List Byte) := []
  overrun : Bool := false
  out : List Byte := []
  deriving DecidableEq, Repr, Inhabited

/-- A datagram in reassembly (R80), or, once `dead`, one that was discarded and whose further pieces are ignored. -/
structure Reassembly where
  port : Nat := 0
  addr : Nat := 0
  ident : Nat := 0
  started : Nat := 0
  fragments : List Nat := []
  dead : Bool := false
  deriving DecidableEq, Repr, Inhabited

/-- A frame the network engine put on the wire: a Kievo reply, or an answer or announcement of its own. -/
inductive NetOut where
  | reply (port : Nat) (addr : Nat) (udpPort : Nat) (fromAddr : Nat) (fromPort : Nat) (bytes : List Byte)
  | neighbour (port : Nat) (kind : Nat) (addr : Nat)
  | sap (port : Nat) (flow : Nat) (deletion : Bool)
  | ptpDelayReq (port : Nat) (domain : Nat)
  | media (port : Nat) (flow : Nat) (rtpSeq : Nat) (rtpStamp : Nat) (payload : List Byte)
  | multicast (port : Nat) (group : Nat) (join : Bool)
  deriving DecidableEq, Repr, Inhabited

/-- The UDP transport (R79, R80, R360): the Ethernet ports that carry it, its UDP port, its source filter,
datagrams in reassembly, and the requests held while the controller cannot take them (R508). Addresses are 128-bit
numbers in network order, an IPv4 address in its mapped form. -/
structure UdpTransport where
  ports : Nat := 0x10
  udpPort : Nat := 47077
  filterAddr : Nat := 0
  filterPrefix : Nat := 0
  reassemblies : List Reassembly := []
  held : List Request := []
  sent : List NetOut := []
  deriving DecidableEq, Repr, Inhabited

/-- An event record (Table 23.8); the 16-bit event sequence is `index` modulo 65,536. -/
structure EventRec where
  code : Nat := 0
  severity : Nat := 0
  domain : Nat := 5
  source : Nat := 0
  index : Nat := 0
  stamp : Nat := 0
  frame : Nat := 0
  detail : List Byte := []
  deriving DecidableEq, Repr, Inhabited

/-- The event store and the event ring (R527, R529): records newest first, the number of records raised
since reset, and the ring's copying position, filter, coalescing and losses: `owed` while copied records have not been
signalled, `early` the EVENT_LOSS records copied ahead of their turn. -/
structure Events where
  next : Nat := 0
  records : List EventRec := []
  copied : Nat := 0
  ringFilter : EventFilter := {}
  coalesceUs : Nat := 0
  lastSignal : Option Nat := none
  lossReported : Nat := 0
  owed : Bool := false
  early : List Nat := []
  int0Holder : Option Nat := none
  deriving DecidableEq, Repr, Inhabited

/-- A telemetry sample (Table 23.2). -/
structure TelemetrySample where
  index : Nat := 0
  seconds : Nat := 0
  ns : Nat := 0
  stepMv : Nat := 0
  voutMv : Nat := 0
  iout : Nat := 0
  power : Nat := 0
  tjMax : Int := 0
  stackTemp : List Int := [0, 0]
  flags : Nat := 0
  busy : List Nat := []
  pacerMin : Nat := 0
  gShareMax : Nat := 200
  deriving DecidableEq, Repr, Inhabited

/-- A gleaner task (R518 to R522): its unit's share in 0.01 %, whether it is behind and since when it has been back on pace, the
evaluations in a row at the cap, and its chunk count. `mark` and `was` are what the last evaluation or sample left for the next:
chunks and pending pages of zeroing, the instant of the last telemetry sample and whether it was late. -/
structure GleanTask where
  behind : Bool := false
  share : Nat := 200
  onPaceSince : Option Nat := none
  capped : Nat := 0
  chunks : Nat := 0
  mark : Nat := 0
  was : Bool := false
  deriving DecidableEq, Repr, Inhabited

/-- The gleaner and its telemetry store (R518 to R523). -/
structure Gleaner where
  tasks : List GleanTask := List.replicate 6 {}
  samples : List TelemetrySample := []
  nextIndex : Nat := 0
  deriving DecidableEq, Repr, Inhabited

/-- The state of a control complex that is not failed: a standby is cold or ready (R501). -/
inductive ComplexState where
  | cold | ready | failed
  deriving DecidableEq, Repr, Inhabited

/-- A lane of the yoke (R503). -/
structure YokeLane where
  fenced : Bool := false
  disagreements : Nat := 0
  deriving DecidableEq, Repr, Inhabited

/-- A record of the critical fault log (Table 22.5). -/
structure FaultRecord where
  seq : Nat := 1
  bootCount : Nat := 0
  code : Nat := 0
  severity : Nat := 0
  domain : Nat := 5
  seconds : Nat := 0
  ns : Nat := 0
  source : Nat := 0
  complex : Nat := 0
  detail : List Byte := []
  deriving DecidableEq, Repr, Inhabited

/-- An open journal group (R505): the request it holds and, once committed, its reply. -/
structure JournalGroup where
  request : Request := {}
  reply : Option Reply := none
  deriving DecidableEq, Repr, Inhabited

/-- The complexes, the yoke, the journal and the critical fault log (chapter 22). The fault log, newest
first, and the sticky cause outlive a reset. -/
structure Faults where
  activeB : Bool := false
  standby : ComplexState := .cold
  standbyVersion : Nat := 0
  lanes : List YokeLane := List.replicate 3 {}
  stickyCause : Nat := 0
  lastBootCause : Nat := 0
  fatalCause : Nat := 0
  paused : Bool := false
  failovers : Nat := 0
  lastTrigger : Nat := 0
  lastPauseUs : Nat := 0
  replayed : Nat := 0
  repairs : Nat := 0
  lockstepMismatches : Nat := 0
  groups : List JournalGroup := []
  log : List FaultRecord := []
  logNext : Nat := 1
  logTimes : NMap Nat := []
  bootCount : Nat := 0
  thermalTrip : Bool := false
  yokeFifo : List EventRec := []
  deriving DecidableEq, Repr, Inhabited

/-- All control state of chapters 03, 04, 22 and 23. `turns` lists the endpoints in the order of their next turns (R61); a UDP endpoint stands
in it while packets of its wait. -/
structure Control where
  sessions : NMap Session := []
  tombs : NMap Tombstone := []
  generations : NMap Nat := []
  owners : NMap Nat := []
  versions : NMap Nat := []
  txns : NMap Txn := []
  nextTxn : Nat := 1
  nextEpoch : Nat := 1
  epochs : List EpochRecord := []
  commits : List Commit := []
  restores : List Restore := []
  pendingCmds : List PendingCmd := []
  turns : List Endpoint := ((List.range 16).map fun i => Endpoint.ring (Fin.ofNat 16 i)) ++ [.spi]
  deriving DecidableEq, Repr, Inhabited

end Sys2Proof.Machine
end

