-- ==== Sys2Proof/Machine/Types/Ingest.lean ====
section
/-! DEFINITION. State of the furrows and sensor control (chapter 05), of the raw stage (06), the motion
field (07), the colour pipeline and branches (08), statistics and taps (09), and of the jobs, queues and
engines that run them (02). A field's default is its value at reset. Values that a packet gives as fp32
stay fp32 bit patterns. -/

namespace Sys2Proof.Machine

/-- fp32 1.0. -/
abbrev fpOne : Nat := 0x3F800000

/-- The state of a furrow (Table 5.14). -/
inductive FurrowState where
  | stopped | training | running | resync | fault
  deriving DecidableEq, Repr, Inhabited

/-- A source of a lane map (Table 5.10). -/
structure LaneEntry where
  source : Nat := 0
  dataType : Nat := 0
  start : Nat := 0
  step : Nat := 1
  plane : Nat := 0
  deriving DecidableEq, Repr, Inhabited

/-- Sync codes, preamble and training word, left-aligned 16-bit fields (R116, Table 5.11). -/
structure SyncCodes where
  preamble : List Nat := [0xFFFF, 0, 0]
  codes : List (Nat × Nat) := [(0xAB00, 0xFF00), (0xB600, 0xFF00), (0x8000, 0xFF00), (0x9D00, 0xFF00)]
  training : Nat := 0xE58C
  deriving DecidableEq, Repr, Inhabited

/-- FURROW_CONFIG as received (Table 5.8). -/
structure FurrowConfig where
  stream : Nat := 0
  mode : Nat := 0
  depthBits : Nat := 10
  laneMbps : Nat := 500
  width : Nat := 16
  height : Nat := 8
  cfaW : Nat := 1
  cfaH : Nat := 1
  dualGain : Nat := 0
  domain : Nat := 5
  lineCrc : Bool := false
  stopOnLaneFail : Bool := false
  depth : Nat := 2
  pail : Nat := 0
  cfa : List Nat := []
  csiLanes : Nat := 0
  deriving DecidableEq, Repr, Inhabited

/-- A lane's training and failure history (R124, R138). -/
structure Lane where
  locked : Bool := false
  failed : Bool := false
  eye : Nat := 0
  sampling : Int := 0
  syncErrors : Nat := 0
  crcHistory : List Bool := []
  deriving DecidableEq, Repr, Inhabited

/-- A register group of a sensor profile (Table 4.6). -/
structure GroupDesc where
  group : Nat := 0
  delay : Nat := 0
  latch : Nat := 0
  spi : Bool := false
  verify : Bool := false
  latchLine : Nat := 0
  deriving DecidableEq, Repr, Inhabited

/-- A fallback of a sensor profile (Table 5.13). -/
structure Fallback where
  map : Nat := 1
  group : Nat := 0
  reg : Nat := 0
  periodNs : Nat := 0
  excluded : Nat := 0
  data : List Byte := []
  deriving DecidableEq, Repr, Inhabited

/-- A sensor profile (Tables 5.12, 4.6, 5.13). -/
structure Profile where
  busKind : Nat := 0
  busAddr : Nat := 0x08
  busKhz : Nat := 100
  spiMhz : Nat := 1
  spiMode : Nat := 0
  spiWrite : Nat := 0
  spiRead : Nat := 0
  groups : List GroupDesc := []
  fallbacks : List Fallback := []
  deriving DecidableEq, Repr, Inhabited

/-- A sync or reset pin (Table 5.9): its lasting function with that function's settings, the polarity most
recently set, and the end of a pulse in progress. -/
structure SyncPin where
  function : Nat := 0
  polarity : Nat := 0
  pulsePolarity : Nat := 0
  periodNs : Nat := 0
  phaseNs : Nat := 0
  widthNs : Nat := 0
  pulseUntil : Option Nat := none
  strobeUntil : Option Nat := none
  deriving DecidableEq, Repr, Inhabited

/-- An edge stamped by a sync pin (R147). -/
structure EdgeStamp where
  pin : Nat := 0
  edge : Nat := 0
  stamp : Nat := 0
  deriving DecidableEq, Repr, Inhabited

/-- The master clock output of a furrow (R146); frequency in mHz. -/
structure Mclk where
  enabled : Bool := false
  source : Nat := 0xFF
  milliHz : Nat := 0
  deriving DecidableEq, Repr, Inhabited

/-- A frame that a furrow receives, or has received and fills or is about to deliver (R129 to R137). `sof` and `lastAt` are
times of the furrow's domain; `fillFrom` is the first row filled, `fillAt` the clock at which a fill that has not landed
began, `source` the slot it is copied from, and `endAt` the clock at which the frame's last row was there. -/
structure FrameInProgress where
  number : Nat := 0
  slot : Nat := 0
  sof : Nat := 0
  epoch : Nat := 0
  first : Bool := false
  dropped : Nat := 0
  rows : Nat := 0
  firstAt : Nat := 0
  lastAt : Nat := 0
  shortLines : Nat := 0
  longLines : Nat := 0
  crcLines : Nat := 0
  discarded : Nat := 0
  laneFill : Nat := 0
  embedded : Nat := 0
  overflow : Bool := false
  short : Bool := false
  timedOut : Bool := false
  fillFrom : Option Nat := none
  fillAt : Option Nat := none
  source : Option Nat := none
  endAt : Nat := 0
  deriving DecidableEq, Repr, Inhabited

/-- A slot of a raw ring: the frame it holds and who holds it (R129). -/
structure RawSlot where
  frame : Nat := 0
  holders : List Nat := []
  deriving DecidableEq, Repr, Inhabited

/-- A delivered frame's record (Table 5.5). -/
structure FrameRecord where
  number : Nat := 0
  stream : Nat := 0
  furrow : Nat := 0
  flags : Nat := 0
  epoch : Nat := 0
  domain : Nat := 0
  sofSeconds : Nat := 0
  sofNs : Nat := 0
  eofStamp : Nat := 0
  rowsReceived : Nat := 0
  fillFirst : Nat := 0
  shortLines : Nat := 0
  longLines : Nat := 0
  crcLines : Nat := 0
  discarded : Nat := 0
  droppedBefore : Nat := 0
  lineTimeNs : Nat := 0
  laneFill : Nat := 0
  embedded : Nat := 0
  deriving DecidableEq, Repr, Inhabited

/-- A SENSOR_REG_READ on its way (R143): its request, whether its reply waits for the bus or was PENDING (R62), and whether its transfer has
begun. -/
structure SensorRead where
  request : Request := {}
  waits : Bool := false
  length : Nat := 1
  reg : Nat := 0
  begun : Bool := false
  deriving DecidableEq, Repr, Inhabited

/-- One furrow (chapter 05). `lastRow` is when the last row ended and `rowsOver` that no row of the sensor's frame is to come; `busFrames`
is what the control bus last carried (Table 5.7). -/
structure Furrow where
  state : FurrowState := .stopped
  ganged : Bool := false
  config : Option FurrowConfig := none
  maps : List (List LaneEntry) := List.replicate 5 []
  mapInUse : Nat := 0
  sync : SyncCodes := {}
  lanes : List Lane := List.replicate 128 {}
  lineNo : Nat := 0
  trainedBy : Option PendingCmd := none
  recentreBy : List PendingCmd := []
  profile : Option Profile := none
  cache : NMap (List Byte) := []
  mclk : Mclk := {}
  pins : List SyncPin := [{}, {}, {}, {}, { function := 1 }]
  edges : List EdgeStamp := []
  slots : List RawSlot := []
  retiring : List (Nat × NMap (List Nat)) := []
  nextSlot : Nat := 0
  current : Option FrameInProgress := none
  ending : List FrameInProgress := []
  lastRecord : FrameRecord := {}
  prevSlot : Option Nat := none
  lastSof : Option Nat := none
  lastAccepted : Option Nat := none
  lastEnd : Option Nat := none
  silent : Bool := false
  firstNext : Bool := true
  geometryFaults : Nat := 0
  dropped : Nat := 0
  resyncDrops : Nat := 0
  tooSoonDrops : Nat := 0
  tooSoonEvent : Option Nat := none
  stopAfterFrame : Bool := false
  laneFailure : Option (Nat × Nat) := none
  remapTxn : Option (Nat × Nat) := none
  lineTimeNs : Nat := 0
  deliveredSinceStart : Bool := false
  lastRecentre : Nat := 0
  lastRow : Option Nat := none
  rowsOver : Bool := true
  busFrames : List (List Byte) := []
  reading : Option SensorRead := none
  deriving DecidableEq, Repr, Inhabited

/-- Black, white and gains of five channels, fp32. -/
abbrev Channels := List Nat

/-- Spatial noise reduction settings (Table 6.9). -/
structure Snr where
  enable : Bool := false
  radius : Nat := 2
  strength : Nat := 128
  centre : Nat := 64
  lut : List Nat := [255, 240, 200, 150, 100, 60, 30, 10, 0, 0, 0, 0, 0, 0, 0, 0]
  deriving DecidableEq, Repr, Inhabited

/-- Temporal noise reduction settings (Table 6.10). -/
structure Tnr where
  enable : Bool := false
  reset : Bool := false
  kMin : Nat := 64
  tLo : Nat := 16
  tHi : Nat := 48
  maxDisp : Nat := 0
  deriving DecidableEq, Repr, Inhabited

/-- Dual-gain settings (Table 6.11), fp32; the defaults are 1.0, 0.80 and 0.95. -/
structure DualGain where
  hgPlane : Nat := 0
  ratio : Nat := fpOne
  kneeLo : Nat := 0x3F4CCCCD
  kneeHi : Nat := 0x3F733333
  deriving DecidableEq, Repr, Inhabited

/-- A stream's raw-stage settings (Table 6.3). `white` is none while it stands at 2^B − 1. -/
structure RawSet where
  black : List Channels := List.replicate 2 (List.replicate 5 0)
  white : List (Option Channels) := [none, none]
  noiseSlot : Nat := 0
  defectSlot : Nat := 0
  dynThresh : Nat := 0
  dynAlarm : Nat := 0
  fpnSlot : Nat := 0
  snr : Snr := {}
  tnr : Tnr := {}
  dual : DualGain := {}
  shadingA : Nat := 0
  shadingB : Nat := 0
  blend : Nat := 0
  wb : Channels := List.replicate 5 fpOne
  deriving DecidableEq, Repr, Inhabited

/-- A noise-model slot: a and b per plane and channel (R160). -/
structure NoiseModel where
  a : List Channels := List.replicate 2 (List.replicate 5 fpOne)
  b : List Channels := List.replicate 2 (List.replicate 5 fpOne)
  deriving DecidableEq, Repr, Inhabited

/-- A fixed-pattern slot: per plane, column offsets and fp16 gains, and row offsets (Table 6.8). -/
structure FpnTable where
  columns : List (List (Int × Nat)) := []
  rows : List (List Int) := []
  deriving DecidableEq, Repr, Inhabited

/-- A shading slot: grid size and fp16 gains by row, column and channel (Table 6.12). -/
structure ShadingTable where
  gridW : Nat := 0
  gridH : Nat := 0
  nodes : List (List Nat) := []
  deriving DecidableEq, Repr, Inhabited

/-- A stream's raw-stage tables (R174). A defect is (row, column, plane). -/
structure RawTables where
  noise : List NoiseModel := List.replicate 16 {}
  defects : List (List (Nat × Nat × Nat)) := [[], []]
  fpn : List FpnTable := [{}, {}]
  shading : List ShadingTable := List.replicate 8 {}
  deriving DecidableEq, Repr, Inhabited

/-- A stream's motion settings (R197). -/
structure MotionSet where
  enable : Bool := false
  weights : List Nat := List.replicate 5 256
  range3 : Nat := 12
  refine : Nat := 2
  lambda : Nat := 64
  sadReject : Nat := 0
  temporal : Bool := true
  spatial : Bool := true
  exportOn : Bool := false
  exportDepth : Nat := 2
  exportPail : Nat := 0
  deriving DecidableEq, Repr, Inhabited

/-- A motion-field block record (Table 7.1). -/
structure BlockRecord where
  vx : Int := 0
  vy : Int := 0
  sad : Nat := 0
  confidence : Nat := 0
  valid : Bool := false
  rangeLimit : Bool := false
  filled : Bool := false
  concealed : Bool := false
  late : Bool := false
  deriving DecidableEq, Repr, Inhabited

/-- The state of a motion band (R186, R194, R195). -/
inductive BandState where
  | waiting | queued | running | written | forfeited | concealed
  deriving DecidableEq, Repr, Inhabited

/-- A motion field in its slot (Table 7.2). `bands` are indexed by block row × spans + span. -/
structure MotionField where
  frame : Nat := 0
  refFrame : Nat := 0
  blocksW : Nat := 0
  blocksH : Nat := 0
  noRef : Bool := true
  anyLate : Bool := false
  anyConcealed : Bool := false
  complete : Bool := false
  epoch : Nat := 0
  doneStamp : Nat := 0
  domain : Nat := 5
  records : List BlockRecord := []
  bands : List BandState := []
  deriving DecidableEq, Repr, Inhabited

/-- A grey picture: the level-0 proxy of the pyramid (R184) or a plane of a denoised frame (R159). -/
structure Picture where
  width : Nat := 0
  height : Nat := 0
  rows : List (List Nat) := []
  deriving DecidableEq, Repr, Inhabited

/-- A 3 × n matrix and its offsets, fp32 (R204, R207). -/
structure Matrix where
  coeffs : List Nat := [fpOne, 0, 0, 0, 0, fpOne, 0, 0, 0, 0, fpOne, 0]
  offset : List Nat := [0, 0, 0]
  builtin : Nat := 0
  deriving DecidableEq, Repr, Inhabited

/-- ASC CDL settings of a branch (Table 8.9). -/
structure Cdl where
  enable : Bool := false
  clamp : Bool := false
  space : Nat := 1
  slope : List Nat := [fpOne, fpOne, fpOne]
  offset : List Nat := [0, 0, 0]
  power : List Nat := [fpOne, fpOne, fpOne]
  sat : Nat := fpOne
  deriving DecidableEq, Repr, Inhabited

/-- A branch's settings (Tables 8.7 to 8.13). -/
structure BranchSet where
  enable : Bool := false
  configured : Bool := false
  cls : Nat := 0
  format : Nat := 0x01
  outW : Nat := 16
  outH : Nat := 8
  cropX : Nat := 0
  cropY : Nat := 0
  cropW : Nat := 0
  cropH : Nat := 0
  ycc : Nat := 0
  range : Nat := 0
  alpha : Nat := 0
  depth : Nat := 2
  pail : Nat := 0
  m1 : Matrix := {}
  m2 : Matrix := {}
  cdl : Cdl := {}
  transfer : Nat := 0
  scale : Nat := fpOne
  pre : Option Nat := none
  lut3 : Option Nat := none
  post : Option Nat := none
  kernelH : Nat := 0
  kernelV : Nat := 0
  coeffs : List Int := []
  deriving DecidableEq, Repr, Inhabited

/-- A stream's colour-core settings (R203 to R206, R227). -/
structure ColourSet where
  method : Nat := 1
  highlight : Nat := 0
  working : Nat := 2
  inTransfer : Nat := 5
  inPrimaries : Nat := 3
  inYcc : Nat := 1
  inRange : Nat := 1
  inChroma : Nat := 1
  inScale : Nat := fpOne
  camera : Matrix := {}
  deriving DecidableEq, Repr, Inhabited

/-- A 1D LUT slot (R212). -/
structure Lut1 where
  channels : Nat := 0
  dmin : Nat := 0
  dmax : Nat := 0
  entries : List Nat := []
  deriving DecidableEq, Repr, Inhabited

/-- A stream's LUT slots (R213, R214): an empty list is an empty slot; 3D nodes are fp16. -/
structure LutTables where
  lut1 : List Lut1 := List.replicate 16 {}
  lut3 : List (List Nat) := List.replicate 4 []
  deriving DecidableEq, Repr, Inhabited

/-- A stream's statistics settings (Table 9.7, R246). -/
structure StatsSet where
  enable : Bool := false
  notify : Bool := false
  cls : Nat := 0
  mode : Nat := 0
  point : Nat := 0
  depth : Nat := 2
  pail : Nat := 0
  zoneX : Nat := 0
  zoneY : Nat := 0
  zoneW : Nat := 0
  zoneH : Nat := 0
  deriving DecidableEq, Repr, Inhabited

/-- A raw tap's settings (Table 9.8, R246). -/
structure TapSet where
  enable : Bool := false
  configured : Bool := false
  format : Nat := 0
  cls : Nat := 1
  depth : Nat := 2
  cropX : Nat := 0
  cropY : Nat := 0
  cropW : Nat := 0
  cropH : Nat := 0
  pail : Nat := 0
  deriving DecidableEq, Repr, Inhabited

/-- Everything of a stream that binds to a frame at its SOF (R173, R225, R241). -/
structure StreamSettings where
  raw : RawSet := {}
  motion : MotionSet := {}
  colour : ColourSet := {}
  branches : List BranchSet := List.replicate 8 {}
  stats : StatsSet := {}
  taps : List TapSet := [{}, {}, {}, { format := 2 }, { format := 2 }]
  deriving DecidableEq, Repr, Inhabited

/-- An output ring of a branch, of statistics, of a tap, or of an engine that writes frames to a pail
(R223, R236, R244): the next slot, who holds each slot, the last complete slot and frame, skips, and the pails of rings replaced while
slots of theirs were held. -/
structure OutRing where
  next : Nat := 0
  holders : NMap (List Nat) := []
  lastSlot : Option Nat := none
  lastFrame : Nat := 0
  lastEpoch : Nat := 0
  skippedBefore : Nat := 0
  skipsSinceEvent : Nat := 0
  skips : Nat := 0
  lastEvent : Option Nat := none
  retiring : List (Nat × NMap (List Nat)) := []
  deriving DecidableEq, Repr, Inhabited

/-- A zone's accumulators (Table 9.1). -/
structure Zone where
  sum : List Int := List.replicate 5 0
  n : List Nat := List.replicate 5 0
  clipped : List Nat := List.replicate 5 0
  deriving DecidableEq, Repr, Inhabited

/-- The statistics folded so far for a frame (R232 to R237); bins and zones listed are the non-zero ones. -/
structure StatsFold where
  raw : NMap Nat := []
  luma : NMap Nat := []
  zones : NMap Zone := []
  omitted : Nat := 0
  deriving DecidableEq, Repr, Inhabited

/-- An output of a frame in flight: the slot it was given (none when skipped) and what is left of it;
`rowAt` tells when each tile row of it was complete, `before` counts the frames skipped before it. -/
structure FrameOutput where
  slot : Option Nat := none
  before : Nat := 0
  tilesLeft : Nat := 0
  concealed : Nat := 0
  rowsLeft : List Nat := []
  rowAt : NMap Nat := []
  done : Bool := false
  deriving DecidableEq, Repr, Inhabited

/-- A frame that the drills and harrows are working on, with the set bound to it at its SOF. `src` and `slot` name the slot
its jobs read, of a raw ring or of a decoder's; `src` is 0 for the mid-grey picture of R307. `sof` and `frameEnd` are times
of the module's clock, `rowsIn` counts the leading rows in memory, `lineAt` is T_r of each tile-row whose rows are there
(R28), `kOne` says that temporal noise reduction blends nothing (R167), and `told` lists the events raised once a frame. -/
structure FrameWork where
  number : Nat := 0
  src : Nat := 0
  slot : Nat := 0
  sof : Nat := 0
  sofSeconds : Nat := 0
  sofNs : Nat := 0
  epoch : Nat := 0
  first : Bool := false
  settings : StreamSettings := {}
  map : List LaneEntry := []
  bank : Nat := 0
  rowsIn : Nat := 0
  lineAt : NMap Nat := []
  released : List Nat := []
  forfeited : List Nat := []
  delivered : Option FrameRecord := none
  frameEnd : Option Nat := none
  fillFirst : Option Nat := none
  laneFill : Nat := 0
  branchOut : List FrameOutput := []
  tapOut : List FrameOutput := []
  statsOut : FrameOutput := {}
  fold : StatsFold := {}
  dynDefects : Nat := 0
  tilesConcealed : Nat := 0
  tilesDone : Nat := 0
  kOne : Bool := false
  tnrReason : Option Nat := none
  told : List Nat := []
  nonfinite : Nat := 0
  prevFrame : Nat := 0
  withdrawn : Bool := false
  bandsConcealed : Nat := 0
  deriving DecidableEq, Repr, Inhabited

/-- The planes of a frame's denoised picture (R159). -/
structure Denoised where
  frame : Nat := 0
  planes : List Picture := []
  deriving DecidableEq, Repr, Inhabited

/-- A frame's level-0 proxy, from which its pyramid follows (R184, R185). -/
structure Proxy where
  frame : Nat := 0
  picture : Picture := {}
  deriving DecidableEq, Repr, Inhabited

/-- The admission state of a stream (Table 2.10). -/
inductive AdmitState where
  | out | admitted | released
  deriving DecidableEq, Repr, Inhabited

/-- One stream S0–S23. The two denoised frames, level-0 proxies and field slots that firmware holds stand in two banks (R159,
R185, R191); `bank` is the place of the newest frame's, `prevSet` the raw set of the previous frame with work (R167); `missed`
counts the late jobs of a frame and class (R48), by frame × 4 + class. -/
structure Stream where
  admission : AdmitState := .out
  minPeriod : Nat := 0
  maxPeriod : Nat := 0
  frame : Nat := 0
  lastSof : Option Nat := none
  epoch : Nat := 0
  started : Bool := false
  geometry : List Nat := []
  settings : StreamSettings := {}
  inForce : Bool := false
  bound : StreamSettings := {}
  boundFrame : Nat := 0
  boundEpoch : Nat := 0
  boundDynDefects : Nat := 0
  tables : RawTables := {}
  luts : LutTables := {}
  branchRings : List OutRing := List.replicate 8 {}
  tapRings : List OutRing := List.replicate 5 {}
  statsRing : OutRing := {}
  exportNext : Nat := 0
  work : List FrameWork := []
  denoised : List Denoised := []
  prevSet : Option RawSet := none
  bank : Nat := 0
  proxies : List Proxy := []
  fields : List MotionField := []
  lastComplete : MotionField := {}
  spill : List (Nat × Nat × Nat × List (List Nat)) := []
  suspectFrom : Option Nat := none
  suspectTo : Option Nat := none
  suspectMax : Nat := 0
  suspectGroups : List Nat := []
  decoder : Option Nat := none
  playStart : Nat := 0
  defectEvent : Option Nat := none
  missed : NMap Nat := []
  nonfiniteEvent : Option Nat := none
  statsEvent : Option Nat := none
  statsLateSince : Nat := 0
  deriving DecidableEq, Repr, Inhabited

/-- A drill job (R29 to R31). `kind` is 0 for the chain job and k for the k-th spill job; `ref` is its
reference time in 1/300 µs; `branches` are the branches it carries. -/
structure Job where
  stream : Nat := 0
  frame : Nat := 0
  row : Nat := 0
  col : Nat := 0
  kind : Nat := 0
  cls : Nat := 0
  deadline : Nat := 0
  ref : Nat := 0
  branches : List Nat := []
  spills : List (List Nat) := []
  retry : Bool := false
  started : Nat := 0
  deriving DecidableEq, Repr, Inhabited

/-- A motion band job (R186, R193). -/
structure BandJob where
  stream : Nat := 0
  frame : Nat := 0
  row : Nat := 0
  span : Nat := 0
  cls : Nat := 0
  deadline : Nat := 0
  laneFill : Nat := 0
  retry : Bool := false
  started : Nat := 0
  deriving DecidableEq, Repr, Inhabited

/-- A drill (R33, R510, R518). -/
structure Drill where
  lost : Bool := false
  job : Option Job := none
  lastPatrol : Nat := 0
  deriving DecidableEq, Repr, Inhabited

/-- A field: its four class queues in service order, and its pacer (R19, R32). `admitted` is the number of drills that the admitted load
assumes (R512). -/
structure Field where
  queues : List (List Job) := List.replicate 4 []
  pacer : Nat := 568
  lowReadings : Nat := 0
  admitted : Nat := 0
  deriving DecidableEq, Repr, Inhabited

/-- An admission that waits for its VCORE step to be confirmed (R25): its request and transaction, the step it needs, the step commanded and
when, and whether a fail-over executes it again (R507). -/
structure PendingRaise where
  request : Request := {}
  session : Nat := 0
  txn : Option Nat := none
  step : Nat := 0
  commanded : Nat := 0
  started : Nat := 0
  replay : Bool := false
  deriving DecidableEq, Repr, Inhabited

/-- The VCORE ladder, the guarantee and the drill fields (chapter 02). -/
structure Fabric where
  admStep : Nat := 650
  cmdStep : Nat := 650
  extra : Bool := false
  extraGoodSince : Option Nat := none
  extraSettling : Option Nat := none
  lowering : Option Nat := none
  lastChange : Nat := 0
  vout : Nat := 650
  tj : Int := 250
  stackTj : List Int := [250, 250]
  lapse : Option (Nat × Nat) := none
  goodSince : Option Nat := none
  raise : Option PendingRaise := none
  fields : List Field := List.replicate 12 {}
  drills : List Drill := List.replicate 384 {}
  harrowQueues : List (List BandJob) := List.replicate 4 []
  harrows : List (Option BandJob) := List.replicate 16 none
  deriving DecidableEq, Repr, Inhabited

end Sys2Proof.Machine
end

