-- ==== Sys2Proof/Machine/Types/Codec.lean ====
section
/-! DEFINITION. State of the encoder sessions (chapters 10 and 11), the decoder sessions (12) and the tines
that run their jobs (02, R34). A field's default is its value when the session is opened (R267, R291) or at
reset. -/

namespace Sys2Proof.Machine

/-- ENC_XS_CONFIG (Table 10.4). -/
structure XsConfig where
  sourceKind : Nat := 0
  tapPoint : Nat := 0
  source : Nat := 0
  profile : Nat := 0
  pad : Bool := false
  qlimitOn : Bool := false
  uniform : Bool := false
  signPack : Bool := false
  nlx : Nat := 5
  nly : Nat := 1
  sliceRows : Nat := 16
  budget : Nat := 0
  reserve : Nat := 10
  draw : Nat := 50
  qlimit : Nat := 0
  cls : Nat := 1
  depth : Nat := 5
  pail : Nat := 0
  deriving DecidableEq, Repr, Inhabited

/-- ENC_CONFIG (Table 11.8). -/
structure EncConfig where
  profile : Nat := 0
  cls : Nat := 2
  source : Nat := 0
  rotation : Nat := 0
  hflip : Bool := false
  sao : Bool := true
  cavlc : Bool := false
  intraRefresh : Bool := false
  liveYield : Bool := false
  noSeeds : Bool := false
  decX : Nat := 0
  decY : Nat := 0
  ctu : Nat := 1
  tileCols : Nat := 1
  gop : Nat := 60
  mvVRange : Nat := 256
  searchRange : Nat := 4
  level : Nat := 0
  tier : Nat := 0
  depth : Nat := 10
  pail : Nat := 0
  refreshPeriod : Nat := 0
  deriving DecidableEq, Repr, Inhabited

/-- ENC_RC_SET (Table 11.9). -/
structure RateControl where
  mode : Nat := 0
  qlimitOn : Bool := false
  aq : Bool := false
  targetKbps : Nat := 50000
  maxKbps : Nat := 50000
  cpbKbits : Nat := 25000
  initFill : Nat := 90
  fillTarget : Nat := 50
  reserve : Nat := 10
  draw : Nat := 50
  qpMin : Int := 0
  qpMax : Int := 51
  qLim : Int := 51
  iWeight : Nat := 64
  pQpOffset : Nat := 2
  deriving DecidableEq, Repr, Inhabited

/-- A swath of a frame being coded (R257 to R260, R283): what it was given, the parts its segments coded by segment, the jobs
left of it, and its QP in 1/16 weighed by samples. -/
structure Swath where
  released : Bool := false
  left : Nat := 1
  floorCoded : Bool := false
  concealed : Bool := false
  alloc : Nat := 0
  parts : NMap (List Byte) := []
  activity : NMap Nat := []
  qp : Int := 0
  doneAt : Option Nat := none
  deriving DecidableEq, Repr, Inhabited

/-- What the parameter sets of an HEVC or AVC picture say (R271, R272): the colour codes of Table 11.3, the range of its samples, its
level and tier, and the HRD's rate, CPB size and mode. -/
structure ParamSets where
  primaries : Nat := 2
  transfer : Nat := 2
  matrix : Nat := 2
  fullRange : Bool := false
  profile : Nat := 0
  level : Nat := 0
  tier : Nat := 0
  width : Nat := 0
  height : Nat := 0
  kbps : Nat := 0
  cpbBytes : Nat := 0
  cbr : Bool := false
  deriving DecidableEq, Repr, Inhabited

/-- A prediction unit with the vector that the tine's search gave it, in ¼ pel (R280). -/
structure UnitVector where
  x : Nat := 0
  y : Nat := 0
  vx : Int := 0
  vy : Int := 0
  deriving DecidableEq, Repr, Inhabited

/-- A frame that an encoder session codes, with the sizes, the configuration and the source's settings bound to it at its SOF. `image`
is the size of its stream's image and `bits` the depth of its source; `slot` is none for a frame that is read but not written,
`fresh` says that activity starts afresh with it and `relevel` that the CPB model does; `activity` is empty until its first swath
starts, and holds each swath's by segment. `lineAt` is T_r of its stream's tile-rows once the stream's own work on it is done,
`refresh` the picture's place in an intra-refresh sweep (R275), and `recon` the reconstruction frame that it writes (R287). -/
structure EncFrame where
  number : Nat := 0
  w : Nat := 0
  h : Nat := 0
  chroma : Nat := 0
  bits : Nat := 8
  image : Nat × Nat := (0, 0)
  branch : BranchSet := {}
  tap : TapSet := {}
  lineAt : NMap Nat := []
  period : Nat := 0
  slot : Option Nat := none
  sourceSlot : Nat := 0
  xs : XsConfig := {}
  enc : EncConfig := {}
  rc : RateControl := {}
  first : Bool := false
  fresh : Bool := false
  relevel : Bool := false
  idr : Bool := false
  before : Nat := 0
  budget : Nat := 0
  pool : Nat := 0
  unspent : Nat := 0
  shareBase : Nat := 0
  activity : List (List Nat) := []
  exhaustedRow : Option Nat := none
  poc : Nat := 0
  level : Nat := 0
  filler : Nat := 0
  flags : Nat := 0
  epoch : Nat := 0
  domain : Nat := 5
  sofSeconds : Nat := 0
  sofNs : Nat := 0
  sof : Nat := 0
  frameEnd : Option Nat := none
  swaths : List Swath := []
  header : List Byte := []
  pad : List Byte := []
  sets : ParamSets := {}
  refresh : Option Nat := none
  recon : Nat := 0
  vectors : List UnitVector := []
  hrdBreak : Bool := false
  deriving DecidableEq, Repr, Inhabited

/-- An encoder session (R250, R273, R290). `leaving` holds the frames that it no longer codes while a job of theirs still runs: the
frame, the reference of its source and the source's slot (R154). -/
structure Encoder where
  codec : Nat := 0
  configured : Bool := false
  xs : XsConfig := {}
  enc : EncConfig := {}
  rc : RateControl := {}
  consumers : List Nat := []
  ring : OutRing := {}
  frames : List EncFrame := []
  leaving : List (Nat × Nat × Nat) := []
  lastActivityI : List (List Nat) := []
  lastActivityP : List (List Nat) := []
  restart : Bool := true
  level : Nat := 0
  levelSet : Bool := false
  errSum : Int := 0
  sinceIdr : Nat := 0
  anyCoded : Bool := false
  recon : Nat := 0
  forceIdr : Bool := false
  missed : NMap Nat := []
  closing : Bool := false
  exhaustedEvent : Option Nat := none
  exhaustedSince : Nat := 0
  yieldEvent : Option Nat := none
  yieldSince : Nat := 0
  deriving DecidableEq, Repr, Inhabited

/-- What the syntax of ITU-T H.265 and H.264 reads from a NAL unit's bytes: whether a value lies out of its range, whether it uses a
profile or a feature outside Table 12.1; of a parameter set its identifier and the one it names, of a slice the picture parameter
set it names and its first CTU or macroblock in coding order; of a sequence's set the coded and the cropped size, where the
cropped picture starts, the bit depth and the CTU size; of a picture's set whether WPP is on, and the first CTU column and row of
each of its tiles' columns and rows. -/
structure NalIn where
  outOfRange : Bool := false
  otherProfile : Bool := false
  otherFeature : Bool := false
  id : Nat := 0
  names : Nat := 0
  first : Nat := 0
  codedW : Nat := 0
  codedH : Nat := 0
  cropX : Nat := 0
  cropY : Nat := 0
  w : Nat := 0
  h : Nat := 0
  bits : Nat := 8
  ctu : Nat := 16
  wpp : Bool := false
  tileCols : List Nat := []
  tileRows : List Nat := []
  deriving DecidableEq, Repr, Inhabited

/-- The kinds of NAL units that a decoder tells apart. -/
inductive NalKind where
  | vps | sps | pps | slice | other
  deriving DecidableEq, Repr, Inhabited

/-- A parameter set in force in a decoder (R301). -/
structure ParamSet where
  kind : NalKind := .other
  nal : NalIn := {}
  deriving DecidableEq, Repr, Inhabited

/-- A job of a picture that is decoded (R295): its area in units of CTUs, macroblocks or whole slices, `count` of them from the
coding address `first` on, `width` in a row; `x` and `y` is the place of the first one. `tile` is the tile it belongs to, and
`ref` its reference time in µs. -/
structure DecJob where
  tile : Nat := 0
  x : Nat := 0
  y : Nat := 0
  first : Nat := 0
  count : Nat := 0
  width : Nat := 1
  ref : Rat := 0
  deriving DecidableEq, Repr, Inhabited

/-- How a unit's picture is cut up for decoding, as its headers say (R295, R301, R302): the sizes, `unitW` × `unitH` samples for each
address of its jobs, the jobs, the addresses at which decodable slices start, and whether WPP is on. Without a size there is no
picture. -/
structure DecPlan where
  picture : Bool := false
  codedW : Nat := 0
  codedH : Nat := 0
  cropX : Nat := 0
  cropY : Nat := 0
  w : Nat := 0
  h : Nat := 0
  bits : Nat := 8
  unitW : Nat := 16
  unitH : Nat := 16
  wpp : Bool := false
  starts : List Nat := []
  damaged : Bool := false
  jobs : List DecJob := []
  deriving DecidableEq, Repr, Inhabited

/-- A 16 × 16 luma block of a lost area, with the vectors of its decoded neighbours: horizontal and vertical part in ¼ pel, and the
picture order count they refer to (R303). -/
structure LostBlock where
  x : Nat := 0
  y : Nat := 0
  vectors : List (Int × Int × Int) := []
  deriving DecidableEq, Repr, Inhabited

/-- A unit that waits in a decoder's input buffer (R297). -/
structure DecUnit where
  bytes : Nat := 0
  ptsSeconds : Nat := 0
  ptsNs : Nat := 0
  discontinuity : Bool := false
  endOfStream : Bool := false
  late : Bool := false
  data : List Byte := []
  deriving DecidableEq, Repr, Inhabited

/-- A picture of a decoder: in the DPB, or complete in a slot (R303 to R308); `waiting` are the playback streams that may still
present it and `shown` those that present it now. -/
structure DecPicture where
  frame : Nat := 0
  slot : Option Nat := none
  poc : Int := 0
  ptsSeconds : Nat := 0
  ptsNs : Nat := 0
  concealed : Bool := false
  substituted : Bool := false
  tainted : Bool := false
  reference : Bool := true
  waiting : List Nat := []
  shown : List Nat := []
  width : Nat := 0
  height : Nat := 0
  bits : Nat := 8
  planes : List Picture := []
  deriving DecidableEq, Repr, Inhabited

/-- A decoder session (Table 12.4, R300), with the parameter sets in force, and the plan of the unit that it decodes with the
results of the jobs that have ended; `recovering` is the recovery_poc of an SEI from which on every picture was undamaged, and `dropRasl` says that the RASL
pictures of the latest IRAP are discarded (R305). -/
structure Decoder where
  codec : Nat := 0
  profile : Nat := 1
  cls : Nat := 0
  depth : Nat := 2
  maxWidth : Nat := 64
  maxHeight : Nat := 64
  domain : Nat := 5
  dpb : Nat := 1
  conceal : Nat := 1
  maxKbps : Nat := 100
  periodNs : Nat := 500000
  leadUs : Nat := 1000
  inKib : Nat := 1024
  pail : Nat := 0
  queue : List DecUnit := []
  decoding : Option DecUnit := none
  sets : List ParamSet := []
  plan : DecPlan := {}
  results : NMap TineResult := []
  missed : NMap Nat := []
  pictures : List DecPicture := []
  ring : OutRing := {}
  consumers : List Nat := []
  good : Option DecPicture := none
  lastGood : Int := 0
  nextFrame : Nat := 1
  affected : Nat := 0
  recovering : Option Int := none
  dropRasl : Bool := false
  skippedBefore : Nat := 0
  draining : Option PendingCmd := none
  closing : Bool := false
  damageEvent : Option Nat := none
  damageSince : Nat := 0
  lateEvent : Option Nat := none
  lateSince : Nat := 0
  deriving DecidableEq, Repr, Inhabited

/-- A tine job: a swath or segment of an encoder session, or a job of a unit that is decoded (R34, R252, R276, R295). `session` is the
session's object ID, and `ref` the reference time in µs. -/
structure TineJob where
  session : Nat := 0
  frame : Nat := 0
  swath : Nat := 0
  segment : Nat := 0
  cls : Nat := 0
  deadline : Nat := 0
  ref : Rat := 0
  retry : Bool := false
  started : Nat := 0
  deriving DecidableEq, Repr, Inhabited

/-- Codec state: sessions by index, the tine pool's class queues and its 64 tines. -/
structure Codecs where
  encoders : NMap Encoder := []
  decoders : NMap Decoder := []
  queues : List (List TineJob) := List.replicate 4 []
  tines : List (Option TineJob) := List.replicate 64 none
  deriving DecidableEq, Repr, Inhabited

end Sys2Proof.Machine
end

