-- ==== Sys2Proof/Machine/Types/Output.lean ====
section
/-! DEFINITION. State of the rasters and SDI inputs (chapter 13), the time domains and launches (14), the
Ethernet ports and flows (15) and the audio ports and sample clocks (16). A field's default is its value at
reset. -/

namespace Sys2Proof.Machine

/-- Full time (R338): seconds and nanoseconds of a domain. -/
structure FullTime where
  seconds : Nat := 0
  ns : Nat := 0
  deriving DecidableEq, Repr, Inhabited

/-- RASTER_TIMING_SET (Table 13.4). -/
structure RasterTiming where
  domain : Nat := 5
  hActive : Nat := 64
  vActive : Nat := 64
  hTotal : Nat := 80
  vTotal : Nat := 72
  hFront : Nat := 1
  hSync : Nat := 1
  vFront : Nat := 1
  vSync : Nat := 1
  rateNum : Nat := 60000
  rateDen : Nat := 1000
  refStream : Nat := 0
  phaseNs : Nat := 0
  deriving DecidableEq, Repr, Inhabited

/-- RASTER_PLANE_SET (Table 13.5). -/
structure PlaneSet where
  mode : Nat := 0
  sourceKind : Nat := 0
  alpha : Nat := 0
  source : Nat := 0
  format : Nat := 0
  pail : Nat := 0
  stride : Nat := 0
  srcW : Nat := 0
  srcH : Nat := 0
  cropX : Nat := 0
  cropY : Nat := 0
  cropW : Nat := 0
  cropH : Nat := 0
  dstX : Nat := 0
  dstY : Nat := 0
  deriving DecidableEq, Repr, Inhabited

/-- What a plane presents (R315, R316): the slot and frame number, and for how many raster frames an unlocked SDI input has
been repeated (R332). -/
structure PlaneShow where
  slot : Option Nat := none
  frame : Nat := 0
  repeats : Nat := 0
  deriving DecidableEq, Repr, Inhabited

/-- A plane of one raster frame as its latch took it: its settings with the crop resolved, the slot or image it presents, and how
that is encoded. -/
structure AirPlane where
  set : PlaneSet := {}
  slot : Nat := 0
  frame : Nat := 0
  pail : Nat := 0
  base : Nat := 0
  format : Nat := 0
  width : Nat := 0
  height : Nat := 0
  range : Nat := 0
  ycc : Nat := 0
  deriving DecidableEq, Repr, Inhabited

/-- A raster frame from its latch to its end (R313, R317, R329): its planes, those of the frame before under fill mode 1, the
line it was aborted from, the line a fill was late from, whether it is transmitted, the outputs that skipped it for want of a TE edge
(R325), and its composited lines once its planes' slots are let go. -/
structure AirFrame where
  frame : Nat := 0
  planes : List (Option AirPlane) := List.replicate 4 none
  before : List (Option AirPlane) := List.replicate 4 none
  aborted : Option Nat := none
  fillLate : Option Nat := none
  transmitted : Bool := true
  skipped : List Nat := []
  closed : Bool := false
  lines : List (List (Nat × Nat × Nat)) := []
  deriving DecidableEq, Repr, Inhabited

/-- Read-back checking of one output (R326, R327): the last two CRCs, the last event and mismatches since. -/
structure CrcCheck where
  composited : Nat := 0
  loopback : Nat := 0
  event : Option Nat := none
  since : Nat := 0
  deriving DecidableEq, Repr, Inhabited

/-- RASTER_OUTPUT_SET of a bound output (Table 13.6), its last CRCs with the checks of its transmitters. -/
structure OutputBind where
  output : Nat := 0
  link : Nat := 0
  lanes : Nat := 0
  laneRate : Nat := 0
  ycc : Nat := 0
  range : Nat := 0
  sampling : Nat := 0
  depth : Nat := 10
  hdr : Nat := 0
  te : Nat := 0
  mastering : List Nat := [0, 0, 0, 0]
  checks : NMap CrcCheck := []
  deriving DecidableEq, Repr, Inhabited

/-- A raster (chapter 13). `planes` is the shadow set of commands, `live` what the last latch copied. -/
structure Raster where
  running : Bool := false
  timing : RasterTiming := {}
  cut : Nat := 16
  planes : List PlaneSet := List.replicate 4 {}
  live : List PlaneSet := List.replicate 4 {}
  shown : List PlaneShow := List.replicate 4 {}
  fill : Nat := 0
  crcOn : Bool := false
  refresh : Bool := false
  nUnchanged : Nat := 1
  refreshK : Nat := 0
  unchangedRun : Nat := 0
  refreshPhase : Nat := 0
  changed : Bool := false
  outputs : List OutputBind := []
  group : Option Nat := none
  frame : Nat := 0
  frameStart : Nat := 0
  gridBase : Nat := 0
  startAt : Nat := 0
  epoch : Nat := 0
  latchEpoch : Nat := 0
  gridError : Int := 0
  driftRaised : Bool := false
  driftGoodSince : Option Nat := none
  air : List AirFrame := []
  stopping : Bool := false
  latchedFrame : Nat := 0
  lineCheck : List Nat := []
  awaitTe : List Nat := []
  stretch : Nat := 0
  deriving DecidableEq, Repr, Inhabited

/-- An aligned raster group (R330). -/
structure RasterGroup where
  kind : Nat := 0
  members : Nat := 0
  deriving DecidableEq, Repr, Inhabited

/-- An SDI input (R331, R332); `sav` and `ancillary` are those of the latest frame. -/
structure SdiInput where
  enabled : Bool := false
  depth : Nat := 2
  domain : Nat := 5
  pail : Nat := 0
  holdFrames : Nat := 2
  locked : Bool := false
  payloadId : Nat := 0
  width : Nat := 0
  height : Nat := 0
  frames : Nat := 0
  sinceLock : Nat := 0
  ring : OutRing := {}
  sav : Nat := 0
  ancillary : List Byte := []
  deriving DecidableEq, Repr, Inhabited

/-- An HDMI port's link (R325). -/
structure HdmiLink where
  plugged : Bool := false
  trained : Bool := false
  rate : Nat := 0
  lanes : Nat := 0
  retryAt : Option Nat := none
  deriving DecidableEq, Repr, Inhabited

/-- The display outputs. -/
structure Display where
  rasters : List Raster := List.replicate 8 {}
  groups : List RasterGroup := List.replicate 4 {}
  sdiIn : List SdiInput := List.replicate 4 {}
  hdmi : List HdmiLink := List.replicate 2 {}
  deriving DecidableEq, Repr, Inhabited

/-- The state of a time domain (Table 14.2). -/
inductive DomainState where
  | disabled | acquiring | locked | holdover | ratePending | free
  deriving DecidableEq, Repr, Inhabited

/-- PTP_CONFIG (Table 14.8), and what the instance has learned (R347). -/
structure Ptp where
  configured : Bool := false
  profile : Nat := 0
  domain : Nat := 127
  portA : Nat := 0
  portB : Nat := 0xFF
  ipv6 : Bool := false
  hybrid : Bool := false
  announceTimeout : Nat := 3
  lockNs : Nat := 1000
  grandmaster : Nat := 0
  gmA : Nat := 0
  gmB : Nat := 0
  steps : Nat := 0
  utcOffset : Int := 0
  leap61 : Bool := false
  leap59 : Bool := false
  utcValid : Bool := false
  activePort : Nat := 0
  validA : Bool := false
  validB : Bool := false
  goodRun : Nat := 0
  goodRunB : Nat := 0
  lastSyncA : Option Nat := none
  lastSyncB : Option Nat := none
  deriving DecidableEq, Repr, Inhabited

/-- A checked reference input (Table 14.3). `intervals` are the last edge intervals, newest
first, and `measured` the sum of the 8 that showed a new rate. -/
structure RefInput where
  lastValid : Option Nat := none
  lastEdge : Option Nat := none
  intervals : List Nat := []
  goodRun : Nat := 0
  lost : Bool := false
  changed : Bool := false
  measured : Nat := 0
  deriving DecidableEq, Repr, Inhabited

/-- A time domain (R336 to R345). Its time is `base` + the time since `anchor` at the offset `rate` (in
0.001 ppb of TIME_REFCLK) + the part of `slew` that has been worked off at `maxSlewPpm`. -/
structure Domain where
  state : DomainState := .disabled
  base : Nat := 0
  anchor : Nat := 0
  rate : Int := 0
  slew : Int := 0
  hasTime : Bool := false
  stepOn : Bool := false
  maxSlewPpm : Nat := 10
  stepNs : Nat := 1000000
  rateNum : Nat := 60000
  rateDen : Nat := 1000
  timeSource : Nat := 0
  pendingTime : Option Nat := none
  pendingStep : Option Int := none
  commitStep : Bool := false
  error : Int := 0
  heldSince : Nat := 0
  extended : Bool := false
  anchorOn : Bool := true
  pps : Nat := 0
  ppsWidth : Nat := 100
  gridPulse : Option Nat := none
  gridPeriod : Nat := 0
  phaseRun : Nat := 0
  copied : Bool := false
  running : Nat := 0
  deriving DecidableEq, Repr, Inhabited

/-- GENLOCK_CONFIG (Table 14.9) and the two genlock inputs. -/
structure Genlock where
  configured : Bool := false
  hPolarity : Nat := 0
  fPolarity : Nat := 0
  fEvery : Nat := 1
  bandwidth : Nat := 0
  lines : Nat := 100
  rateNum : Nat := 60000
  rateDen : Nat := 1000
  fOffsetNs : Int := 0
  inputH : RefInput := {}
  inputF : RefInput := {}
  deriving DecidableEq, Repr, Inhabited

/-- LTC_CONFIG of one direction (Table 14.11). -/
structure LtcSide where
  enabled : Bool := false
  rate : Nat := 0
  domain : Nat := 5
  utcOffset : Int := 0
  userBits : Nat := 0
  offsetNs : Int := 0
  deriving DecidableEq, Repr, Inhabited

/-- A received LTC word (R349): timecode and user bits, short stamp. -/
structure LtcWord where
  bits : Nat := 0
  stamp : Nat := 0
  deriving DecidableEq, Repr, Inhabited

/-- LTC input and output (R349, R350). -/
structure Ltc where
  input : LtcSide := {}
  output : LtcSide := {}
  words : List LtcWord := []
  ref : RefInput := {}
  lastFrame : Option Nat := none
  lastSent : Option Nat := none
  sent : Nat := 0
  deriving DecidableEq, Repr, Inhabited

/-- A waiting launch entry (R353, Table 14.10). -/
structure Launch where
  id : Nat := 0
  domain : Nat := 0
  kind : Nat := 0
  target : Nat := 0
  pin : Nat := 0
  time : Nat := 0
  widthNs : Nat := 0
  cookie : Nat := 0
  session : Nat := 0
  deriving DecidableEq, Repr, Inhabited

/-- The time unit. Launches stand in scheduling order. -/
structure TimeUnit where
  domains : List Domain := [{}, {}, {}, {}, {}, { state := .free, hasTime := true }]
  ptp : List Ptp := List.replicate 4 {}
  genlock : Genlock := {}
  ltc : Ltc := {}
  launches : List Launch := []
  pps : List (Option Nat) := [none, none]
  deriving DecidableEq, Repr, Inhabited

/-- What a port answers to a neighbour, echo or group message (Table 15.1); a group it has joined stands with its source, 0 for
any. -/
inductive PortAnswer where
  | arp (mac receiver : Nat)
  | ndp (mac receiver : Nat)
  | echo (receiver : Nat) (data : List Byte)
  | groups (joined : List (Nat × Nat))
  deriving DecidableEq, Repr

/-- An Ethernet port (Table 15.3, R359), with the last answer it sent. -/
structure EthPort where
  speed : Nat := 0
  fec : Nat := 0
  mtu : Nat := 1500
  vlan : Nat := 0
  ipv4 : Nat := 0
  ipv4Prefix : Nat := 0
  ipv6 : Nat := 0
  ipv6Prefix : Nat := 0
  gateway : Nat := 0
  link : Bool := false
  answer : Option PortAnswer := none
  deriving DecidableEq, Repr, Inhabited

/-- FLOW_SEND_CREATE or FLOW_RECV_CREATE (Table 15.4). -/
structure FlowConfig where
  essence : Nat := 0
  dual : Bool := false
  ipv6 : Bool := false
  bpm : Bool := false
  ssm : Bool := false
  macA : Nat := 0
  macB : Nat := 0xFF
  domain : Nat := 5
  pcpOrDepth : Nat := 0
  dscp : Nat := 0
  payloadType : Nat := 96
  ssrc : Nat := 0
  port : Nat := 1
  maxPayload : Nat := 256
  addrA : Nat := 0
  addrB : Nat := 0
  sourceFilter : Nat := 0
  delay : Nat := 0
  ractiveNum : Nat := 0
  ractiveDen : Nat := 0
  channels : Nat := 1
  audioFormat : Nat := 0
  videoFormat : Nat := 0x30
  width : Nat := 0
  height : Nat := 0
  periodNs : Nat := 500000
  pail : Nat := 0
  deriving DecidableEq, Repr, Inhabited

/-- A frame that a sender is launching (R365, R367). -/
structure SendFrame where
  frame : Nat := 0
  slot : Option Nat := none
  base : Nat := 0
  packets : Nat := 0
  next : Nat := 0
  rtpStamp : Nat := 0
  blackFrom : Option Nat := none
  deriving DecidableEq, Repr, Inhabited

/-- A frame or packet time that a receiver is filling (R370, R371): its packets by extended number, with the paths they came
by (bit 0 a, bit 1 b). -/
structure RecvFrame where
  stamp : Nat := 0
  instant : Nat := 0
  packets : NMap (Nat × List Byte) := []
  deriving DecidableEq, Repr, Inhabited

/-- How a media packet left on a path (R358, R363, Tables 15.1 and 15.4): with DF set. -/
structure SentWay where
  mac : Nat := 0
  vlan : Nat := 0
  pcp : Nat := 0
  source : Nat := 0
  target : Nat := 0
  dscp : Nat := 0
  port : Nat := 0
  dontFragment : Bool := true
  deriving DecidableEq, Repr, Inhabited

/-- A flow (R363 to R371). -/
structure Flow where
  config : FlowConfig := {}
  bindKind : Nat := 0
  bindInput : Nat := 0
  bindObject : Nat := 0
  bindPail : Nat := 0
  bound : Bool := false
  running : Bool := false
  stopping : Bool := false
  extSeq : Nat := 0
  seqKnown : Bool := false
  held : Option (Nat × Nat × List Byte) := none
  seen : List Nat := []
  sending : Option SendFrame := none
  receiving : List RecvFrame := []
  lastClosed : Option Nat := none
  closedSeq : Option Nat := none
  lastPacket : List Byte := []
  lastWays : List SentWay := []
  ring : OutRing := {}
  lastPathA : Option Nat := none
  lastPathB : Option Nat := none
  lostA : Bool := false
  lostB : Bool := false
  startedAt : Nat := 0
  ancFrame : Nat := 0
  frames : Nat := 0
  underrunEvent : Option Nat := none
  lossEvent : Option Nat := none
  lossSince : Nat := 0
  lateSince : Nat := 0
  lineCheck : Bool := false
  deriving DecidableEq, Repr, Inhabited

/-- The network engine. Senders have keys 0–63 and receivers 64–127. `gone` holds the pails of deleted receivers with the slots that are
still held (Table 18.3). -/
structure Network where
  ports : List EthPort := [{}, {}, {}, {},
    { speed := 5, link := true, ipv4 := 0xA9FE0100, ipv4Prefix := 16 }]
  flows : NMap Flow := []
  gone : List (Nat × NMap (List Nat)) := []
  deriving DecidableEq, Repr, Inhabited

/-- The state of an audio port (Table 16.5). -/
inductive PortState where
  | disabled | running | restarting | muted
  deriving DecidableEq, Repr, Inhabited

/-- SAP_CONFIG (Table 16.4, R391). -/
structure SapConfig where
  direction : Nat := 0
  format : Nat := 0
  clockMode : Nat := 1
  scg : Nat := 0
  slots : Nat := 2
  slotWidth : Nat := 32
  sampleBits : Nat := 24
  bclkInv : Bool := false
  fsInv : Bool := false
  tdmDelay : Bool := false
  autoRestart : Bool := true
  rate : Nat := 2
  domain : Nat := 5
  sourceKind : Nat := 0
  sourceIndex : Nat := 0
  latency : Nat := 2
  pail : Nat := 0
  depth : Nat := 0
  deriving DecidableEq, Repr, Inhabited

/-- The ASRC of a port (R382). State as SAP_QUERY: 0 off, 1 tracking, 2 locked, 3 holding. -/
structure Asrc where
  enable : Bool := false
  bandwidth : Nat := 0
  outRate : Nat := 2
  state : Nat := 0
  ratio : Nat := 1073741824
  deriving DecidableEq, Repr, Inhabited

/-- An audio port. `ring` lists the sample frames of the channel ring by entry, and `leaving` the host ring that a new
configuration gave up. `slip` is by how many slots its words are misplaced after an xrun without a restart (R385), and `slotsOut` what a
transmit port sends in its slots from the last FS edge on (R375, R378). -/
structure AudioPort where
  config : SapConfig := {}
  state : PortState := .disabled
  slotMap : List Nat := List.range 16
  pendingMap : Option (List Nat) := none
  group : Option Nat := none
  asrc : Asrc := {}
  ref : RefInput := {}
  sampleIndex : Nat := 0
  edgeStamp : Nat := 0
  measuredMilliHz : Nat := 0
  offsetPpb : Int := 0
  ring : NMap (List Int) := []
  xrunEvent : Option Nat := none
  xrunSince : Nat := 0
  restartReason : Nat := 0
  flushed : Bool := false
  zeroed : Nat := 0
  leaving : Nat := 0
  startCount : Nat := 0
  slip : Nat := 0
  slotsOut : List Int := []
  deriving DecidableEq, Repr, Inhabited

/-- A sample clock generator (R380). -/
structure Scg where
  enable : Bool := false
  source : Nat := 0
  rate : Nat := 2
  mclk : Nat := 0
  deriving DecidableEq, Repr, Inhabited

/-- An audio port group (R384). -/
structure AudioGroup where
  leader : Nat := 0
  members : Nat := 0
  deriving DecidableEq, Repr, Inhabited

/-- A sample as an embedder put it into a raster's horizontal ancillary space (R387): its index, the frame and line it stands in,
and the 24-bit words of its channels. -/
structure EmbedSent where
  index : Nat := 0
  frame : Nat := 0
  line : Nat := 0
  words : List Nat := []
  deriving DecidableEq, Repr, Inhabited

/-- An embedder entry of an SDI transmit link (R387), with what it embedded last. -/
structure Embed where
  output : Nat := 0
  link : Nat := 0
  port : Nat := 0
  first : Nat := 0
  count : Nat := 0
  sdiFirst : Nat := 0
  delayUs : Nat := 0
  sent : Option EmbedSent := none
  deriving DecidableEq, Repr, Inhabited

/-- The audio unit. -/
structure Audio where
  ports : List AudioPort := List.replicate 16 {}
  scgs : List Scg := List.replicate 4 {}
  groups : List AudioGroup := List.replicate 8 {}
  embeds : List Embed := []
  deriving DecidableEq, Repr, Inhabited

end Sys2Proof.Machine
end

