-- ==== Sys2Proof/Machine/Types/Store.lean ====
section
/-! DEFINITION. State of the frame memory controller (chapter 17), of pails and translation (18) and of the
DMA engine (19). A field's default is its value at reset. -/

namespace Sys2Proof.Machine

/-- A byte-addressed memory: cells with addresses strictly rising, none equal to zero, which is what an
unlisted address reads as (R423: the pool is zeroed). -/
abbrev Mem := List Host.Cell

/-- The state of a rank (Table 17.6). -/
inductive RankState where
  | inService | fallow | source | destination | retired | kept
  deriving DecidableEq, Repr, Inhabited

/-- A rank (R393, R401, R404): its state and threshold, whether HBM_CE_THRESHOLD was raised, and the refreshes it owes. Its
counts are counters 0 to 3 of its object. -/
structure Rank where
  state : RankState := .inService
  threshold : Nat := 1024
  raised : Bool := false
  owed : Nat := 0
  deriving DecidableEq, Repr, Inhabited

/-- A migration in progress (R409 to R412). `bits` is the number of rows copied in order, `oldBits` and
`oldSpare` the copy sources of a restart, `dest` none when the copy goes into a withdrawn region. -/
structure Migration where
  source : Nat := 0
  dest : Option Nat := none
  bits : Nat := 0
  oldSpare : Option Nat := none
  oldBits : Nat := 0
  region : Nat := 0
  started : Nat := 0
  poisoned : Nat := 0
  deriving DecidableEq, Repr, Inhabited

/-- A stack's refresh band and the temperature of its last delay load (R399, R402). -/
structure StackState where
  temp : Int := 250
  multiple : Nat := 1
  loadedAt : Int := 250
  reloads : Nat := 0
  deriving DecidableEq, Repr, Inhabited

/-- A rank that waits to leave service (R408), whether into a withdrawn region (R412), and the RANK_RETIRE that asked for it
(R414). -/
structure RankLeave where
  rank : Nat := 0
  shrink : Bool := false
  region : Nat := 0
  command : Option PendingCmd := none
  deriving DecidableEq, Repr, Inhabited

/-- The frame memory controller. `slots` maps slot to rank; a slot whose rank was lost with no spare left is
served through the redirect table into region `redirect` (R412). `poison` lists the poisoned 64-byte lines
by line number. -/
structure Hbm where
  ranks : List Rank := (List.range 192).map (fun i =>
    if i % 48 == 47 then { state := .fallow } else {})
  slots : List Nat := (List.range 192).filter (fun i => i % 48 != 47)
  redirect : NMap Nat := []
  regions : Nat := 0
  migration : Option Migration := none
  leaving : List RankLeave := []
  lastCommand : Option PendingCmd := none
  stackStates : List StackState := [{}, {}]
  delays : List DelaySet := []
  poison : List Nat := []
  scrubLine : Nat := 0
  scrubPassStart : Nat := 0
  scrubSkipped : Nat := 0
  mem : Mem := []
  deriving DecidableEq, Repr, Inhabited

/-- A pail (R416 to R430). `pages` are page addresses (device physical or host bus) in order. -/
structure Pail where
  gen : Nat := 1
  host : Bool := false
  large : Bool := false
  readOnly : Bool := false
  noSnoop : Bool := false
  relaxed : Bool := false
  size : Nat := 0
  dva : Nat := 0
  pages : List Nat := []
  withering : Bool := false
  writable : Bool := true
  importing : Option (PendingCmd × Nat) := none
  lastFault : Option Nat := none
  deriving DecidableEq, Repr, Inhabited

/-- Pails and translation: live and withering pails by index, generations of indices used before, indices
freed in order, bytes waiting to be zeroed with their page addresses, and internal pails' pages in use. -/
structure Pails where
  table : NMap Pail := []
  generations : NMap Nat := []
  freed : List Nat := []
  nextIndex : Nat := 1
  nextDvaHbm : Nat := 0x200000
  nextDvaHost : Nat := 0x800000000000
  zeroing : List (Nat × Nat) := []
  zeroed : Nat := 0
  internal : Nat := 0
  faults : Nat := 0
  hostMem : Mem := []
  deriving DecidableEq, Repr, Inhabited

/-- A sheaf descriptor (Table 19.1). -/
structure Descriptor where
  op : Nat := 0
  interrupt : Bool := false
  fence : Bool := false
  level : Bool := false
  len : Nat := 0
  src : Nat := 0
  dst : Nat := 0
  srcOff : Nat := 0
  pattern : Nat := 0
  dstOff : Nat := 0
  count : List Nat := [0, 0, 0]
  s : List Int := [0, 0, 0]
  d : List Int := [0, 0, 0]
  next : Nat := 0xFFFFFFFF
  deriving DecidableEq, Repr, Inhabited

/-- A sheaf queued on a channel (R437, R438). -/
structure Sheaf where
  number : Nat := 0
  cookie : Nat := 0
  first : Nat := 0
  descriptors : List Descriptor := []
  pails : List Nat := []
  executed : Nat := 0
  deriving DecidableEq, Repr, Inhabited

/-- The state of a DMA channel (Table 19.5). -/
inductive ChannelState where
  | idle | running | waiting | paused | stopped
  deriving DecidableEq, Repr, Inhabited

/-- The position of a channel (Table 19.5). -/
structure DmaPosition where
  descriptor : Nat := 0
  i1 : Nat := 0
  i2 : Nat := 0
  i3 : Nat := 0
  done : Nat := 0
  faultKind : Nat := 0xFF
  faultSide : Nat := 0
  faultDva : Nat := 0
  deriving DecidableEq, Repr, Inhabited

/-- A DMA channel (R434 to R450). -/
structure Channel where
  state : ChannelState := .idle
  cls : Nat := 3
  weight : Nat := 1
  rateMbps : Nat := 0
  levelMode : Nat := 0
  watch : Nat := 0
  watchOff : Nat := 0
  progressPail : Nat := 0
  progressOff : Nat := 0
  startMark : Nat := 0
  stopMark : Nat := 0
  window : Nat := 0
  progress : Nat := 0
  sheaves : List Sheaf := []
  nextSheaf : Nat := 1
  pos : DmaPosition := {}
  tokens : Nat := 65536
  tokensDst : Nat := 65536
  tokensAt : Nat := 0
  credit : Nat := 0
  busy : Bool := false
  wroteHost : Bool := false
  overwritten : List (Nat × Byte) := []
  deriving DecidableEq, Repr, Inhabited

/-- The DMA engine: 64 channels, 8 movers with the channel each serves, and the round-robin position of each
class. -/
structure Dma where
  channels : List Channel := List.replicate 64 {}
  movers : List (Option Nat) := List.replicate 8 none
  turn : List Nat := List.replicate 4 0
  deriving DecidableEq, Repr, Inhabited

end Sys2Proof.Machine
end

