-- ==== Sys2Proof/Machine/Types/Media.lean ====
section
/-! DEFINITION. State of the magazine engine (chapter 20), of the NVMe controller (21) and of power-up, boot
and firmware update (24). A field's default is its value at reset. -/

namespace Sys2Proof.Machine

/-- A track of a recording (Tables 20.6 and 20.8). -/
structure Track where
  kind : Nat := 0
  tap : Nat := 0
  source : Nat := 0
  format : Nat := 0
  width : Nat := 0
  height : Nat := 0
  maxBytes : Nat := 0
  deriving DecidableEq, Repr, Inhabited

/-- A clip directory entry (Table 20.4). -/
structure Clip where
  clip : Nat := 1
  state : Nat := 1
  domain : Nat := 5
  endReason : Nat := 0
  startLba : Nat := 0
  endLba : Nat := 0
  records : Nat := 0
  firstFrame : Nat := 0
  startTime : FullTime := {}
  periodNs : Nat := 0
  flags : Nat := 0
  firstEpoch : Nat := 0
  tracks : List Track := []
  name : List Byte := []
  deriving DecidableEq, Repr, Inhabited

/-- A reel (Table 20.3, R455): its extents are (first magazine logical acre, acres). -/
structure Reel where
  uuid : Nat := 0
  name : List Byte := []
  blocks : Nat := 0
  extents : List (Nat × Nat) := []
  maxClips : Nat := 16
  clips : List Clip := []
  dataLba : Nat := 0
  nextLba : Nat := 0
  writeSeq : Nat := 0
  created : FullTime := {}
  domain : Nat := 5
  opened : Bool := false
  deriving DecidableEq, Repr, Inhabited

/-- A NAND block that was touched (R458, R461): acres programmed, acres valid, erase count, and whether it may not be used, because it was
retired or marked bad by the factory. -/
structure NandBlock where
  programmed : Nat := 0
  valid : Nat := 0
  erases : Nat := 0
  retired : Bool := false
  deriving DecidableEq, Repr, Inhabited

/-- The contents of a magazine pack (R452 to R460). `data` is the durable content by magazine logical byte;
`map` gives a logical acre's physical acre as bits [28:0] of its map entry: die + 512 × acre on the die, block-major (R458); blocks
are keyed by die × 2^20 + block. `journal` lists (logical acre, map entry, sequence) since the newest checkpoint, whose map is
`checkpointMap`, written in area `checkpointArea`; `journaledSeq` is the last sequence on a programmed journal page (R459). -/
structure Pack where
  uuid : Nat := 0
  formatted : Bool := false
  dies : List Nat := List.replicate 32 0
  acresPerBlock : Nat := 1
  blocksPerDie : Nat := 0
  rawBytes : Nat := 0
  good : Nat := 0
  exported : Nat := 0
  headerSeq : Nat := 0
  clean : Bool := true
  map : NMap Nat := []
  journal : List (Nat × Nat × Nat) := []
  journalSeq : Nat := 0
  checkpointSeq : Nat := 0
  checkpointMap : NMap Nat := []
  checkpointArea : Nat := 0
  journaledSeq : Nat := 0
  journalPages : Nat := 0
  blocks : NMap NandBlock := []
  free : Nat := 0
  retired : Nat := 0
  reels : NMap Reel := []
  data : Mem := []
  deriving DecidableEq, Repr, Inhabited

/-- What a die's parameter pages report (Table 20.1): NV-DDR3 and its highest rate in MT/s, the geometry, and times in µs. -/
structure DieReport where
  nvDdr3 : Bool := true
  rate : Nat := 1200
  pageBytes : Nat := 16384
  spareBytes : Nat := 2080
  planes : Nat := 4
  pagesPerBlock : Nat := 4
  dieBytes : Nat := 0
  programUs : Nat := 520
  readUs : Nat := 80
  suspendUs : Nat := 100
  deriving DecidableEq, Repr, Inhabited

/-- What mounting finds (R452, R453, R460): the report of every die, but for those (channel, die on channel) that report another; the
contents of a pack, where it is not the one last inserted as it then was; whether the map has to be rebuilt from acre metadata; and the
time that mounting took. -/
structure MountInfo where
  report : DieReport := {}
  differing : List (Nat × Nat × DieReport) := []
  pack : Option Pack := none
  scan : Bool := false
  mountMs : Nat := 0
  deriving DecidableEq, Repr, Inhabited

/-- An acre being written (R455, R456, R459): the logical acre, its whole new content, the blocks written since it was opened, its
stripe and physical acre once placed, and whether it and its journal entry are programmed. `rank` is its place in the service order of
R462 (0 records and the reel's own tables, 1 host, 2 churn), `notBefore` the first stripe it may go to (R463); a `gone` write is the
deallocation of its acre, which needs only its journal page. -/
structure AcreWrite where
  id : Nat := 0
  logical : Nat := 0
  bytes : Mem := []
  blocks : List Nat := []
  since : Nat := 0
  full : Bool := false
  stripe : Option Nat := none
  physical : Option Nat := none
  programmed : Bool := false
  journaled : Bool := false
  rank : Nat := 1
  gone : Bool := false
  notBefore : Nat := 0
  deriving DecidableEq, Repr, Inhabited

/-- An operation of a die (R462): the program of an acre write, or, with none, the erase of a block; its place in the service order and
how often it was suspended. -/
structure NandTask where
  write : Option Nat := none
  block : Nat := 0
  rank : Nat := 2
  suspensions : Nat := 0
  deriving DecidableEq, Repr, Inhabited

/-- A die at work (R462): the operation it serves, since when, the churn operation it suspended, and its time in ns, in all and in
churn. -/
structure NandDie where
  serving : Option NandTask := none
  since : Nat := 0
  suspended : Option NandTask := none
  busy : Nat := 0
  churn : Nat := 0
  deriving DecidableEq, Repr, Inhabited

/-- A source slot that a recorder holds: the source, the slot, its place in a pail, and the frame it is complete with. -/
structure HeldSlot where
  source : Nat := 0
  slot : Nat := 0
  frame : Nat := 0
  pail : Nat := 0
  base : Nat := 0
  deriving DecidableEq, Repr, Inhabited

/-- A record that is formed and not yet durable (R459, R465): the acre writes it waits for, and the slots it holds with
the acre writes that their bytes went to. -/
structure PendingRecord where
  index : Nat := 0
  acres : List Nat := []
  holds : List (HeldSlot × List Nat) := []
  deriving DecidableEq, Repr, Inhabited

/-- A recording (R464 to R467). `waiting` lists the complete slots no record has taken yet, `sources` the records of frames
delivered since, `stopAt` the first frame it does not record; `faultAt` and `zeroAt` are the blocks, by pail and offset, whose
read faulted once and again (R468). -/
structure Recording where
  reel : Nat := 0
  clip : Nat := 0
  tracks : List Track := []
  session : Nat := 0
  fromFrame : Option Nat := none
  stopAt : Option Nat := none
  stopCmd : Option PendingCmd := none
  ending : Bool := false
  endReason : Nat := 0
  endLba : Nat := 0
  formed : Nat := 0
  durable : Nat := 0
  pending : List PendingRecord := []
  waiting : List HeldSlot := []
  sources : List FrameRecord := []
  lastFrame : Nat := 0
  droppedSince : Nat := 0
  dropEvent : Option Nat := none
  full : Bool := false
  periodNs : Nat := 0
  lastDirectory : Nat := 0
  closing : List Nat := []
  faultAt : List (Nat × Nat) := []
  zeroAt : List (Nat × Nat) := []
  deriving DecidableEq, Repr, Inhabited

/-- The state of the magazine (Table 20.9). -/
inductive MagState where
  | absent | mounting | mounted | unsupported | ejecting
  deriving DecidableEq, Repr, Inhabited

/-- The magazine engine. `pack` is the content of the pack last inserted; `exposure` holds the mode of each reel UUID (R493), and
`attached` the modes by NSID as a host last saw them. `dies` are the dies at work, `erases` the blocks (die, block) that wait for their
erase (R461, R462); `churned` and `levelled` count the acres churn moved, and those that static wear levelling moved. `startWait` is a
request that starts a recording, whether a fail-over executes it again, and the host writes fetched before it that it waits for
(R486), by their order. -/
structure Magazine where
  state : MagState := .absent
  present : Bool := false
  powerOn : Bool := false
  powerAt : Nat := 0
  pack : Pack := {}
  writes : List AcreWrite := []
  stripe : Nat := 0
  stripeAcres : Nat := 0
  stripeSince : Nat := 0
  recordings : List Recording := []
  worn : Bool := false
  freeLow : Bool := false
  eject : Option PendingCmd := none
  format : Option PendingCmd := none
  sinceCheckpoint : Nat := 0
  exposure : NMap Nat := []
  attached : NMap Nat := []
  nextWrite : Nat := 1
  dies : NMap NandDie := []
  erases : List (Nat × Nat) := []
  churned : Nat := 0
  levelled : Nat := 0
  startWait : Option (Request × Bool × List Nat) := none
  deriving DecidableEq, Repr, Inhabited

/-- An I/O submission queue (R480, R482). -/
structure NvmeSq where
  cq : Nat := 1
  prio : Nat := 0
  size : Nat := 2
  deriving DecidableEq, Repr, Inhabited

/-- A completion the controller posted: queue, command, status type and code, DNR, Dword 0 and the data
returned. -/
structure NvmeCompletion where
  sqid : Nat := 0
  cid : Nat := 0
  sct : Nat := 0
  sc : Nat := 0
  dnr : Bool := false
  dw0 : Nat := 0
  data : List Byte := []
  deriving DecidableEq, Repr, Inhabited

/-- A host write that is staged (R487), with the acre writes it waits for; one that is not acknowledged and whose queue went is an orphan,
which completes no more (R494). -/
structure StagedWrite where
  nsid : Nat := 0
  sqid : Nat := 0
  cid : Nat := 0
  slba : Nat := 0
  blocks : Nat := 0
  acked : Bool := false
  orphan : Bool := false
  order : Nat := 0
  acres : List Nat := []
  deriving DecidableEq, Repr, Inhabited

/-- A Flush that waits for the writes acknowledged before it (R487, R490), named by their order. -/
structure WaitingFlush where
  sqid : Nat := 0
  cid : Nat := 0
  nsid : Nat := 0
  writes : List Nat := []
  deriving DecidableEq, Repr, Inhabited

/-- A deferred write error (Table 21.4). -/
structure DeferredError where
  seq : Nat := 1
  nsid : Nat := 0
  sqid : Nat := 0
  cid : Nat := 0
  slba : Nat := 0
  blocks : Nat := 0
  cause : Nat := 0
  reportedCmd : Bool := false
  reportedFlush : Bool := false
  deriving DecidableEq, Repr, Inhabited

/-- An admin command (Table 21.2), with the fields that it reads. -/
inductive NvmeAdmin where
  | createSq (qid size cqid prio : Nat)
  | createCq (qid size : Nat)
  | deleteSq (qid : Nat)
  | deleteCq (qid : Nat)
  | getLogPage (lid bytes : Nat) (rae : Bool)
  | identify (cns nsid : Nat)
  | abort (sqid target : Nat)
  | setFeatures (fid value : Nat)
  | getFeatures (fid : Nat)
  | asyncRequest
  | namespaceCreate (nsze ncap flbas : Nat)
  | namespaceDelete (nsid : Nat)
  | namespaceAttach (nsid : Nat) (on : Bool)
  | invalid
  deriving DecidableEq, Repr, Inhabited

/-- An I/O command (Table 21.2). -/
inductive NvmeIo where
  | read (nsid slba nlb : Nat)
  | write (nsid slba nlb : Nat) (data : List Byte) (fua : Bool)
  | flush (nsid : Nat)
  | zeroes (nsid slba nlb : Nat)
  | dataset (nsid : Nat) (ranges : List (Nat × Nat)) (deallocate : Bool)
  | invalid
  deriving DecidableEq, Repr, Inhabited

/-- Whose turn it is to be fetched (R482): the queue served last, how many commands it may still have in its burst, and what each of the
priorities high, medium and low may still have in this round. -/
structure NvmeTurn where
  last : Nat := 0
  burst : Nat := 0
  credit : List Nat := [0, 0, 0]
  deriving DecidableEq, Repr, Inhabited

/-- The NVMe controller (chapter 21). `completions` is what it posted, newest first; `errorLog` lists (queue and command, NSID, LBA),
newest first. `held` lists the admin commands that wait for the end of a fail-over pause, by command identifier (R481), `blocked` the I/O
commands, by queue and identifier, that wait behind a Write for which the staging buffer has no room (R487). -/
structure Nvme where
  cqs : NMap Nat := []
  sqs : NMap NvmeSq := []
  features : NMap Nat := [(1, 0x0F070103)]
  aers : List (Nat) := []
  aerPending : List (Nat × Nat × Nat) := []
  completions : List NvmeCompletion := []
  staged : List StagedWrite := []
  nextOrder : Nat := 1
  flushes : List WaitingFlush := []
  errors : List DeferredError := []
  errorsLost : Nat := 0
  nextErrorSeq : Nat := 1
  latched : List Nat := []
  unrecovered : List (Nat × Nat) := []
  unrecoveredLost : Nat := 0
  errorLog : List (Nat × Nat × Nat) := []
  errorCount : Nat := 0
  changed : List Nat := []
  held : List (Nat × NvmeAdmin) := []
  blocked : List (Nat × Nat × NvmeIo) := []
  turn : NvmeTurn := {}
  deriving DecidableEq, Repr, Inhabited

/-- An image as it stands in a slot or a buffer: the fields that Table 24.6 checks, with the outcome of each
cryptographic check as it would come out. -/
structure Image where
  headerOk : Bool := false
  rangeOk : Bool := false
  keyHash : Nat := 0
  signatureOk : Bool := false
  payloadOk : Bool := false
  version : Nat := 0
  rollback : Nat := 0
  deriving DecidableEq, Repr, Inhabited

/-- An image slot of the boot flash (Table 24.3): its content, whether it is bootable, its last result and
whether its last FW_UPDATE_END gave result 0 (R549). -/
structure ImageSlot where
  image : Image := {}
  bootable : Bool := false
  result : Nat := 1
  ended : Bool := false
  bytes : List (Nat × List Byte) := []
  deriving DecidableEq, Repr, Inhabited

/-- A copy of the boot directory (Table 24.4). -/
structure BootDirectory where
  seq : Nat := 1
  preferred : Nat := 0
  trial : Bool := false
  trialCount : Nat := 0
  deriving DecidableEq, Repr, Inhabited

/-- A firmware update in progress (R548, R549). -/
structure FwUpdate where
  slot : Nat := 0
  length : Nat := 0
  erasing : Option PendingCmd := none
  checking : Option PendingCmd := none
  deriving DecidableEq, Repr, Inhabited

/-- What the boot ROM shows over the SPI target (Table 24.8). -/
structure RomSpi where
  state : Nat := 0
  result : Nat := 0
  received : Nat := 0
  written : List (Nat × List Byte) := []
  deriving DecidableEq, Repr, Inhabited

/-- Power, reset, boot and firmware (chapter 24), the fuse bank and the regulator (25). `directory` is the copy in force, `otherDirectory` the
other one, which holds what was in force before (R539). -/
structure Boot where
  vaon : Bool := true
  resetHeld : Bool := true
  mode : Nat := 0
  ready : Bool := false
  resetKind : Nat := 0
  resetAt : Nat := 0
  running : Nat := 0
  runningImage : Image := {}
  directory : BootDirectory := {}
  otherDirectory : BootDirectory := { seq := 0 }
  slots : List ImageSlot :=
    [{ image := { headerOk := true, rangeOk := true, signatureOk := true, payloadOk := true }
       bootable := true, result := 0 }, {}]
  fuses : FuseBank := {}
  fuseRollback : Nat := 0
  fuseKeyOk : Bool := true
  serial : Nat := 0
  macBase : Nat := 0
  disabledChannels : List Nat := []
  bootMs : Nat := 0
  update : Option FwUpdate := none
  rom : RomSpi := {}
  pendingReset : Option (Nat × Nat) := none
  failedBoot : Option (Nat × Nat × Nat) := none
  vregUv : Bool := false
  vregEvent : Option Nat := none
  iout : Nat := 0
  deriving DecidableEq, Repr, Inhabited

end Sys2Proof.Machine
end

