-- ==== Sys2Proof/Syntax.lean ====
section
/-! DEFINITION. The commands of the block: one constructor per row of the opcode table, in the table's order.
A Kievo command carries its packet; every other row carries the instant `time` (ns since VAON came up) and what the
outside world hands over with it. -/

namespace Sys2Proof

/-- A command of the block. -/
inductive Instr where
  /-- Opens a session bound to the arriving endpoint with the requested lease and expiry policy. (R66) -/
  | openSession (p : Packet)
  /-- Closes the session, disposes of its objects by expiry policy and leaves a tombstone. (R69) -/
  | closeSession (p : Packet)
  /-- Renews the session lease and returns the lease time remaining. (R68) -/
  | keepalive (p : Packet)
  /-- Claims all listed objects or none, with FORCE honoured only for the device owner. (R74) -/
  | objClaim (p : Packet)
  /-- Releases all listed owned objects or none, leaving them unowned and running. (R572) -/
  | objRelease (p : Packet)
  /-- Returns the owning session of each listed object. (R418) -/
  | objQueryOwner (p : Packet)
  /-- Returns entries describing open sessions from a first index. (R572) -/
  | sessionList (p : Packet)
  /-- Returns part, revision, firmware version, complex states and open session count. (R572) -/
  | queryDevice (p : Packet)
  /-- Opens a transaction owned by the session and returns its txn_id. (R88) -/
  | txnBegin (p : Packet)
  /-- Checks the staged set, assigns an epoch and effective frame and arms the parts. (R99) -/
  | txnCommit (p : Packet)
  /-- Aborts an open transaction and releases its staging. (R110) -/
  | txnAbort (p : Packet)
  /-- Returns the state, staging use, epoch and effective frame of a transaction. (R111) -/
  | txnStatus (p : Packet)
  /-- Returns the commit record of a retained settings epoch. (R109) -/
  | txnEpochQuery (p : Packet)
  /-- Returns a stream's admission state, periods, latest frame and per-resource demand. (R47) -/
  | streamQuery (p : Packet)
  /-- Tests the stream's load against every resource, selects a VCORE step and admits or denies it. (R44) -/
  | streamAdmit (p : Packet)
  /-- Releases a stream, returning capacity once its last job completes. (R47) -/
  | streamRelease (p : Packet)
  /-- Returns the admission step, lowest passing step and demand and capacity per resource. (R47) -/
  | admitQuery (p : Packet)
  /-- Returns step, READ_VOUT, hottest Tj, guarantee flag and pacer ratios. (R46) -/
  | paceQuery (p : Packet)
  /-- Sets a stopped furrow's mode, depth, geometry, CFA, time domain and raw pail. (R149) -/
  | furrowConfig (p : Packet)
  /-- Loads an active or fallback lane map after validating its coverage. (R150) -/
  | furrowLaneMap (p : Packet)
  /-- Sets preamble, sync-code patterns and masks and the training word. (R151) -/
  | furrowSyncCodes (p : Packet)
  /-- Starts lane training or an immediate re-centring pass. (R124) -/
  | furrowTrain (p : Packet)
  /-- Gangs or ungangs two stopped adjacent furrows. (R127) -/
  | furrowGang (p : Packet)
  /-- Returns furrow state, lane locks, eyes, last frame record and edge FIFO. (R153) -/
  | furrowStatus (p : Packet)
  /-- Loads bus settings, register group descriptors and fallbacks and empties the register cache. (R152) -/
  | sensorProfileLoad (p : Packet)
  /-- Writes sensor registers of one group, staged in lockstep or as a one-command transaction. (R153) -/
  | sensorRegWrite (p : Packet)
  /-- Reads sensor registers when no lockstep write is due and caches the value. (R143) -/
  | sensorRegRead (p : Packet)
  /-- Sets a stopped furrow's MCLK frequency and source. (R146) -/
  | sensorMclkSet (p : Packet)
  /-- Sets the function, polarity and timing of a sync or reset pin. (R573) -/
  | syncPinSet (p : Packet)
  /-- Starts capture of an admitted stream at the next clean SOF. (R153) -/
  | furrowStart (p : Packet)
  /-- Stops a furrow after the current frame or at once, dropping the frame in progress. (R154) -/
  | furrowStop (p : Packet)
  /-- Sets black and white levels per channel of a plane. (R180) -/
  | rawBlackSet (p : Packet)
  /-- Loads a defect table into a slot or selects a slot and dynamic detection. (R175) -/
  | rawDefectLoad (p : Packet)
  /-- Loads a fixed-pattern table into a slot or selects a slot. (R175) -/
  | rawFpnLoad (p : Packet)
  /-- Loads noise coefficients into a model slot or selects the active slot. (R160) -/
  | rawNoiseModelSet (p : Packet)
  /-- Sets spatial noise reduction enable, radius, strength and weights. (R163) -/
  | rawSnrSet (p : Packet)
  /-- Sets temporal noise reduction parameters, admitting the demand when it enables. (R177) -/
  | rawTnrSet (p : Packet)
  /-- Sets dual-gain merge plane, ratio and knees. (R171) -/
  | rawDualGainSet (p : Packet)
  /-- Loads a shading grid or selects slots and blend. (R172) -/
  | rawShadingLoad (p : Packet)
  /-- Sets white-balance gains per channel. (R172) -/
  | rawWbSet (p : Packet)
  /-- Returns the raw-stage set bound to the latest frame and raw-stage counts. (R181) -/
  | rawQuery (p : Packet)
  /-- Sets demosaic method and highlight handling of a sensor stream. (R203) -/
  | demosaicSet (p : Packet)
  /-- Sets working space and playback input description. (R205) -/
  | colourSpaceSet (p : Packet)
  /-- Sets the camera, look or output matrix. (R207) -/
  | matrixSet (p : Packet)
  /-- Sets a branch's ASC CDL parameters and space. (R208) -/
  | cdlSet (p : Packet)
  /-- Loads a 1D LUT slot or selects it for a branch stage. (R212) -/
  | lut1dLoad (p : Packet)
  /-- Loads a 3D LUT slot or selects it for a branch. (R213) -/
  | lut3dLoad (p : Packet)
  /-- Sets a branch's transfer function and scale. (R210) -/
  | transferSet (p : Packet)
  /-- Sets a branch's class, format, crop, output size and ring. (R223) -/
  | branchConfig (p : Packet)
  /-- Sets scaler kernels and loads custom coefficients. (R218) -/
  | branchScalerSet (p : Packet)
  /-- Enables or disables a branch, admitting the demand when it enables. (R216) -/
  | branchEnable (p : Packet)
  /-- Returns a branch's settings, last complete frame and counts. (R226) -/
  | branchQuery (p : Packet)
  /-- Sets statistics enable, class, mode, point and ring. (R236) -/
  | statsConfig (p : Packet)
  /-- Sets the statistics zone window. (R234) -/
  | statsZonesSet (p : Packet)
  /-- Sets a raw tap's format, class, crop and ring. (R244) -/
  | tapConfig (p : Packet)
  /-- Enables or disables a raw tap as an admission request. (R242) -/
  | tapEnable (p : Packet)
  /-- Returns statistics state, last complete frame and late and skip counts. (R246) -/
  | statsQuery (p : Packet)
  /-- Enables or disables a stream's motion field and sets channel weights. (R197) -/
  | motionConfig (p : Packet)
  /-- Sets motion search range, refinement, lambda and predictors. (R197) -/
  | motionSearchSet (p : Packet)
  /-- Enables or disables export of motion fields to a ring. (R197) -/
  | motionExport (p : Packet)
  /-- Returns the latest complete field header and band counts. (R197) -/
  | motionQuery (p : Packet)
  /-- Opens an encoder session of the given codec. (R290) -/
  | encOpen (p : Packet)
  /-- Closes an encoder session after the frame in progress or at once. (R290) -/
  | encClose (p : Packet)
  /-- Sets an HEVC or AVC session's profile, source, input stage and structure. (R273) -/
  | encConfig (p : Packet)
  /-- Sets an HEVC or AVC session's rate control. (R281) -/
  | encRcSet (p : Packet)
  /-- Forces the next coded frame to be an IDR. (R275) -/
  | encForceIrap (p : Packet)
  /-- Binds or unbinds a reel or sender as consumer of an encoder session. (R290) -/
  | encBind (p : Packet)
  /-- Returns encoder session state and counts. (R290) -/
  | encQuery (p : Packet)
  /-- Sets a JPEG XS session's source, profile, slicing, budget and ring. (R267) -/
  | encXsConfig (p : Packet)
  /-- Opens a decoder session as an admission request. (R309) -/
  | decOpen (p : Packet)
  /-- Closes a decoder session after waiting units or at once. (R309) -/
  | decClose (p : Packet)
  /-- Copies one access unit or codestream into the decoder input queue. (R297) -/
  | decSubmit (p : Packet)
  /-- Drains or discards a decoder's waiting units and DPB. (R309) -/
  | decFlush (p : Packet)
  /-- Binds a decoder to a playback stream, reel or encoder session. (R307) -/
  | decBind (p : Packet)
  /-- Returns decoder state and counts. (R309) -/
  | decQuery (p : Packet)
  /-- Sets a stopped raster's timing, rate, domain and grid reference. (R311) -/
  | rasterTimingSet (p : Packet)
  /-- Sets a raster plane's mode, source, alpha, crop and position. (R314) -/
  | rasterPlaneSet (p : Packet)
  /-- Binds or unbinds an SDI, HDMI or DSI output to a stopped raster. (R323) -/
  | rasterOutputSet (p : Packet)
  /-- Joins or dissolves an aligned raster group. (R330) -/
  | rasterGroupSet (p : Packet)
  /-- Sets a stopped raster's commit cut. (R322) -/
  | rasterCommitCutSet (p : Packet)
  /-- Enables or disables read-back CRC checking. (R326) -/
  | rasterCrcSet (p : Packet)
  /-- Enables reduced refresh on a DSI command-mode raster. (R328) -/
  | rasterRefreshSet (p : Packet)
  /-- Sets a raster's underrun fill mode. (R329) -/
  | rasterUnderrunSet (p : Packet)
  /-- Configures an SDI input's ring, domain and hold frames. (R331) -/
  | sdiRxConfig (p : Packet)
  /-- Returns raster state, counts and last CRCs. (R333) -/
  | rasterQuery (p : Packet)
  /-- Admits a raster's planes and starts it at a grid point at least 1 ms ahead. (R333) -/
  | rasterStart (p : Packet)
  /-- Stops a raster after the current frame or at once and releases held slots. (R333) -/
  | rasterStop (p : Packet)
  /-- Enables, disables or sets a time domain's rate, steering and time. (R340) -/
  | tdConfig (p : Packet)
  /-- Returns a time domain's state, time, errors, PTP data and counts. (R355) -/
  | tdQuery (p : Packet)
  /-- Configures the PTP instance of a domain. (R346) -/
  | ptpConfig (p : Packet)
  /-- Configures TD4's genlock inputs and rate. (R348) -/
  | genlockConfig (p : Packet)
  /-- Configures LTC input or output. (R350) -/
  | ltcConfig (p : Packet)
  /-- Queues or cancels a timed launch entry. (R353) -/
  | launchSchedule (p : Packet)
  /-- Accepts or keeps a pending reference rate change on TD4. (R344) -/
  | tdRateCommit (p : Packet)
  /-- Enables anchors of a domain and their PPS output. (R351) -/
  | timeAnchorConfig (p : Packet)
  /-- Configures an Ethernet port's speed, FEC, MTU, VLAN and addresses. (R359) -/
  | macConfig (p : Packet)
  /-- Creates an ST 2110 sender flow. (R363) -/
  | flowSendCreate (p : Packet)
  /-- Creates an ST 2110 receiver flow. (R369) -/
  | flowRecvCreate (p : Packet)
  /-- Deletes a flow, stopping it first. (R362) -/
  | flowDelete (p : Packet)
  /-- Names a flow's source or consumer. (R363) -/
  | flowBind (p : Packet)
  /-- Admits and starts a flow after the wire-rate check. (R362) -/
  | flowStart (p : Packet)
  /-- Stops a flow after the frame or at once. (R367) -/
  | flowStop (p : Packet)
  /-- Returns a flow's state, extended sequence and counts. (R370) -/
  | flowQuery (p : Packet)
  /-- Selects ports, UDP port and source filter of the Kievo UDP transport. (R360) -/
  | udpControlSet (p : Packet)
  /-- Configures a serial audio port's direction, format, clock and source. (R374) -/
  | sapConfig (p : Packet)
  /-- Maps port slots to channels. (R378) -/
  | sapSlotMap (p : Packet)
  /-- Joins or dissolves a frame-clock group of ports. (R384) -/
  | sapGroupSet (p : Packet)
  /-- Configures a sample clock generator and its MCLK. (R380) -/
  | sapClockSet (p : Packet)
  /-- Enables a port's ASRC with bandwidth and output rate. (R382) -/
  | asrcConfig (p : Packet)
  /-- Embeds port channels into an SDI transmitter link. (R387) -/
  | audioEmbedSet (p : Packet)
  /-- Restarts a port after an xrun. (R386) -/
  | sapRestart (p : Packet)
  /-- Returns port state, measured clock, sample index and counts. (R381) -/
  | sapQuery (p : Packet)
  /-- Allocates a zeroed HBM pail and returns its handle and DVA. (R423) -/
  | pailAlloc (p : Packet)
  /-- Maps host memory from a page list as a host pail. (R424) -/
  | pailImportHost (p : Packet)
  /-- Retires a pail's handle and frees it or lets it wither. (R427) -/
  | pailFree (p : Packet)
  /-- Returns a pail's or the device's pail state. (R430) -/
  | pailQuery (p : Packet)
  /-- Translates an offset of a pail to its physical or bus address. (R422) -/
  | pailMap (p : Packet)
  /-- Sets a DMA channel's class, weight, rate cap and level mode. (R436) -/
  | dmaChannelConfig (p : Packet)
  /-- Copies, validates and queues a sheaf of descriptors on a channel. (R437) -/
  | dmaSheafSubmit (p : Packet)
  /-- Pauses a channel exactly at a burst boundary. (R446) -/
  | dmaPause (p : Packet)
  /-- Resumes a paused or stopped channel in the chosen mode. (R448) -/
  | dmaResume (p : Packet)
  /-- Stops a channel and ends its running or every sheaf. (R449) -/
  | dmaAbort (p : Packet)
  /-- Returns a channel's state, position and counts. (R450) -/
  | dmaQuery (p : Packet)
  /-- Returns magazine state, fit-out, capacity and wear. (R452) -/
  | magQuery (p : Packet)
  /-- Formats the magazine, setting system area and exported capacity. (R458) -/
  | magFormat (p : Packet)
  /-- Stops recordings, makes records durable, checkpoints and powers the magazine down. (R469) -/
  | magEject (p : Packet)
  /-- Creates a reel namespace with its superblock and directory. (R471) -/
  | reelCreate (p : Packet)
  /-- Deletes a reel and deallocates its acres. (R477) -/
  | reelDelete (p : Packet)
  /-- Admits and starts a recording of tracks into a new clip. (R464) -/
  | reelRecordStart (p : Packet)
  /-- Stops a recording after the current record or at once. (R477) -/
  | reelRecordStop (p : Packet)
  /-- Returns a clip directory entry and durable record count. (R477) -/
  | clipQuery (p : Packet)
  /-- Sets a reel's NVMe exposure mode. (R495) -/
  | reelExpose (p : Packet)
  /-- Returns complex, yoke, fail-over and drill-loss status. (R516) -/
  | faultQuery (p : Packet)
  /-- Forces a fail-over to a ready standby complex. (R516) -/
  | failoverForce (p : Packet)
  /-- Returns yoke lane states, heartbeat age and sticky cause. (R503) -/
  | yokeStatus (p : Packet)
  /-- Returns frame memory temperatures, migration state and every rank's state. (R413) -/
  | rankQuery (p : Packet)
  /-- Retires a rank or sets its corrected-error threshold. (R414) -/
  | rankRetire (p : Packet)
  /-- Returns working, admitted and lost drills per field. (R516) -/
  | drillQuery (p : Packet)
  /-- Reads records of the critical fault log. (R514) -/
  | faultLogRead (p : Packet)
  /-- Sets the event ring filter and coalescing. (R533) -/
  | eventRingSet (p : Packet)
  /-- Sets the session's event filter and INT0 holding. (R531) -/
  | eventFilterSet (p : Packet)
  /-- Returns event records from the session's cursor. (R530) -/
  | eventRead (p : Packet)
  /-- Returns telemetry samples. (R523) -/
  | telemetryRead (p : Packet)
  /-- Returns a span of an object's counters. (R526) -/
  | counterRead (p : Packet)
  /-- Returns counters and clears saturating and threshold counters in one step. (R525) -/
  | counterReadClear (p : Packet)
  /-- Returns each gleaner task's state, share and progress. (R522) -/
  | gleanQuery (p : Packet)
  /-- Returns running slot, versions, rollback state and slot states. (R549) -/
  | fwInfo (p : Packet)
  /-- Marks the non-running slot unbootable and erases it. (R548) -/
  | fwUpdateBegin (p : Packet)
  /-- Writes image data into the slot being updated. (R548) -/
  | fwUpdateData (p : Packet)
  /-- Checks the updated slot and marks it bootable if valid. (R548) -/
  | fwUpdateEnd (p : Packet)
  /-- Prefers the updated slot under TRIAL and starts a warm reset. (R548) -/
  | fwActivate (p : Packet)
  /-- Starts a warm or cold reset after putting the magazine in order. (R547) -/
  | deviceReset (p : Packet)
  /-- Clears TRIAL and blows rollback fuses up to the running image's index. (R550) -/
  | rollbackCommit (p : Packet)
  /-- SPI target accepts a packet into its input or discards it with OVERRUN. (R83) -/
  | writePacket (time : Nat) (bytes : List Byte)
  /-- SPI target clocks out the oldest waiting reply. (R82) -/
  | readReply (time : Nat) (clocked : Nat)
  /-- SPI target returns its status byte and clears OVERRUN. (R82) -/
  | readStatus (time : Nat)
  /-- Boot ROM returns boot state, verify result and bytes received. (R545) -/
  | bootStatus (time : Nat)
  /-- Boot ROM stores host-supplied image bytes. (R545) -/
  | bootWrite (time : Nat) (offset : Nat) (data : List Byte)
  /-- Boot ROM verifies the host image and starts it or reports failure. (R545) -/
  | bootGo (time : Nat) (length : Nat) (image : ImageIn)
  /-- Write-one-to-clear of interrupt status bits. (R78) -/
  | intStatusWrite (time : Nat) (value : Nat)
  /-- Enables or disables a ring pair, resetting its pointers on re-enable. (R77) -/
  | ringCtrlWrite (time : Nat) (ring : Fin 16) (value : Nat)
  /-- Host frees reply slots, letting the device take further request slots. (R76) -/
  | cqHeadWrite (time : Nat) (ring : Fin 16) (value : Nat)
  /-- Host frees event ring entries, letting copying resume. (R529) -/
  | evHeadWrite (time : Nat) (value : Nat)
  /-- Write to a BAR0 register with no behaviour of its own. (R75) -/
  | bar0RegisterWrite (time : Nat) (offset value : Nat)
  /-- Creates an NVMe I/O submission queue. (R480) -/
  | createIoSq (time : Nat) (cid qid size cqid prio : Nat)
  /-- Creates an NVMe I/O completion queue. (R480) -/
  | createIoCq (time : Nat) (cid qid size : Nat)
  /-- Deletes an NVMe I/O submission queue. (R480) -/
  | deleteIoSq (time : Nat) (cid qid : Nat)
  /-- Deletes an NVMe I/O completion queue. (R480) -/
  | deleteIoCq (time : Nat) (cid qid : Nat)
  /-- Returns a supported log page, removing reported C0h entries with RAE clear. (R490) -/
  | getLogPage (time : Nat) (cid lid nsid bytes : Nat) (rae : Bool)
  /-- Returns the identify data of a supported CNS value. (R480) -/
  | identify (time : Nat) (cid cns nsid : Nat)
  /-- Aborts an NVMe command. (R480) -/
  | abort (time : Nat) (cid sqid target : Nat)
  /-- Sets a supported NVMe feature such as arbitration. (R482) -/
  | setFeatures (time : Nat) (cid fid value : Nat)
  /-- Returns a supported NVMe feature. (R480) -/
  | getFeatures (time : Nat) (cid fid : Nat)
  /-- Posts a request completed by a later asynchronous event. (R490) -/
  | asynchronousEventRequest (time : Nat) (cid : Nat)
  /-- Creates a reel as a namespace. (R484) -/
  | namespaceManagementCreate (time : Nat) (cid nsze ncap flbas : Nat)
  /-- Deletes a reel namespace as REEL_DELETE does. (R484) -/
  | namespaceManagementDelete (time : Nat) (cid nsid : Nat)
  /-- Sets a reel to exposure mode 2. (R485) -/
  | namespaceAttachmentAttach (time : Nat) (cid nsid : Nat)
  /-- Sets a reel to exposure mode 0. (R485) -/
  | namespaceAttachmentDetach (time : Nat) (cid nsid : Nat)
  /-- Reads blocks of a namespace, reporting deferred or unrecovered errors. (R486) -/
  | read (time : Nat) (sqid cid nsid slba nlb : Nat)
  /-- Stages a write and completes it, or on durability with FUA. (R487) -/
  | write (time : Nat) (sqid cid nsid slba nlb : Nat) (data : List Byte) (fua : Bool)
  /-- Completes once earlier acknowledged writes are durable and reports deferred errors. (R490) -/
  | flush (time : Nat) (sqid cid nsid : Nat)
  /-- Deallocates the covered blocks. (R487) -/
  | writeZeroes (time : Nat) (sqid cid nsid slba nlb : Nat)
  /-- Deallocates the listed ranges. (R487) -/
  | datasetManagement (time : Nat) (sqid cid nsid : Nat) (ranges : List (Nat × Nat)) (deallocate : Bool)
  /-- Completes an unsupported NVMe opcode with Invalid Command Opcode. (R480) -/
  | invalidCommandOpcode (time : Nat) (sqid cid : Nat)
  /-- CC.EN clear or FLR of function 1 deletes the I/O queues. (R494) -/
  | controllerDisable (time : Nat)
  /-- VAON reaching range starts a power-on reset and boot. (R547) -/
  | powerOnReset (time : Nat) (boot : BootInputs)
  /-- RESET_N rising runs the boot sequence to command-ready. (R543) -/
  | coldReset (time : Nat) (boot : BootInputs)
  /-- Warm reset reruns boot from step 2 keeping link, TD5 and sticky cause. (R547) -/
  | warmReset (time : Nat) (boot : BootInputs)
  /-- PERST_N, hot reset or FLR resets function 0's registers and rings. (R547) -/
  | pcieEndpointReset (time : Nat) (kind : Nat)
  /-- A session lease deadline passes and the session is closed under R69. (R68) -/
  | leaseExpiry (time : Nat) (index : Nat)
  /-- A closed session's tombstone ends after 60 s. (R70) -/
  | tombstoneExpiry (time : Nat) (index : Nat)
  /-- An open transaction idle for idle_ms is aborted. (R110) -/
  | txnIdleTimeout (time : Nat) (txn : Nat)
  /-- A CS_N assertion held over 10 ms is discarded with OVERRUN. (R83) -/
  | spiCsTimeout (time : Nat)
  /-- An incomplete datagram reassembly is discarded after 20 ms. (R80) -/
  | fragmentReassemblyTimeout (time : Nat)
  /-- Every 1 ms firmware reads the pacers and holds, releases or lowers VCORE steps. (R23) -/
  | pacerReading (time : Nat) (speeds : List Nat)
  /-- READ_VOUT and pacers confirm a raised step and the load is admitted. (R25) -/
  | vcoreConfirmed (time : Nat) (vout : Nat) (speeds : List Nat)
  /-- A step unconfirmed after 5 ms is withdrawn and admission refused. (R25) -/
  | vcoreConfirmTimeout (time : Nat)
  /-- Every 1 ms READ_VOUT and Tj are tested against the guarantee conditions. (R36) -/
  | readVoutPoll (time : Nat) (vout : Nat) (tj : Int) (stackTj : List Int)
  /-- All guarantee conditions have held for 100 ms. (R37) -/
  | guaranteeRestored (time : Nat)
  /-- A recognised SOF takes the next raw slot or drops the frame and applies bound settings. (R129) -/
  | furrowSof (time : Nat) (furrow : Fin 16) (lanes : List SyncIn)
  /-- A row's end code lands, its line stamp is taken and the row written to memory. (R131) -/
  | furrowRowEnd (time : Nat) (furrow : Fin 16) (row : RowIn)
  /-- A frame still in progress 1.5 × max_period after SOF ends short. (R133) -/
  | frameTimeout (time : Nat) (furrow : Fin 16)
  /-- Copied fill rows of a short frame land in memory. (R134) -/
  | fillLands (time : Nat) (furrow : Fin 16)
  /-- The frame record is written and the frame delivered to consumers. (R130) -/
  | frameDeliver (time : Nat) (furrow : Fin 16)
  /-- No SOF arrives within 1.5 × max_period. (R133) -/
  | furrowSilent (time : Nat) (furrow : Fin 16)
  /-- Training completes or its 200 ms limit passes. (R124) -/
  | furrowTrainDone (time : Nat) (furrow : Fin 16) (lanes : List TrainIn) (eyes : List Nat)
  /-- Controller starts a group's lockstep writes in its window. (R103) -/
  | sensorGroupWriteStart (time : Nat) (furrow : Fin 16) (group : Nat)
  /-- A sensor bus transfer ends in ACK, NAK or time-out and is confirmed or retried. (R105) -/
  | sensorBusTransferDone (time : Nat) (furrow : Fin 16) (group : Nat) (result : BusResult) (data : List Byte)
  /-- A group's write window closes with a write unconfirmed, failing the commit. (R105) -/
  | sensorWriteWindowClose (time : Nat) (furrow : Fin 16) (group : Nat)
  /-- An input edge on a sync pin is stamped into the FIFO. (R147) -/
  | syncPinEdge (time : Nat) (furrow : Fin 16) (pin : Fin 5) (rising : Bool)
  /-- A single pulse ends and the pin resumes its previous function. (R147) -/
  | syncPulseEnd (time : Nat) (furrow : Fin 16) (pin : Fin 5)
  /-- A tile-row whose rows and motion band are in memory is queued as jobs. (R28) -/
  | tileRowRelease (time : Nat) (stream : Fin 24) (row : Nat)
  /-- A motion band whose rows and previous band are ready is queued. (R186) -/
  | motionBandRelease (time : Nat) (stream : Fin 24) (row span : Nat)
  /-- The dispatcher releases a tile-row with unwritten bands forfeited. (R194) -/
  | motionWaitTimeout (time : Nat) (stream : Fin 24) (row : Nat)
  /-- A harrow writes a band, completing the field and seed copies. (R192) -/
  | harrowBandComplete (time : Nat) (harrow : Fin 16)
  /-- A drill finishes a job, releases spill jobs, folds statistics and takes its next job. (R31) -/
  | drillJobComplete (time : Nat) (drill : Fin 384)
  /-- A checker error or overdue job fences the drill and aborts its job. (R510) -/
  | drillJobTimeout (time : Nat) (drill : Fin 384) (cause : Nat)
  /-- A swath whose source rows are in the ring starts with its rate-control allocation. (R254) -/
  | swathRelease (time : Nat) (session : Fin 96) (swath : Nat)
  /-- A tine finishes a swath, segment or decode job and returns unspent bytes. (R259) -/
  | tineJobComplete (time : Nat) (tine : Fin 64) (result : TineResult)
  /-- A playback stream frame starts and takes the latest complete picture. (R307) -/
  | playbackSof (time : Nat) (stream : Fin 8)
  /-- A raster frame starts on its grid. (R312) -/
  | rasterFrameStart (time : Nat) (raster : Fin 8) (readBack : List (Nat × Nat))
  /-- The commit cut passes and late raster parts move one frame. (R321) -/
  | rasterCommitCut (time : Nat) (raster : Fin 8)
  /-- The raster copies its shadow set, takes plane slots and starts fetching. (R313) -/
  | rasterLatch (time : Nat) (raster : Fin 8)
  /-- A line not delivered by out − 150 µs underruns and the frame aborts. (R329) -/
  | rasterLineDeadline (time : Nat) (raster : Fin 8) (line : Nat) (plane : Fin 4) (cause : Nat)
  /-- A TE edge starts a DSI command-mode transfer. (R325) -/
  | dsiTeEdge (time : Nat) (port : Fin 2)
  /-- HDMI hot-plug changes and FRL training runs. (R325) -/
  | hdmiHotPlug (time : Nat) (port : Fin 2) (plugged trained : Bool) (rate lanes : Nat)
  /-- FRL training is retried every 1 s after failure. (R325) -/
  | hdmiFrlRetry (time : Nat) (port : Fin 2) (trained : Bool)
  /-- An SDI input writes a received frame to its ring. (R331) -/
  | sdiRxFrame (time : Nat) (input : Fin 4) (sav width height : Nat) (samples ancillary : List Byte)
  /-- An SDI input gains lock. (R332) -/
  | sdiRxLocked (time : Nat) (input : Fin 4) (payloadId : Nat)
  /-- An SDI input loses lock and writes nothing further. (R332) -/
  | sdiRxLost (time : Nat) (input : Fin 4)
  /-- A genlock, LTC or audio clock edge is checked and steers its domain. (R343) -/
  | referenceEdge (time : Nat) (input : RefIn)
  /-- No valid edge for 4 × P puts the domain in HOLDOVER. (R343) -/
  | referenceStopTimeout (time : Nat) (input : RefIn)
  /-- A PTP Sync message corrects the domain and judges lock. (R347) -/
  | ptpSyncReceive (time : Nat) (td : Fin 4) (portB : Bool) (offset : Int)
  /-- An Announce message feeds BMCA and UTC data. (R347) -/
  | ptpAnnounceReceive (time : Nat) (td : Fin 4) (portB : Bool) (grandmaster steps : Nat) (utcOffset : Int) (flags : Nat) (best : Bool)
  /-- No Sync within 4 intervals or announce timeout loses the port's reference. (R347) -/
  | ptpReferenceTimeout (time : Nat) (td : Fin 4) (portB : Bool)
  /-- An LTC word is checked, stamped and kept. (R349) -/
  | ltcWordReceive (time : Nat) (word : Nat) (good : Bool)
  /-- An LTC word starts at a grid point plus offset. (R350) -/
  | ltcWordSend (time : Nat)
  /-- A domain step takes effect at the next grid point. (R341) -/
  | tdStepApply (time : Nat) (td : Fin 6)
  /-- Each whole second of a domain raises an anchor. (R351) -/
  | timeAnchor (time : Nat) (td : Fin 6)
  /-- Holdover reaches 600 s and the bound ends. (R345) -/
  | holdoverExtended (time : Nat) (td : Fin 6)
  /-- A launch entry's time is reached and its action occurs. (R354) -/
  | launchFire (time : Nat) (id : Nat)
  /-- A sender packet leaves at its launch time. (R365) -/
  | mediaPacketLaunch (time : Nat) (flow : Fin 64)
  /-- A receiver extends sequence and timestamp and stores the packet. (R370) -/
  | rtpPacketReceive (time : Nat) (flow : Fin 64) (pathB : Bool) (seq stamp : Nat) (payload : List Byte) (fragment : Bool)
  /-- A frame or packet time closes and is completed with concealment. (R371) -/
  | flowClose (time : Nat) (flow : Fin 64)
  /-- A path with no packet for 100 ms is reported lost. (R371) -/
  | flowPathLost (time : Nat) (flow : Fin 64) (pathB : Bool)
  /-- A port's link goes up or down. (R372) -/
  | ethernetLinkChange (time : Nat) (port : Fin 5) (up : Bool) (speed : Nat)
  /-- A port's FS edge moves sample n, detects xruns and performs restarts. (R379) -/
  | sapFsEdge (time : Nat) (port : Fin 16) (xrun : Option Nat) (samples : List Int)
  /-- A 1 s window measures a port's FS frequency and updates ASRC state. (R381) -/
  | sapFsMeasure (time : Nat) (port : Fin 16) (milliHz : Nat)
  /-- A stack temperature report changes refresh rate and reloads delays. (R399) -/
  | stackTempReport (time : Nat) (stk : Fin 2) (temp : Int)
  /-- A rank's refresh interval expires and refresh is issued or owed. (R401) -/
  | refreshDue (time : Nat) (rank : Fin 192) (busy : Bool)
  /-- A corrected error is rewritten and counted. (R404) -/
  | correctedError (time : Nat) (rank : Fin 192)
  /-- An uncorrectable error poisons the line and takes the rank out of service. (R405) -/
  | uncorrectableError (time : Nat) (line : Nat) (requester cause : Nat)
  /-- One chunk is copied to the spare and its bitmap bit set. (R409) -/
  | migrationChunkCopy (time : Nat) (error : Bool)
  /-- A pail page in a withdrawn region is moved below it. (R412) -/
  | poolPageMove (time : Nat)
  /-- An engine access faults and its unit is aborted, retried or concealed. (R431) -/
  | engineAccessFault (time : Nat) (engine : EngineRef) (kind : AccessFault) (dva handle : Nat)
  /-- After the last reference drops, the pail is unmapped and freed. (R429) -/
  | pailUnmap (time : Nat) (handle : Nat)
  /-- A pending import finishes reading and checking its page list. (R424) -/
  | pailImportListRead (time : Nat) (handle : Nat) (failed : Bool) (host : List (Nat × Byte))
  /-- The gleaner zeroes 2 MiB of freed pages. (R429) -/
  | pailZeroingStep (time : Nat)
  /-- A mover completes a burst, posts progress and takes the next burst. (R434) -/
  | dmaBurstComplete (time : Nat) (mover : Fin 8) (fault : Option AccessFault) (host : List (Nat × Byte))
  /-- A waiting channel reads its watch word every 1 µs and becomes ready. (R444) -/
  | dmaLevelPoll (time : Nat) (channel : Fin 64) (host : List (Nat × Byte))
  /-- MAG_PRESENT_N low for 100 ms drives MAG_PWR_EN high. (R454) -/
  | magPowerEnable (time : Nat)
  /-- After 20 ms the dies are reset and the magazine mounted and recovered. (R460) -/
  | magazineMount (time : Nat) (info : Machine.MountInfo)
  /-- MAG_PRESENT_N high without eject ends operations and recordings. (R470) -/
  | magazineRemoval (time : Nat)
  /-- A NAND program, erase or read completes, makes data durable or handles failure. (R463) -/
  | nandOperationComplete (time : Nat) (op : NandOp)
  /-- A record is formed once every track slot of the frame is complete. (R465) -/
  | recordForm (time : Nat) (reel : Fin 16)
  /-- A partly filled acre or stripe is programmed after 10 ms. (R456) -/
  | partialAcreProgram (time : Nat)
  /-- Journal pages are programmed every 1 ms or when full. (R459) -/
  | journalPageProgram (time : Nat)
  /-- A map checkpoint is written after 64 GiB of programmed acres. (R459) -/
  | mapCheckpoint (time : Nat)
  /-- The recording clip's directory entry is rewritten every 1 s. (R476) -/
  | clipDirectoryUpdate (time : Nat) (reel : Fin 16)
  /-- The gleaner relocates an acre or erases a block. (R461) -/
  | churnStep (time : Nat) (die block : Nat)
  /-- The gleaner scrubs one 4 KiB step of frame memory. (R406) -/
  | scrubStep (time : Nat) (corrected uncorrectable : List Nat)
  /-- The gleaner re-centres a furrow's lanes in the headland. (R126) -/
  | laneRecentrePass (time : Nat) (furrow : Fin 16) (moves : List (Option Int))
  /-- A telemetry sample is taken every 100 ms. (R523) -/
  | telemetrySample (time : Nat) (readings : TelemetryIn)
  /-- A drill runs a known-answer tile. (R518) -/
  | drillPatrol (time : Nat) (drill : Fin 384) (good : Bool)
  /-- Every second the gleaner computes needs and shares. (R521) -/
  | gleanerEvaluate (time : Nat) (needs : List Nat)
  /-- Stored records passing the filter are copied to the event ring. (R529) -/
  | eventRingCopy (time : Nat)
  /-- A yoke trigger moves control to the standby complex and settles open groups. (R506) -/
  | failover (time : Nat) (trigger pauseUs : Nat)
  /-- A disagreeing yoke lane is fenced. (R503) -/
  | yokeLaneDisagree (time : Nat) (lane : Fin 3)
  /-- A sensor at 115 °C asserts THERMAL_TRIP and makes the device fatal. (R569) -/
  | thermalTrip (time : Nat) (sensor : Nat)
  /-- PMB_ALERT_N low makes firmware read STATUS_WORD. (R561) -/
  | pmbAlert (time : Nat) (statusWord vout iout : Nat)
  /-- The erase started by FW_UPDATE_BEGIN completes. (R548) -/
  | fwSlotEraseDone (time : Nat) (good : Bool)
  /-- A Kievo packet whose opcode is not in Table 3.13, or that is discarded at acceptance step 1, is refused with UNKNOWN_OPCODE or discarded and counted. (R85) -/
  | unknownOpcodePacket (op : Nat) (p : Packet)
  /-- The host advances a ring's SQ_TAIL doorbell, letting the device take request slots or stopping the ring with a pointer-out-of-range error. (R76) -/
  | sqTailWrite (time : Nat) (ring : Fin 16) (value : Nat)
  /-- RESET_N held low for 10 µs or more stops every engine and puts outputs high-impedance, starting a cold reset. (R536) -/
  | resetNLow (time : Nat) (duration : Nat)
  /-- VAON leaving its range asserts the module's power-on reset. (R536) -/
  | vaonOutOfRange (time : Nat)
  /-- The ready standby complex fails in service, becomes failed and raises STANDBY_FAILED. (R498) -/
  | standbyComplexFault (time : Nat) (reason : Nat)
  /-- A sync pin in function 3 begins a trigger pulse at each time t with t mod period = phase in its time domain. (R147) -/
  | syncTriggerPulse (time : Nat) (furrow : Fin 16) (pin : Fin 5)
  /-- The slot check started by a PENDING FW_UPDATE_END completes, marking the slot bootable or not and sending COMMAND_COMPLETE. (R548) -/
  | fwSlotCheckDone (time : Nat) (image : ImageIn)
  /-- A received ARP, NDP, ICMP echo, IGMPv3 or MLDv2 message is answered by the port. (R358) -/
  | arpNdpIcmpReceive (time : Nat) (port : Fin 5) (message : NeighbourIn)
  deriving DecidableEq, Repr

end Sys2Proof
end

