-- ==== Sys2Proof/Decode.lean ====
section
/-! DEFINITION. The opcode table gives no row bits: a command is not spelled by a word. -/

namespace Sys2Proof

/-- The command that a word spells by the table's bits: none, as no row of the table gives bits. -/
def decodeTableWord (_nbits _w : Nat) : Option Instr := none

end Sys2Proof
end

