-- ==== Sys2Proof/Config.lean ====
section
/-! DEFINITION. Values that the manual leaves open, as constants that no proof can see: each function is applied to the
counter `Dev.free`, which moves on with every use, or to the operands it depends on. -/

namespace Sys2Proof.Config

/-- The rate, in 0.001 ppb of TIME_REFCLK and unbounded as it comes, that a domain's loop settles on (R337, R341, R344,
R348: the manual gives the bandwidth and the limits, not the filter). -/
opaque freeRate : Nat → Int

/-- A time in ns of a domain that a reply gives where the manual states no way to know it. -/
opaque freeTime : Nat → Nat

/-- A channel's sample at the output of a sample-rate converter: the manual bounds the filter and does not give it (R383). -/
opaque freeSample : Nat → Nat → Int

/-- Whether a byte that one transfer both reads and writes is read before it is written (R442). -/
opaque freeOld : Nat → Nat → Bool

/-- The value, before any rounding, that demosaic gives for a colour channel that the CFA lacks, by the channel, the photosite and the frame. -/
opaque freeReal : Nat → Rat → Rat → Rat

/-- A number that the manual leaves open, by the count of such values and the item it stands for. -/
opaque freeNat : Nat → Nat → Nat

/-- What ITU-T H.265 (codec 1) or H.264 (codec 2) reads from the bytes of a NAL unit: the manual names the standards and does not print
their syntax (R293, R301). -/
opaque readNal : Nat → List Byte → Machine.NalIn

/-- The payload, by the same standards, of a NAL unit of a type that says some values (R271, R272). -/
opaque nalPayload : Nat → Nat → List Int → List Byte

/-- A sample that the standard of a codec interpolates at a fraction of a sample, by the codec, whether it is a chroma sample, the
fractions, and the 8 × 8 samples around it (R280, R303). -/
opaque subpel : Nat → Bool → Nat → Nat → List Nat → Nat

/-- λ(QP) × bits(MV) of the encoder's search, by the QP in 1/16 and the vector in ¼ pel (R280: neither is given). -/
opaque toll : Int → Int → Int → Rat

end Sys2Proof.Config
end

