-- ==== Sys2Proof/Machine/State.lean ====
section
/-! DEFINITION. The state of the block, its reset value, and the reasons a step can stop. -/

namespace Sys2Proof.Machine

/-- Everything of the module but the queue of commands. `now` is the instant of the last command, in ns since
VAON came up; `counters` holds the counters of every object (R524) by object × 256 + number, with a pail of
index i counted as object 0x10000 + i; `free` is the model's own, the number of free values taken so far. -/
structure Dev where
  now : Nat := 0
  ctl : Control := {}
  bar0 : Bar0 := {}
  spi : SpiTarget := {}
  udp : UdpTransport := {}
  events : Events := {}
  counters : NMap Nat := []
  gleaner : Gleaner := {}
  faults : Faults := {}
  fabric : Fabric := {}
  furrows : List Furrow := List.replicate 16 {}
  streams : List Stream := List.replicate 24 {}
  codecs : Codecs := {}
  display : Display := {}
  time : TimeUnit := {}
  net : Network := {}
  audio : Audio := {}
  hbm : Hbm := {}
  pails : Pails := {}
  dma : Dma := {}
  mag : Magazine := {}
  nvme : Nvme := {}
  boot : Boot := {}
  free : Nat := 0
  deriving DecidableEq, Repr, Inhabited

/-- The machine: the module, and the commands that wait, first in, first out. -/
structure State where
  dev : Dev := {}
  pending : List Instr := []
  deriving DecidableEq, Repr

/-- Reasons for which the machine stops with a fault. No command raises one: the manual gives every row of the
table an effect, and an error of the module is an event or a reply, not a stop. -/
inductive Fault where
  /-- Raised by nothing. Safe: no run ends here. -/
  | none
  deriving DecidableEq, Repr

/-- Reasons for which a command is refused. -/
inductive Refusal where
  /-- A command that has no meaning in the model yet. Safe: the machine stops. -/
  | notModelled (mnemonic : String)
  deriving DecidableEq, Repr

/-- The module right after power reaches VAON and before its boot ROM has run: every field at its default, which
is the reset value INVENTORY.md lists. -/
def State.reset : State := {}

end Sys2Proof.Machine
end

