-- ==== Sys2Proof/Machine/Ops.lean ====
section
/-! DEFINITION. The operations every chapter shares: updates of one part of the module, object identifiers (R7),
byte memory, CRC-32C (R52), domain time and stamps (R338), counters (R524, R525), events (R527, R528), the fault
log (R514), interrupts (R75, R78) and ownership keys (R72, R418). -/

namespace Sys2Proof.Machine

/-! ## Updates of one part -/

/-- Changes the control state. -/
def Dev.onCtl (f : Control → Control) (d : Dev) : Dev := { d with ctl := f d.ctl }
/-- Changes BAR0. -/
def Dev.onBar0 (f : Bar0 → Bar0) (d : Dev) : Dev := { d with bar0 := f d.bar0 }
/-- Changes a ring block. -/
def Dev.onRing (r : Nat) (f : Ring → Ring) (d : Dev) : Dev := d.onBar0 fun b => { b with rings := tabMod b.rings r f }
/-- Changes the SPI target. -/
def Dev.onSpi (f : SpiTarget → SpiTarget) (d : Dev) : Dev := { d with spi := f d.spi }
/-- Changes the UDP transport. -/
def Dev.onUdp (f : UdpTransport → UdpTransport) (d : Dev) : Dev := { d with udp := f d.udp }
/-- Changes the event store. -/
def Dev.onEvents (f : Events → Events) (d : Dev) : Dev := { d with events := f d.events }
/-- Changes the gleaner. -/
def Dev.onGleaner (f : Gleaner → Gleaner) (d : Dev) : Dev := { d with gleaner := f d.gleaner }
/-- Changes a gleaner task. -/
def Dev.onTask (t : Nat) (f : GleanTask → GleanTask) (d : Dev) : Dev :=
  d.onGleaner fun g => { g with tasks := tabMod g.tasks t f }
/-- Changes the complexes and the yoke. -/
def Dev.onFaults (f : Faults → Faults) (d : Dev) : Dev := { d with faults := f d.faults }
/-- Changes the fabric. -/
def Dev.onFabric (f : Fabric → Fabric) (d : Dev) : Dev := { d with fabric := f d.fabric }
/-- Changes a furrow. -/
def Dev.onFurrow (i : Nat) (f : Furrow → Furrow) (d : Dev) : Dev := { d with furrows := tabMod d.furrows i f }
/-- Changes a stream. -/
def Dev.onStream (n : Nat) (f : Stream → Stream) (d : Dev) : Dev := { d with streams := tabMod d.streams n f }
/-- Changes the settings of a stream. -/
def Dev.onSettings (n : Nat) (f : StreamSettings → StreamSettings) (d : Dev) : Dev :=
  d.onStream n fun st => { st with settings := f st.settings, inForce := true }
/-- Changes the codecs. -/
def Dev.onCodecs (f : Codecs → Codecs) (d : Dev) : Dev := { d with codecs := f d.codecs }
/-- Changes the display outputs. -/
def Dev.onDisplay (f : Display → Display) (d : Dev) : Dev := { d with display := f d.display }
/-- Changes a raster. -/
def Dev.onRaster (i : Nat) (f : Raster → Raster) (d : Dev) : Dev :=
  d.onDisplay fun p => { p with rasters := tabMod p.rasters i f }
/-- Changes the time unit. -/
def Dev.onTime (f : TimeUnit → TimeUnit) (d : Dev) : Dev := { d with time := f d.time }
/-- Changes a time domain. -/
def Dev.onDomain (i : Nat) (f : Domain → Domain) (d : Dev) : Dev :=
  d.onTime fun t => { t with domains := tabMod t.domains i f }
/-- Changes the network engine. -/
def Dev.onNet (f : Network → Network) (d : Dev) : Dev := { d with net := f d.net }
/-- Changes the audio unit. -/
def Dev.onAudio (f : Audio → Audio) (d : Dev) : Dev := { d with audio := f d.audio }
/-- Changes an audio port. -/
def Dev.onPort (i : Nat) (f : AudioPort → AudioPort) (d : Dev) : Dev :=
  d.onAudio fun a => { a with ports := tabMod a.ports i f }
/-- Changes the frame memory controller. -/
def Dev.onHbm (f : Hbm → Hbm) (d : Dev) : Dev := { d with hbm := f d.hbm }
/-- Changes pails and translation. -/
def Dev.onPails (f : Pails → Pails) (d : Dev) : Dev := { d with pails := f d.pails }
/-- Changes the DMA engine. -/
def Dev.onDma (f : Dma → Dma) (d : Dev) : Dev := { d with dma := f d.dma }
/-- Changes a DMA channel. -/
def Dev.onChannel (c : Nat) (f : Channel → Channel) (d : Dev) : Dev :=
  d.onDma fun m => { m with channels := tabMod m.channels c f }
/-- Changes the magazine engine. -/
def Dev.onMag (f : Magazine → Magazine) (d : Dev) : Dev := { d with mag := f d.mag }
/-- Changes the NVMe controller. -/
def Dev.onNvme (f : Nvme → Nvme) (d : Dev) : Dev := { d with nvme := f d.nvme }
/-- Changes power and boot. -/
def Dev.onBoot (f : Boot → Boot) (d : Dev) : Dev := { d with boot := f d.boot }

/-- Furrow `i`. -/
def Dev.furrow (d : Dev) (i : Nat) : Furrow := tabGet d.furrows i
/-- Stream `n`. -/
def Dev.stream (d : Dev) (n : Nat) : Stream := tabGet d.streams n
/-- Raster `i`. -/
def Dev.raster (d : Dev) (i : Nat) : Raster := tabGet d.display.rasters i
/-- Time domain `i`. -/
def Dev.domain (d : Dev) (i : Nat) : Domain := tabGet d.time.domains i
/-- Audio port `i`. -/
def Dev.port (d : Dev) (i : Nat) : AudioPort := tabGet d.audio.ports i
/-- DMA channel `c`. -/
def Dev.channel (d : Dev) (c : Nat) : Channel := tabGet d.dma.channels c
/-- Ring `r`. -/
def Dev.ring (d : Dev) (r : Nat) : Ring := tabGet d.bar0.rings r

/-- The module's clock moves on to the instant of a command; it never moves back. -/
def Dev.clock (t : Nat) (d : Dev) : Dev := { d with now := max d.now t }

/-- A command of a part that a thermal trip does not stop (R515): the clock moves on to its instant, and the module changes. -/
def always (time : Nat) (f : Dev → Dev) (s : State) : Host.Outcome State Fault Refusal :=
  .next { s with dev := f (s.dev.clock time) }

/-- Every engine stands still after a thermal trip (R515, Table 22.6 cause 4). -/
def unlessTripped (f : Dev → Dev) (d : Dev) : Dev := if d.faults.thermalTrip then d else f d

/-- A command of an engine: the clock moves on to its instant, and the module changes unless a thermal trip stopped it. -/
def after (time : Nat) (f : Dev → Dev) (s : State) : Host.Outcome State Fault Refusal := always time (unlessTripped f) s

/-! ## Objects -/

/-- The type of an object ID (R7). -/
def objType (o : Nat) : Nat := o / 4096

/-- The index of an object ID (R7). -/
def objIndex (o : Nat) : Nat := o % 4096

/-- The index lies in the range Table 0.2 gives for the type (R8). -/
def objOk (o : Nat) : Bool :=
  let i := objIndex o
  match objType o with
  | 0x0 => i == 0
  | 0x1 => i < 16
  | 0x2 => i < 24
  | 0x3 => i < 192
  | 0x4 => i < 8
  | 0x5 => i < 0x60
  | 0x6 => i < 0x20
  | 0x7 => i < 16
  | 0x8 => i < 0x80
  | 0x9 => true
  | 0xA => i < 0x40
  | 0xB => 1 ≤ i && i ≤ 0x100
  | 0xC => i < 0xC0
  | 0xD => i < 0x180 || (0x800 ≤ i && i ≤ 0x80B)
  | 0xE => i < 6
  | 0xF => i < 0x100
  | _ => false

/-- An object ID of type `t` with a legal index. -/
def objIs (t o : Nat) : Bool := objType o == t && objOk o

/-- "No session", and the owner of an unowned object (R63, Table 3.7). -/
abbrev noSession : Nat := 0xFFFF

/-- A session's object ID (R63). -/
def sessionObj (i : Nat) : Nat := 0xF000 + i

/-- The owner as replies and events show it. -/
def ownerObj : Option Nat → Nat
  | none => noSession
  | some i => sessionObj i

/-- The key under which a pail's owner, version and counters are kept; any other object's key is its ID. -/
def pailKey (index : Nat) : Nat := 0x10000 + index

/-- The object ID of a key (R416). -/
def keyObj (k : Nat) : Nat := if k ≥ 0x10000 then 0x9000 + k % 4096 else k

/-- The handle of a pail (R416). -/
def pailHandle (index gen : Nat) : Nat := gen * 2 ^ 24 + index

/-- The keys behind an object ID: for a type 0x9 ID every live pail whose index has those low 12 bits (R418). -/
def objKeys (d : Dev) (o : Nat) : List Nat :=
  if objType o == 0x9 then
    (d.pails.table.filter fun e => e.1 % 4096 == objIndex o && !e.2.withering).map fun e => pailKey e.1
  else [o]

/-- The owner of a key (R72). -/
def keyOwner (d : Dev) (k : Nat) : Option Nat := mapGet d.ctl.owners k

/-- The owner of an object; of a type 0x9 ID, that of the live pail of lowest index (R418). -/
def objOwner (d : Dev) (o : Nat) : Option Nat := (objKeys d o).head?.bind (keyOwner d)

/-- The change version of a key (R92). -/
def keyVersion (d : Dev) (k : Nat) : Nat := mapGetD d.ctl.versions k 0

/-- A key's change version moves on by one, modulo 2^32 (R92). -/
def bumpVersion (k : Nat) (d : Dev) : Dev :=
  if 0x1 ≤ objType (keyObj k) && objType (keyObj k) ≤ 0xB then
    d.onCtl fun c => { c with versions := mapSet c.versions k ((mapGetD c.versions k 0 + 1) % 2 ^ 32) }
  else d

/-! ## Memory -/

/-- The byte a memory lists at an address; an unlisted byte reads as 0. -/
def memGet : Mem → Nat → Byte
  | [], _ => 0
  | (k, v) :: m, a => if k = a then v else memGet m a

/-- The cells of a run of bytes, zeros left out. -/
def cellsOf : Nat → List Byte → Mem
  | _, [] => []
  | a, b :: bs => if b = 0 then cellsOf (a + 1) bs else (a, b) :: cellsOf (a + 1) bs

/-- A memory with a run of bytes written at an address. -/
def memWrite (m : Mem) (a : Nat) (bs : List Byte) : Mem :=
  m.filter (fun c => c.1 < a) ++ cellsOf a bs ++ m.filter (fun c => a + bs.length ≤ c.1)

/-- A memory with `n` bytes from an address on set to zero. -/
def memClear (m : Mem) (a n : Nat) : Mem :=
  m.filter (fun c => c.1 < a) ++ m.filter (fun c => a + n ≤ c.1)

/-- `n` bytes of a memory from an address on. -/
def memRead (m : Mem) (a n : Nat) : List Byte := (List.range n).map fun i => memGet m (a + i)

/-- One byte written. -/
def memSet (m : Mem) (a : Nat) (b : Byte) : Mem := memWrite m a [b]

/-- Addresses strictly rise and no cell holds zero. -/
def memSortedFrom : Nat → Mem → Bool
  | _, [] => true
  | lo, (a, b) :: m => decide (lo ≤ a) && decide (b ≠ 0) && memSortedFrom (a + 1) m

/-- The canonical form of a memory. -/
def Memory.wf (m : Mem) : Bool := memSortedFrom 0 m

/-- Bytes that the host wrote to its own memory, one after the other. -/
def hostWrites (cells : List (Nat × Byte)) (d : Dev) : Dev :=
  d.onPails fun p => { p with hostMem := cells.foldl (fun m c => memSet m c.1 c.2) p.hostMem }

/-! ## CRC-32C -/

/-- One bit of the reflected Castagnoli CRC (R52). -/
def crcBit (c : Nat) : Nat := if c % 2 = 1 then (c / 2) ^^^ 0x82F63B78 else c / 2

/-- One byte of the CRC. -/
def crcByte (c : Nat) (b : Byte) : Nat :=
  let x := c ^^^ b.toNat
  crcBit (crcBit (crcBit (crcBit (crcBit (crcBit (crcBit (crcBit x)))))))

/-- CRC-32C of a run of bytes (R52). -/
def crc32c (bs : List Byte) : Nat := (bs.foldl crcByte 0xFFFFFFFF) ^^^ 0xFFFFFFFF

/-! ## Time -/

/-- The part of a domain's slew that has been worked off after some time (R341). -/
def slewDone (dm : Domain) (elapsed : Nat) : Int :=
  let m : Int := min dm.slew.natAbs (elapsed * dm.maxSlewPpm / 1000000)
  if dm.slew < 0 then -m else m

/-- A domain's time in ns at an instant of the module's clock (R336, R337, R341). A disabled domain stands. -/
def Domain.timeAt (dm : Domain) (now : Nat) : Nat :=
  if dm.state = .disabled then dm.base
  else
    let e := now - dm.anchor
    (dm.base + e + (e : Int) * dm.rate / 1000000000000 + slewDone dm e).toNat

/-- The time of domain `td` now. -/
def domainNow (d : Dev) (td : Nat) : Nat := (d.domain td).timeAt d.now

/-- The short stamp of a time (R338). -/
def shortStamp (ns : Nat) : Nat := ns % 2 ^ 32

/-- The full time of a time (R338). -/
def fullTime (ns : Nat) : FullTime := { seconds := ns / 1000000000 % 2 ^ 48, ns := ns % 1000000000 }

/-- A full time as 12 bytes: 48-bit seconds in 6 bytes, 2 reserved, 32-bit ns (Table 4.7). -/
def fullTimeBytes (t : FullTime) : List Byte := le 6 t.seconds ++ le 2 0 ++ le 4 t.ns

/-! ## Counters -/

/-- The kinds of counters (R525). -/
inductive CounterKind where
  | wrap | saturate | threshold
  deriving DecidableEq, Repr

/-- Width and kind of a counter of an object type (Table 23.3). -/
def counterKind (type no : Nat) (field : Bool := false) : Option (Nat × CounterKind) :=
  match type with
  | 0x0 => if no ≤ 3 then some (32, .saturate) else if no = 4 then some (64, .wrap)
    else if no ≤ 6 then some (48, .wrap) else if no = 8 then some (32, .threshold)
    else if no ≤ 10 then some (32, .saturate) else none
  | 0x1 => if no ≤ 9 then some (32, .saturate) else if no = 10 then some (48, .wrap) else none
  | 0x2 => if no ≤ 8 then some (32, .saturate) else if no ≤ 10 then some (48, .wrap) else none
  | 0x3 => if no ≤ 1 then some (32, .saturate) else none
  | 0x4 => if no ≤ 7 then some (32, .saturate) else if no = 8 then some (48, .wrap) else none
  | 0x5 => if no ≤ 5 then some (32, .saturate) else none
  | 0x6 => if no ≤ 7 then some (32, .saturate) else none
  | 0x7 => if no ≤ 4 then some (32, .saturate) else none
  | 0x8 => if no ≤ 7 then some (32, .saturate) else if no = 8 then some (48, .wrap) else none
  | 0x9 => if no ≤ 1 then some (32, .saturate) else none
  | 0xA => if no = 0 then some (48, .wrap) else if no = 1 then some (32, .saturate) else none
  | 0xB => if no ≤ 3 then some (32, .saturate) else if no ≤ 5 then some (48, .wrap) else none
  | 0xC => if no = 0 then some (16, .threshold) else if no ≤ 3 then some (16, .saturate) else none
  | 0xD =>
    if field then (if no = 0 then some (48, .wrap) else if no = 1 then some (32, .saturate) else none)
    else if no = 0 then some (48, .wrap) else none
  | 0xE => if no ≤ 4 then some (32, .saturate) else none
  | 0xF => if no = 0 then some (48, .wrap) else if no ≤ 2 then some (32, .saturate) else none
  | _ => none

/-- Width and kind of a counter of a key. -/
def keyCounter (k no : Nat) : Option (Nat × CounterKind) :=
  counterKind (objType (keyObj k)) no (objIndex (keyObj k) ≥ 0x800)

/-- Where a counter is kept. -/
def counterKey (k no : Nat) : Nat := k * 256 + no

/-- The value of a counter. -/
def counterOf (d : Dev) (k no : Nat) : Nat := mapGetD d.counters (counterKey k no) 0

/-- A counter set to a value. -/
def setCounter (k no v : Nat) (d : Dev) : Dev := { d with counters := mapSet d.counters (counterKey k no) v }

/-! ## Events -/

/-- Bytes clocked out on the SPI target after the command byte; what has no defined content reads 0xFF (R82). -/
def clockOut (bs : List Byte) (d : Dev) : Dev := d.onSpi fun s => { s with out := bs }

/-- A filter passes a record (R530, R533). -/
def EventFilter.passes (f : EventFilter) (r : EventRec) : Bool :=
  r.severity ≥ f.minSeverity && bit f.areaMask (r.code / 256)

/-- The oldest record held, if any. -/
def oldestEvent (e : Events) : Option EventRec := e.records.getLast?

/-- A record enters the device store (R527, R529): a full store drops its oldest record, which counts as lost
where the ring was still due to copy it. -/
def storeEvent (r : EventRec) (d : Dev) : Dev :=
  let e := d.events
  let full := e.records.length ≥ 65536
  let on := bits d.bar0.evSize.toNat 4 0 ≠ 0
  let lost := full && on && (match oldestEvent e with
    | some o => o.index ≥ e.copied && e.ringFilter.passes o
    | none => false)
  let d := d.onEvents fun e =>
    { e with next := e.next + 1, records := ({ r with index := e.next } :: e.records).take 65536,
             copied := if on then e.copied else e.next + 1 }
  if lost then setCounter 0 4 ((counterOf d 0 4 + 1) % 2 ^ 64) d else d

/-- A record is posted: into the store, or during a fail-over pause into the yoke's FIFO of 4,096 records, past
which it counts as lost (R508). -/
def postEvent (r : EventRec) (d : Dev) : Dev :=
  if d.faults.paused then
    if d.faults.yokeFifo.length < 4096 then d.onFaults fun f => { f with yokeFifo := f.yokeFifo ++ [r] }
    else setCounter 0 4 ((counterOf d 0 4 + 1) % 2 ^ 64) d
  else storeEvent r d

/-- The identifier that a record adds where an object ID carries only part of it: a pail's handle (R9, R416). -/
def fullName (k : Nat) (d : Dev) : List Byte :=
  if k < 0x10000 then [] else le 4 (pailHandle (k - 0x10000) ((mapGet d.pails.table (k - 0x10000)).elim 0 (·.gen)))

/-- A counter counts `n` more (R525): it wraps, or it stops at its highest value and raises COUNTER_SATURATED. -/
def count (k no n : Nat) (d : Dev) : Dev :=
  match keyCounter k no with
  | none => d
  | some (w, .wrap) => setCounter k no ((counterOf d k no + n) % 2 ^ w) d
  | some (w, _) =>
    let old := counterOf d k no
    let new := min (old + n) (2 ^ w - 1)
    let d := setCounter k no new d
    if old < 2 ^ w - 1 ∧ new = 2 ^ w - 1 then
      postEvent { code := 0x1281, severity := 1, source := keyObj k, stamp := shortStamp (domainNow d 5)
                  detail := le 2 (keyObj k) ++ [byte no, byte w] ++ fullName k d } d
    else d

/-- The complex that is active: 0 CC-A, 1 CC-B. -/
def activeComplex (d : Dev) : Nat := boolNat d.faults.activeB

/-- A record of the critical fault log is written: at most one per code and source each second, the others
counted; 4,096 are kept (R514). -/
def logFault (r : EventRec) (d : Dev) : Dev :=
  let key := r.code * 65536 + r.source
  let recent : Bool := match mapGet d.faults.logTimes key with
    | some t => decide (d.now < t + 1000000000)
    | none => false
  if recent then
    count 0 10 1 d
  else
    let t := fullTime (domainNow d r.domain)
    d.onFaults fun f =>
      { f with logTimes := mapSet f.logTimes key d.now
               logNext := f.logNext % (2 ^ 32 - 1) + 1
               log := ({ seq := f.logNext, bootCount := f.bootCount, code := r.code, severity := r.severity
                         domain := r.domain, seconds := t.seconds, ns := t.ns, source := r.source
                         complex := activeComplex d, detail := r.detail } :: f.log).take 4096 }

/-- An event is raised with the short stamp of a given time of its domain (R527, R528): its record is posted, and
severities 3 and 4 are logged (R514). The detail is padded to 16 bytes. -/
def raiseAt (code sev src : Nat) (detail : List Byte) (ns td frame : Nat) (d : Dev) : Dev :=
  let r : EventRec :=
    { code, severity := sev, domain := td, source := src, stamp := shortStamp ns
      frame := frame % 2 ^ 32, detail := (detail ++ List.replicate 16 0).take 16 }
  let d := postEvent r d
  if sev ≥ 3 then logFault r d else d

/-- An event is raised with the stamp of the current instant. -/
def raise (code sev src : Nat) (detail : List Byte) (d : Dev) (td : Nat := 5) (frame : Nat := 0) : Dev :=
  raiseAt code sev src detail (domainNow d td) td frame d

/-! ## Interrupts -/

/-- A vector of MSI-X is sent or, while its entry masks it, made pending (R78). An entry's control word stands
at offset 12 and is masked after reset, as PCIe sets. -/
def sendMsix (v : Nat) (d : Dev) : Dev :=
  let ctrl := (mapGet d.bar0.msixTable (16 * v + 12)).getD 1
  d.onBar0 fun b =>
    if bit ctrl.toNat 0 then { b with msixPending := if v ∈ b.msixPending then b.msixPending else v :: b.msixPending }
    else { b with msixSent := mapSet b.msixSent v (mapGetD b.msixSent v 0 + 1) }

/-- An INT_STATUS bit becomes set (R75); its vector is sent when it was clear and is unmasked (R78). -/
def setInt (i : Nat) (d : Dev) : Dev :=
  let was := bit d.bar0.intStatus.toNat i
  let d := d.onBar0 fun b => { b with intStatus := b.intStatus ||| BitVec.ofNat 32 (2 ^ i) }
  if !was && !bit d.bar0.intMask.toNat i then sendMsix i d else d

/-- A bit of a register. -/
def setBit (r : Reg) (i : Nat) (v : Bool) : Reg :=
  if v then r ||| BitVec.ofNat 32 (2 ^ i) else r &&& ~~~ (BitVec.ofNat 32 (2 ^ i))

/-- A DEV_STATUS bit changes; INT_STATUS bit 17 follows (R75). -/
def setDevStatus (i : Nat) (v : Bool) (d : Dev) : Dev :=
  if bit d.bar0.devStatus.toNat i = v then d
  else setInt 17 (d.onBar0 fun b => { b with devStatus := setBit b.devStatus i v })

/-- FATAL holds (R515). -/
def fatal (d : Dev) : Bool := d.faults.fatalCause ≠ 0

/-! ## Owners -/

/-- The owner of a key changes, and OWNER_CHANGED is raised (R73, R74, Table 3.14). -/
def setOwner (k : Nat) (new : Option Nat) (d : Dev) : Dev :=
  let old := keyOwner d k
  if old = new then d
  else
    let d := d.onCtl fun c => { c with owners := match new with
      | some i => mapSet c.owners k i
      | none => mapDel c.owners k }
    let tail := match mapGet d.pails.table (k - 0x10000) with
      | some p => if k ≥ 0x10000 then le 4 (pailHandle (k - 0x10000) p.gen) else []
      | none => []
    raise 0x0083 1 (keyObj k) (le 2 (keyObj k) ++ le 2 (ownerObj old) ++ le 2 (ownerObj new) ++ tail) d

/-- A new object belongs to its creator; no event is raised (Table 3.14 does not name creation). -/
def giveOwner (k i : Nat) (d : Dev) : Dev := d.onCtl fun c => { c with owners := mapSet c.owners k i }

/-- An object that no longer exists has no owner. -/
def dropOwner (k : Nat) (d : Dev) : Dev := d.onCtl fun c => { c with owners := mapDel c.owners k }

/-- The object of a key can be owned from now on: a pail that withers cannot be claimed (R418, R427), and a codec session that
closes, a flow deleted and a reel deleted are gone. -/
def keyLive (d : Dev) (k : Nat) : Bool :=
  if k ≥ 0x10000 then match mapGet d.pails.table (k - 0x10000) with
    | some p => !p.withering
    | none => false
  else match objType k with
    | 0x5 => match mapGet d.codecs.encoders (objIndex k) with
      | some e => !e.closing
      | none => false
    | 0x6 => match mapGet d.codecs.decoders (objIndex k) with
      | some q => !q.closing
      | none => false
    | 0x8 => (mapGet d.net.flows (objIndex k)).isSome
    | 0xB => (mapGet d.mag.pack.reels (objIndex k)).isSome
    | _ => true

/-- An unowned object of a type 0x1 to 0xB is claimed by the sender of the first command that changes it (R73). -/
def claimFirst (i k : Nat) (d : Dev) : Dev :=
  let t := objType (keyObj k)
  if 1 ≤ t && t ≤ 0xB && keyLive d k && (keyOwner d k).isNone then setOwner k (some i) d else d

/-- A fresh free value's number; the counter moves on. -/
def takeFree (d : Dev) : Nat × Dev := (d.free, { d with free := d.free + 1 })

end Sys2Proof.Machine
end

