-- ==== Sys2Proof/Machine/Flags.lean ====
section
/-! DEFINITION. Status codes (Table 3.12), the answer a command forms (R53) and the flag bits of a reply (R51). -/

namespace Sys2Proof.Machine

/-- Status, detail and the parameters after them. -/
structure Rsp where
  status : Nat := 0
  detail : Nat := 0
  params : List Byte := []
  deriving DecidableEq, Repr, Inhabited

/-- OK with parameters. -/
def Rsp.ok (params : List Byte := []) : Rsp := { params }
/-- DONE_DEFERRED. -/
def Rsp.deferred : Rsp := { status := 0x0001 }
/-- PENDING with parameters. -/
def Rsp.pending (params : List Byte := []) : Rsp := { status := 0x0002, params }
/-- BAD_LENGTH with the length the fields imply (R570). -/
def Rsp.badLength (n : Nat) : Rsp := { status := 0x0102, detail := n }
/-- TXN_UNKNOWN (R107). -/
def Rsp.txnUnknown (n : Nat) : Rsp := { status := 0x0301, detail := n }
/-- PARAM_RANGE at an offset; bit 15 marks the header (R56). -/
def Rsp.range (off : Nat) : Rsp := { status := 0x0501, detail := off }
/-- PARAM_COMBINATION at the offset of the later field. -/
def Rsp.combination (off : Nat) : Rsp := { status := 0x0502, detail := off }
/-- NOT_OWNER with the owner's session object ID, 0xFFFF when unowned. -/
def Rsp.notOwner (o : Option Nat) : Rsp := { status := 0x0601, detail := ownerObj o }
/-- BUSY: 1 outstanding limit, 2 guarantee lapsed, 3 object busy. -/
def Rsp.busy (n : Nat) : Rsp := { status := 0x0602, detail := n }
/-- NO_RESOURCE of an object type. -/
def Rsp.noResource (type : Nat) (params : List Byte := []) : Rsp := { status := 0x0603, detail := type, params }

/-- The status is one of a command that was carried out or accepted. -/
def Rsp.good (r : Rsp) : Bool := r.status ≤ 0x0002

/-- A session's index and generation in a session ID (R63). -/
def sessionIndex (id : Nat) : Nat := id % 256

/-- The session ID of an index. -/
def sessionId (i gen : Nat) : Nat := gen * 256 + i

/-- Some record at or after the session's cursor passes its filter (R530). -/
def eventsPending (d : Dev) (i : Nat) : Bool :=
  match mapGet d.ctl.sessions i with
  | none => false
  | some s => d.events.records.any fun r => r.index ≥ s.cursor && s.filter.passes r

/-- The flags of a reply: bit 6 EVENTS_PENDING of its session, bit 7 CC_B (R51). -/
def replyFlags (d : Dev) (session : Nat) : Nat :=
  let mine := match mapGet d.ctl.sessions (sessionIndex session) with
    | some s => session ≠ noSession && sessionId (sessionIndex session) s.gen = session
    | none => false
  0x40 * boolNat (mine && eventsPending d (sessionIndex session)) + 0x80 * boolNat d.faults.activeB

/-- The header of a packet with the crc field given (Table 3.1). -/
def headerBytes (flags op session seq txn plen reserved crc : Nat) (magic : Nat := 0xB7E5) (version : Nat := 1) :
    List Byte :=
  le 2 magic ++ [byte version, byte flags] ++ le 2 op ++ le 2 session ++ le 4 seq ++ le 4 txn ++ le 2 plen
    ++ le 2 reserved ++ le 4 crc

/-- A reply as it is sent (R53, R52). -/
def Reply.bytes (r : Reply) : List Byte :=
  let body := le 2 r.status ++ le 2 r.detail ++ r.params
  let h := headerBytes r.flags (r.op % 2 ^ 15 + 2 ^ 15) r.session r.seq r.txn body.length 0
  h (crc32c (h 0 ++ body)) ++ body

/-- The parameters of a packet, exactly as many as its transport carried. -/
def packetBody (p : Packet) : List Byte := ((p.params ++ List.replicate (p.len - 24) 0).take (p.len - 24))

/-- The CRC-32C that a packet must carry (R52). -/
def packetCrc (op : Nat) (p : Packet) : Nat :=
  crc32c (headerBytes p.flags op p.session p.seq p.txn p.paramLength p.reserved 0 p.magic p.version ++ packetBody p)

/-- QUIET of a request's flags (R51). -/
def quiet (flags : Nat) : Bool := bit flags 0

/-- READ_STATUS of the SPI target: bit 0 REPLY_READY, 1 IN_BUSY, 2 EVENT_PENDING, 3 OVERRUN, 4 READY (Table 3.10). -/
def spiStatus (d : Dev) : Nat :=
  let busy := d.spi.replies.length ≥ 8 || d.faults.paused
  let ev := d.ctl.sessions.any fun e => e.2.endpoint = .spi && eventsPending d e.1
  boolNat (!d.spi.replies.isEmpty) + 2 * boolNat busy + 4 * boolNat ev + 8 * boolNat d.spi.overrun
    + 16 * boolNat (d.boot.ready && !fatal d)

/-- INT0_N is low: the session that holds it has pending events, or FATAL holds (R531). -/
def int0Low (d : Dev) : Bool := fatal d || (match d.events.int0Holder with
  | some i => eventsPending d i
  | none => false)

/-- INT1_N is low while REPLY_READY is 1 (R83). -/
def int1Low (d : Dev) : Bool := !d.spi.replies.isEmpty

end Sys2Proof.Machine
end

