-- ==== Sys2Proof/Machine/Operands.lean ====
section
/-! DEFINITION. How a command's parameters are read and checked: fields (R4, R6), fp32 and fp16 values, range
checks (Table 3.2 step 11), pail handles (R416, R426), and the description of a command that the acceptance
order works from. -/

namespace Sys2Proof.Machine

/-- A number in network byte order, most significant byte first. -/
def be (n v : Nat) : List Byte := (le n v).reverse

/-- The big-endian field of `n` bytes at an offset: addresses in network order, markers of a codestream. -/
def beAt (b : List Byte) (o n : Nat) : Nat := unle (slice b o n).reverse

/-- An unsigned byte of a parameter block. -/
def u8 (b : List Byte) (o : Nat) : Nat := fieldAt b o 1
/-- An unsigned 16-bit field. -/
def u16 (b : List Byte) (o : Nat) : Nat := fieldAt b o 2
/-- An unsigned 32-bit field. -/
def u32 (b : List Byte) (o : Nat) : Nat := fieldAt b o 4
/-- An unsigned 48-bit field. -/
def u48 (b : List Byte) (o : Nat) : Nat := fieldAt b o 6
/-- An unsigned 64-bit field. -/
def u64 (b : List Byte) (o : Nat) : Nat := fieldAt b o 8
/-- A signed byte. -/
def i8 (b : List Byte) (o : Nat) : Int := sfieldAt b o 1
/-- A signed 16-bit field. -/
def i16 (b : List Byte) (o : Nat) : Int := sfieldAt b o 2
/-- A signed 32-bit field. -/
def i32 (b : List Byte) (o : Nat) : Int := sfieldAt b o 4

/-- `n` bytes as unsigned numbers. -/
def u8s (b : List Byte) (o n : Nat) : List Nat := (List.range n).map fun i => u8 b (o + i)
/-- `n` 16-bit fields. -/
def u16s (b : List Byte) (o n : Nat) : List Nat := (List.range n).map fun i => u16 b (o + 2 * i)
/-- `n` 32-bit fields. -/
def u32s (b : List Byte) (o n : Nat) : List Nat := (List.range n).map fun i => u32 b (o + 4 * i)

/-- A number lies in a range. -/
def within (v lo hi : Nat) : Bool := lo ≤ v && v ≤ hi

/-- 2^e for a signed exponent. -/
def pow2 (e : Int) : Rat := if e ≥ 0 then ((2 ^ e.toNat : Nat) : Rat) else 1 / ((2 ^ (-e).toNat : Nat) : Rat)

/-- The value of an fp32 bit pattern; none for an infinity or a NaN. -/
def f32 (v : Nat) : Option Rat :=
  let e := bits v 30 23
  let m := bits v 22 0
  let s : Rat := if bit v 31 then -1 else 1
  if e = 255 then none
  else if e = 0 then some (s * (m : Rat) * pow2 (-149))
  else some (s * ((2 ^ 23 + m : Nat) : Rat) * pow2 ((e : Int) - 150))

/-- The value of an fp16 bit pattern; none for an infinity or a NaN. -/
def f16 (v : Nat) : Option Rat :=
  let e := bits v 14 10
  let m := bits v 9 0
  let s : Rat := if bit v 15 then -1 else 1
  if e = 31 then none
  else if e = 0 then some (s * (m : Rat) * pow2 (-24))
  else some (s * ((2 ^ 10 + m : Nat) : Rat) * pow2 ((e : Int) - 25))

/-- The nearest integer, halves to even. -/
def roundEven (x : Rat) : Int :=
  let n := x.floor
  let r := x - (n : Rat)
  if r < 1 / 2 then n else if r > 1 / 2 then n + 1 else if n % 2 = 0 then n else n + 1

/-- The nearest integer, halves away from zero. -/
def roundAway (x : Rat) : Int := if x < 0 then -((-x + 1 / 2).floor) else (x + 1 / 2).floor

/-- e with 2^e ≤ |x| < 2^(e+1), for x other than 0. -/
def exponentOf (x : Rat) : Int :=
  let a : Rat := if x < 0 then -x else x
  let e : Int := (Nat.log2 a.num.toNat : Int) - (Nat.log2 a.den : Int)
  if pow2 e ≤ a then e else e - 1

/-- The nearest multiple of 2^(max(e, eMin) − m), ties to even, and that exponent: rounding to m fraction bits. -/
def roundBits (m : Nat) (eMin : Int) (x : Rat) : Rat :=
  if x = 0 then 0
  else
    let u := pow2 (max (exponentOf x) eMin - m)
    (roundEven (x / u) : Rat) * u

/-- Rounded to fp32, ties to even. -/
def round32 (x : Rat) : Rat := roundBits 23 (-126) x

/-- Rounded to fp16, ties to even, saturating at ±65,504. -/
def round16 (x : Rat) : Rat := max (-65504) (min 65504 (roundBits 10 (-14) x))

/-- The bit pattern of a value with m fraction bits and an exponent field biased by `bias`. -/
def patternOf (m bias signBit : Nat) (x : Rat) : Nat :=
  if x = 0 then 0
  else
    let s := if x < 0 then signBit else 0
    let a : Rat := if x < 0 then -x else x
    let e := max (exponentOf a) (1 - (bias : Int))
    let q := (a / pow2 (e - m)).floor.toNat
    s + (if q < 2 ^ m then q else ((e + bias).toNat * 2 ^ m + (q - 2 ^ m)))

/-- The fp32 bit pattern of a value that fp32 holds. -/
def bits32 (x : Rat) : Nat := patternOf 23 127 (2 ^ 31) (round32 x)

/-- The fp16 bit pattern of a value that fp16 holds. -/
def bits16 (x : Rat) : Nat := patternOf 10 15 (2 ^ 15) (round16 x)

/-- The value of an fp32 field. -/
def fp32At (b : List Byte) (o : Nat) : Option Rat := f32 (u32 b o)

/-- An fp32 bit pattern holds a number in a range whose bounds are the fp32 numbers nearest those given. -/
def f32In (v : Nat) (lo hi : Rat) : Bool := match f32 v with
  | some x => round32 lo ≤ x && x ≤ round32 hi
  | none => false

/-- An fp16 bit pattern holds a number in a range whose bounds are the fp16 numbers nearest those given. -/
def f16In (v : Nat) (lo hi : Rat) : Bool := match f16 v with
  | some x => round16 lo ≤ x && x ≤ round16 hi
  | none => false

/-- The offset of the first field, in offset order, whose check fails (Table 3.2 step 11). -/
def firstBad : List (Nat × Bool) → Option Nat
  | [] => none
  | (o, ok) :: l => if ok then firstBad l else some o

/-- Checks of the elements of an array field: `n` elements of `w` bytes from offset `o`. -/
def eachAt (o w n : Nat) (f : Nat → Bool) : List (Nat × Bool) := (List.range n).map fun i => (o + w * i, f (o + w * i))

/-- A list of checks of each element of an array of records, concatenated. -/
def eachRec (o w n : Nat) (f : Nat → List (Nat × Bool)) : List (Nat × Bool) :=
  (List.range n).flatMap fun i => f (o + w * i)

/-- Reserved bytes are zero (R56). -/
def zeroAt (b : List Byte) (o n : Nat) : Nat × Bool := (o, fieldAt b o n == 0)

/-- A field of `n` bytes in a range. -/
def rng (b : List Byte) (o n lo hi : Nat) : Nat × Bool := (o, within (fieldAt b o n) lo hi)

/-- An object ID field of a type, its index in range (R8). -/
def obj (b : List Byte) (o type : Nat) : Nat × Bool := (o, objIs type (u16 b o))

/-- A sensor stream's object ID. -/
def sensorStream (b : List Byte) (o : Nat) : Nat × Bool := (o, objIs 0x2 (u16 b o) && objIndex (u16 b o) < 16)

/-- Bytes of printable or zero-padding ASCII. -/
def ascii (b : List Byte) (o n : Nat) : Nat × Bool := (o, (slice b o n).all fun x => x.toNat < 128)

/-- The pail that a handle names, with its index; none for a retired, withering or malformed handle (R416, R426). -/
def livePail (d : Dev) (h : Nat) : Option (Nat × Pail) :=
  let i := h % 2 ^ 24
  let g := h / 2 ^ 24
  if 1 ≤ i ∧ i ≤ 0xFFFF ∧ 1 ≤ g then
    match mapGet d.pails.table i with
    | some p => if p.gen = g ∧ !p.withering then some (i, p) else none
    | none => none
  else none

/-- A handle field that names a live pail. -/
def handle (d : Dev) (b : List Byte) (o : Nat) : Nat × Bool := (o, (livePail d (u32 b o)).isSome)

/-- A handle field that names a live pail, or no pail. -/
def handle0 (d : Dev) (b : List Byte) (o : Nat) : Nat × Bool := (o, u32 b o == 0 || (livePail d (u32 b o)).isSome)

/-- The size of the pail a handle names; 0 when it names none. -/
def pailSize (d : Dev) (h : Nat) : Nat := match livePail d h with
  | some (_, p) => p.size
  | none => 0

/-- The length a fixed-size block has. -/
def fixed (n : Nat) : List Byte → Option Nat := fun _ => some n

/-- A length that follows from fields in the first `k` bytes (R570). -/
def counted (k : Nat) (f : List Byte → Nat) : List Byte → Option Nat := fun b => if b.length < k then none else some (f b)

/-- A command as it is carried out: the sending session, its sequence number, transaction and parameters. -/
structure Ctx where
  session : Nat := 0
  sid : Nat := noSession
  op : Nat := 0
  seq : Nat := 0
  txn : Nat := 0
  b : List Byte := []
  endpoint : Endpoint := .spi
  time : Nat := 0
  flags : Nat := 0
  listFailed : Bool := false
  deriving DecidableEq, Repr, Inhabited

/-- The request that a command came with. -/
def Ctx.request (c : Ctx) : Request :=
  { op := c.op, pkt := { time := c.time, endpoint := c.endpoint, len := 24 + c.b.length, flags := c.flags, session := c.sid, seq := c.seq
                         txn := c.txn, paramLength := c.b.length, params := c.b, listFailed := c.listFailed } }

/-- The PENDING record of a command (R62). -/
def Ctx.pending (c : Ctx) : PendingCmd := { session := c.sid, seq := c.seq, op := c.op }

/-- What the acceptance order needs of a command. Step 9 uses `length` (none where the fields needed are
missing), step 11 `ranges`, step 12 `combos`, step 13 `targets` (the keys it changes) and `device` (whether it
needs the device object). An immediate command meets `against` at step 14 and then has the effect `act`, which
answers none while its reply waits. A stageable command meets `against` at commit check 5 and has the effect
`settle` when its part applies; `own` is its own reply's parameters. `raises` marks an immediate command that is
an admission request, tested between `against` and `act` on the load that `settle` gives. -/
structure CmdSpec where
  op : Nat
  stageable : List Byte → Bool := fun _ => false
  length : List Byte → Option Nat
  ranges : Dev → List Byte → List (Nat × Bool) := fun _ _ => []
  handles : List Byte → List Nat := fun _ => []
  combos : Dev → Ctx → Option Rsp := fun _ _ => none
  targets : Dev → List Byte → List Nat := fun _ _ => []
  device : Bool := false
  bumps : Bool := true
  against : Dev → Ctx → Option Rsp := fun _ _ => none
  raises : Bool := false
  act : Ctx → Dev → Dev × Option Rsp := fun _ d => (d, some .ok)
  settle : Ctx → Dev → Dev := fun _ d => d
  own : Ctx → Dev → List Byte := fun _ _ => []

/-- The first check that fails gives its answer. -/
def firstRsp : List (Bool × Rsp) → Option Rsp
  | [] => none
  | (bad, r) :: l => if bad then some r else firstRsp l

/-- A packet's field combinations, each with the offset of the later field (R571). -/
def comboCheck (l : List (Bool × Nat)) : Option Rsp := firstRsp (l.map fun e => (e.1, .combination e.2))

/-- One combination check: the condition that refuses, and the offset it names. -/
def bad (p : Bool) (off : Nat) : Bool × Nat := (p, off)

/-- One range check: the field's offset, and the condition that admits it. -/
def chk (off : Nat) (p : Bool) : Nat × Bool := (off, p)

/-- A reserved-bits check of a flags field. -/
def flagBits (b : List Byte) (o n used : Nat) : Nat × Bool := (o, fieldAt b o n < 2 ^ used)

/-- One list of keys comes before another of its length. -/
def keyLess : List Nat → List Nat → Bool
  | a :: as, b :: bs => a < b || (a == b && keyLess as bs)
  | _, _ => false

end Sys2Proof.Machine
end

