-- ==== Sys2Proof/Machine/Geometry.lean ====
section
/-! DEFINITION. Sizes, slot layouts, tiles, job forming and job times: what chapters 02, 05 to 12 compute from
a configuration. Reference times of drill jobs are counted in 1/300 µs (a base tile of 32,768 pixels at
96.0 Mpixel/s is 102,400 of them, R21). -/

namespace Sys2Proof.Machine

/-- Rounded up to a multiple. -/
def roundUp (n m : Nat) : Nat := ceilDiv n m * m

/-- The ring margin b of a class (R129): 1 for L, 3 for C, 8 for P. -/
def classB : Nat → Nat
  | 0 => 1
  | 1 => 3
  | _ => 8

/-- The speed factor k(V) in thousandths (Table 2.1). -/
def kTable : List Nat :=
  [409, 441, 473, 505, 537, 568, 599, 630, 660, 691, 720, 750, 779, 808, 836, 864,
   892, 919, 946, 973, 1000, 1026, 1052, 1077, 1102, 1127, 1152, 1176, 1200, 1224, 1248]

/-- k at a step in mV; a step below 600 mV takes the table's first value. -/
def kOf (mv : Nat) : Nat := kTable.getD ((mv - 600) / 10) 1248

/-! ## Raw slots (R128) -/

/-- Bytes of a packed row. -/
def rawRowBytes (w bits : Nat) : Nat := ceilDiv (w * bits) 512 * 64

/-- Bytes of a plane of a raw slot. -/
def rawPlaneSize (w h bits : Nat) : Nat := roundUp (rawRowBytes w bits * h) 65536

/-- Bytes of a raw slot. -/
def rawSlotSize (w h bits planes : Nat) : Nat := 0x20000 + planes * rawPlaneSize w h bits

/-- Planes of a frame (R128). -/
def FurrowConfig.planes (c : FurrowConfig) : Nat := if c.dualGain = 0 then 1 else 2

/-- Bytes of a raw slot of a furrow. -/
def FurrowConfig.slotSize (c : FurrowConfig) : Nat := rawSlotSize c.width c.height c.depthBits c.planes

/-- The furrow whose configuration names a stream; an odd furrow of a ganged pair has none of its own. -/
def furrowOf (d : Dev) (n : Nat) : Option (Nat × FurrowConfig) :=
  (indexed d.furrows).findSome? fun e =>
    match e.2.config with
    | some c => if c.stream = n && !(e.2.ganged && e.1 % 2 = 1) then some (e.1, c) else none
    | none => none

/-! ## Sources -/

/-- Chroma of a codec profile: 0 4:2:0, 1 4:2:2, 2 4:4:4, 3 CFA (Tables 10.4, 11.1). -/
def profileChroma (codec profile : Nat) : Nat :=
  if codec = 0 then (if profile ≥ 5 then 3 else if profile % 2 = 1 then 1 else 2)
  else match profile with
    | 3 => 1
    | 4 => 2
    | 7 => 1
    | 9 => 1
    | _ => 0

/-- Bytes per pixel in 16-bit containers (R287). -/
def chromaBytes : Nat → Nat
  | 0 => 3
  | 1 => 4
  | 2 => 6
  | _ => 2

/-- The open decoder that a playback stream is bound to. -/
def playbackDecoder (d : Dev) (n : Nat) : Option (Nat × Decoder) :=
  match (d.stream n).decoder with
  | some i => (mapGet d.codecs.decoders i).map fun x => (i, x)
  | none => none

/-- The image of a stream: its sensor's frame (R155), or its decoder's largest picture; none while neither is
known. -/
def srcSize (d : Dev) (n : Nat) : Option (Nat × Nat) :=
  if n < 16 then (furrowOf d n).map fun e => (e.2.width, e.2.height)
  else (playbackDecoder d n).map fun e => (e.2.maxWidth, e.2.maxHeight)

/-- Tiles across and down (R27). -/
def tilesW (w : Nat) : Nat := ceilDiv w 256
/-- Tile-rows of a frame (R27). -/
def tilesH (h : Nat) : Nat := ceilDiv h 128

/-- The last input row a tile-row waits for (R28). -/
def releaseRow (h r : Nat) : Nat := min (128 * r + 139) (h - 1)

/-- The first tile-row whose release row has reached a row: the tile-row that R28 assigns to the row. -/
def rowTile (h row : Nat) : Nat :=
  ((List.range (tilesH h)).find? fun r => releaseRow h r ≥ row).getD (tilesH h - 1)

/-! ## Branches (R217, R222, R223) -/

/-- A branch's crop with a width or height of 0 resolved. -/
def BranchSet.crop (b : BranchSet) (w h : Nat) : Nat × Nat × Nat × Nat :=
  (b.cropX, b.cropY, if b.cropW = 0 then w - b.cropX else b.cropW, if b.cropH = 0 then h - b.cropY else b.cropH)

/-- Bytes per pixel (Table 8.4). -/
def formatBytes (f : Nat) : Nat :=
  match f / 16 with
  | 0 => if f = 1 then 8 else 4
  | 1 => 6
  | 2 => 6
  | 3 => 4
  | _ => 3

/-- Planes of a format. -/
def formatPlanes (f : Nat) : Nat :=
  match f / 16 with
  | 2 => 3
  | 3 => 2
  | 4 => 2
  | _ => 1

/-- A branch format code (Table 8.4). -/
def formatOk (f : Nat) : Bool := f = 1 || f = 2 || (1 ≤ f / 16 && f / 16 ≤ 4 && f % 16 ≤ 2)

/-- Bit depth of a format; 16 for fp16. -/
def formatDepth (f : Nat) : Nat := if f = 1 then 16 else if f = 2 then 10 else [10, 12, 16].getD (f % 16) 16

/-- Bytes of a row of a plane (R223). -/
def formatStride (f w : Nat) : Nat :=
  roundUp (w * (match f / 16 with
    | 0 => if f = 1 then 8 else 4
    | 1 => 6
    | _ => 2)) 256

/-- Rows of plane `p`. -/
def formatRows (f h p : Nat) : Nat := if f / 16 = 4 && p = 1 then h / 2 else h

/-- The offset of plane `p` from the start of its slot (R223). -/
def formatOffset (f w h p : Nat) : Nat :=
  0x1000 + sumOf (fun q => roundUp (formatStride f w * formatRows f h q) 4096) (List.range p)

/-- Bytes of a picture slot (R223). -/
def formatSlot (f w h : Nat) : Nat := formatOffset f w h (formatPlanes f)

/-- Bytes of a branch's slot. -/
def BranchSet.slotSize (b : BranchSet) : Nat := formatSlot b.format b.outW b.outH

/-- A branch's scaler is not 1:1 in some axis (Table 2.2). -/
def BranchSet.scaled (b : BranchSet) (w h : Nat) : Bool :=
  let c := b.crop w h
  c.2.2.1 ≠ b.outW || c.2.2.2 ≠ b.outH

/-- The pre-decimation factor of an axis (R217): 2^(ceil(log2 s) − 1), or 1 when s ≤ 2. -/
def decimation (crop out : Nat) : Nat :=
  if crop ≤ 2 * out then 1
  else if crop ≤ 4 * out then 2
  else if crop ≤ 8 * out then 4
  else if crop ≤ 16 * out then 8
  else 16

/-! ## Taps and statistics (R236, R244) -/

/-- A tap's crop with zeros resolved. -/
def TapSet.crop (t : TapSet) (w h : Nat) : Nat × Nat × Nat × Nat :=
  (t.cropX, t.cropY, if t.cropW = 0 then w - t.cropX else t.cropW, if t.cropH = 0 then h - t.cropY else t.cropH)

/-- Bytes of a row of a tap's plane. -/
def tapStride (format cropW bits : Nat) : Nat :=
  if format = 1 then roundUp (ceilDiv (cropW * bits) 8) 256 else roundUp (cropW * 2) 256

/-- Bytes of a tap's slot, with the planes its point gives (R242, R244). -/
def tapSlot (format cropW cropH bits planes : Nat) : Nat :=
  0x1000 + planes * roundUp (tapStride format cropW bits * cropH) 4096

/-- Bytes of a statistics slot (R236). -/
abbrev statsSlot : Nat := 0x40000

/-! ## Motion fields (R185, R191, Table 7.2) -/

/-- Bytes of a motion field. -/
def fieldBytes (w h : Nat) : Nat := 0x1000 + 8 * (ceilDiv w 16 * ceilDiv h 16)

/-- Bytes of one pyramid: levels 0 to 3 at 16 bits. -/
def pyramidBytes (w h : Nat) : Nat :=
  2 * sumOf (fun l => ceilDiv w (2 ^ (l + 1)) * ceilDiv h (2 ^ (l + 1))) (List.range 4)

/-! ## Drill jobs (R21, R29 to R31) -/

/-- The time cap of a job, in 1/300 µs: 389.00 µs. -/
abbrev jobCap : Nat := 116700

/-- Branches that fit a job in ascending order, up to the first that does not, and the rest. -/
def fitBranches : Nat → List (Nat × Nat) → List (Nat × Nat) × List (Nat × Nat)
  | _, [] => ([], [])
  | t, (b, x) :: l =>
    if t + x ≤ jobCap then
      let r := fitBranches (t + x) l
      ((b, x) :: r.1, r.2)
    else ([], (b, x) :: l)

/-- Left-over branches put into spill jobs, each within the cap (R29 step 3). -/
def spillJobs : Nat → List (Nat × Nat) → List (List (Nat × Nat))
  | 0, _ => []
  | _ + 1, [] => []
  | n + 1, l =>
    let r := fitBranches 1800 l
    if r.1.isEmpty then [] else r.1 :: spillJobs n r.2

/-- How the jobs of a tile are formed: the chain job's time and branches, and the spill jobs' (R29). -/
structure JobPlan where
  chain : Nat := 0
  branches : List Nat := []
  spills : List (Nat × List Nat) := []
  deriving DecidableEq, Repr, Inhabited

/-- Time of a list of elements. -/
def timeOf (l : List (Nat × Nat)) : Nat := sumOf (fun e => e.2) l

/-- The jobs of a tile from the chain's time without branches and the branches' times (R29). -/
def planJobs (base : Nat) (l : List (Nat × Nat)) : JobPlan :=
  let r := fitBranches base l
  if r.2.isEmpty then { chain := base + timeOf r.1, branches := r.1.map (·.1) }
  else
    let tight : Bool := decide (base + timeOf r.1 + 1200 > jobCap)
    let keep := if tight then r.1.dropLast else r.1
    let rest := if tight then r.1.drop (r.1.length - 1) ++ r.2 else r.2
    { chain := base + timeOf keep + 1200, branches := keep.map (·.1)
      spills := (spillJobs rest.length rest).map fun j => (1800 + timeOf j, j.map (·.1)) }

/-- The enabled branches of a set with their times. -/
def branchTimes (s : StreamSettings) (w h : Nat) : List (Nat × Nat) :=
  (indexed s.branches).filterMap fun e =>
    if e.2.enable then some (e.1, if e.2.scaled w h then 3600 else 6600) else none

/-- The jobs of each tile of stream `n` under a set (Table 2.2). -/
def streamPlan (n : Nat) (dual : Bool) (s : StreamSettings) (w h : Nat) : JobPlan :=
  planJobs ((if n ≥ 16 then 51000 else 102400) + 9000 * boolNat dual + 1500 * boolNat s.stats.enable
    + 450 * (s.taps.filter (·.enable)).length) (branchTimes s w h)

/-- The class of a job that carries some branches; none leaves class P. -/
def branchesClass (s : StreamSettings) (l : List Nat) : Nat :=
  l.foldl (fun a b => min a (tabGet s.branches b).cls) 2

/-- The class of a stream's chain job: the most urgent of all outputs it leads to (R31). -/
def chainClass (s : StreamSettings) (p : JobPlan) : Nat :=
  let c := branchesClass s (p.branches ++ (p.spills.flatMap (·.2)))
  let c := if s.stats.enable then min c s.stats.cls else c
  s.taps.foldl (fun a t => if t.enable then min a t.cls else a) c

/-- A stream has drill work: an enabled branch or tap, or statistics (R16: a stream that only records has none). -/
def StreamSettings.drills (s : StreamSettings) : Bool := s.stats.enable || s.branches.any (·.enable) || s.taps.any (·.enable)

/-- The stream's furrow reads out two gains. -/
def streamDual (d : Dev) (n : Nat) : Bool := match furrowOf d n with
  | some (_, c) => c.dualGain ≠ 0
  | none => false

/-- The plan of stream `n` in a configuration. -/
def planOf (d : Dev) (n : Nat) (s : StreamSettings) : JobPlan :=
  match srcSize d n with
  | some (w, h) => streamPlan n (streamDual d n) s w h
  | none => {}

/-- The least urgent class among a stream's spill jobs. -/
def spillClass (s : StreamSettings) (p : JobPlan) : Nat := maxOf (fun j => branchesClass s j.2) p.spills

/-! ## Encoders (R252, R253, R257, R274, R276, R283, R287) -/

/-- The source of a JPEG XS session: width, height, samples counted per pixel in halves, bit depth and chroma;
none while its source is not known. -/
structure XsSource where
  w : Nat := 0
  h : Nat := 0
  bits : Nat := 16
  chroma : Nat := 3
  srcBytes : Nat := 0
  stream : Option Nat := none
  cls : Nat := 0
  deriving DecidableEq, Repr, Inhabited

/-- A branch of an object ID: stream and number (Table 0.2). -/
def branchOf (o : Nat) : Nat × Nat := (objIndex o / 8, objIndex o % 8)

/-- A branch's settings. -/
def branchSet (d : Dev) (o : Nat) : BranchSet := tabGet (d.stream (branchOf o).1).settings.branches (branchOf o).2

/-- What a JPEG XS session codes (Table 10.2). -/
def xsSource (d : Dev) (x : XsConfig) : Option XsSource :=
  match x.sourceKind with
  | 0 => (furrowOf d (objIndex x.source)).map fun e =>
      { w := e.2.width, h := e.2.height, bits := e.2.depthBits, srcBytes := rawRowBytes e.2.width e.2.depthBits * e.2.height
        stream := some (objIndex x.source) }
  | 1 => (furrowOf d (objIndex x.source)).map fun e =>
      let t := tabGet (d.stream (objIndex x.source)).settings.taps x.tapPoint
      let c := t.crop e.2.width e.2.height
      { w := c.2.2.1, h := c.2.2.2, bits := if t.format = 1 then e.2.depthBits else 16
        srcBytes := tapStride t.format c.2.2.1 e.2.depthBits * c.2.2.2, stream := some (objIndex x.source), cls := t.cls }
  | 2 =>
      let b := branchSet d x.source
      some { w := b.outW, h := b.outH, bits := formatDepth b.format, chroma := if b.format / 16 = 3 then 1 else 2
             srcBytes := b.outW * b.outH * formatBytes b.format, stream := some (branchOf x.source).1, cls := b.cls }
  | _ => (mapGet d.codecs.decoders (objIndex x.source)).map fun q =>
      { w := q.maxWidth, h := q.maxHeight, bits := 16, srcBytes := rawRowBytes q.maxWidth 16 * q.maxHeight, cls := q.cls }

/-- Twice the counted samples of some pixels, or of some luma samples of an HEVC picture (Table 2.6): 4:4:4 counts 1.5 times. -/
def countedTwice (chroma pixels : Nat) : Nat := if chroma = 2 then 3 * pixels else 2 * pixels

/-- Swaths of a JPEG XS frame (R252). -/
def xsSwaths (h rows : Nat) : Nat := ceilDiv h rows

/-- Rows of swath `i`. -/
def swathRows (h rows i : Nat) : Nat := min rows (h - rows * i)

/-- Φ of a JPEG XS frame (R257). -/
def xsFloor (w h rows chroma i : Nat) : Nat := 256 + ceilDiv (countedTwice chroma (w * swathRows h rows i)) 512

/-- Bytes of a JPEG XS slot (R262). -/
def xsSlot (budget : Nat) : Nat := roundUp (0x1000 + budget) 4096

/-- The coded size of an HEVC or AVC session (R274). -/
def codedSize (c : EncConfig) (w h : Nat) : Nat × Nat :=
  let x := w / 2 ^ c.decX
  let y := h / 2 ^ c.decY
  if c.rotation % 2 = 1 then (y, x) else (x, y)

/-- CTU size, or 16 for AVC. -/
def ctuSize (codec : Nat) (c : EncConfig) : Nat := if codec = 1 then (if c.ctu = 1 then 64 else 32) else 16

/-- Rows of a swath (R276). -/
def encSwathRows (codec : Nat) (c : EncConfig) : Nat := if codec = 1 then ctuSize 1 c else 32

/-- First column of tile column `i`, in CTUs, under uniform spacing. -/
def tileStart (ctus cols i : Nat) : Nat := i * ctus / cols

/-- Luma columns of segment `i`, within the coded picture (R276). -/
def segmentWidth (codec : Nat) (c : EncConfig) (w i : Nat) : Nat :=
  if codec = 1 then
    let s := ctuSize 1 c
    let n := ceilDiv w s
    min w (tileStart n c.tileCols (i + 1) * s) - tileStart n c.tileCols i * s
  else w

/-- Luma samples of a segment (R276). -/
def segmentSamples (codec : Nat) (c : EncConfig) (w rows i : Nat) : Nat := segmentWidth codec c w i * rows

/-- Luma samples of the largest segment. -/
def largestSegment (codec : Nat) (c : EncConfig) (w h : Nat) : Nat :=
  maxOf (segmentSamples codec c w (min (encSwathRows codec c) h)) (List.range (if codec = 1 then c.tileCols else 1))

/-- The reference time in µs of an encode job of some pixels (R253, R276): 4:4:4 counts 1.5 times. -/
def encodeTime (codec chroma pixels : Nat) : Rat :=
  (countedTwice chroma pixels : Rat) / 2 / (match codec with
    | 0 => 625
    | 1 => 125
    | _ => 125 / 2)

/-- The reference time in µs of a decode job of some pixels (R253, R295). -/
def decodeTime (codec chroma pixels : Nat) : Rat :=
  (countedTwice chroma pixels : Rat) / 2 / (match codec with
    | 0 => 625 / 2
    | 1 => 125 / 2
    | _ => 125 / 4)

/-- CPB size in bytes (R281). -/
def RateControl.cpb (r : RateControl) : Nat := r.cpbKbits * 125

/-- b of a rate (R281). -/
def frameBytes (kbps period : Nat) : Nat := kbps * period / 8000000

/-- Padded coded size. -/
def paddedSize (codec : Nat) (c : EncConfig) (w h : Nat) : Nat × Nat :=
  (roundUp w (ctuSize codec c), roundUp h (ctuSize codec c))

/-- Bytes of an HEVC or AVC slot (R287). -/
def encSlot (r : RateControl) : Nat := roundUp (0x1000 + r.cpb) 4096

/-- Bytes that an HEVC or AVC session's pail must hold (R287); `field` is the source stream's image while it has
a motion field. -/
def encPailBytes (codec : Nat) (c : EncConfig) (r : RateControl) (w h : Nat) (field : Option (Nat × Nat)) : Nat :=
  let p := paddedSize codec c w h
  c.depth * encSlot r + 2 * roundUp (p.1 * p.2 * chromaBytes (profileChroma codec c.profile)) 65536
    + 2 * (match field with
      | some (fw, fh) => roundUp (fieldBytes fw fh) 4096
      | none => 0)

/-! ## Decoders (R296, R299) -/

/-- The picture format of a decoder (R294); 0 for CFA. Depth codes follow the largest the profile allows. -/
def decoderFormat (codec profile : Nat) : Nat :=
  match profileChroma codec profile with
  | 0 => 0x40
  | 1 => 0x30
  | 2 => if codec = 1 then 0x21 else 0x20
  | _ => 0

/-- Bytes of an output slot (R299). -/
def decoderSlot (q : Decoder) : Nat :=
  if profileChroma q.codec q.profile = 3 then rawSlotSize q.maxWidth q.maxHeight 16 1
  else formatSlot (decoderFormat q.codec q.profile) q.maxWidth q.maxHeight

/-- The offset of a decoder's output slots in its pail (R299). -/
def decoderSlotBase (q : Decoder) : Nat :=
  let a := if q.codec = 1 then 64 else 16
  q.inKib * 1024 + q.dpb * roundUp (roundUp q.maxWidth a * roundUp q.maxHeight a * chromaBytes (profileChroma q.codec q.profile)) 65536

/-- Bytes that a decoder's pail must hold. -/
def decoderPailBytes (q : Decoder) : Nat := decoderSlotBase q + q.depth * decoderSlot q

/-! ## Raster times (R311, R313) -/

/-- A raster's frame period in ns. -/
def RasterTiming.period (t : RasterTiming) : Rat := 1000000000 * (t.rateDen : Rat) / (t.rateNum : Rat)

/-- The start of raster line `l` after the frame start, in ns. -/
def RasterTiming.lineStart (t : RasterTiming) (l : Nat) : Rat := (l : Rat) * t.period / (t.vTotal : Rat)

/-- The line that shows active line `l`: active lines end the frame. -/
def RasterTiming.activeLine (t : RasterTiming) (l : Nat) : Nat := t.vTotal - t.vActive + l

/-- out(ℓ) (R313): when active line ℓ leaves, after the frame start, in ns. -/
def RasterTiming.out (t : RasterTiming) (l : Nat) : Rat :=
  t.lineStart (t.activeLine l) + t.period * ((t.hTotal - t.hActive : Nat) : Rat) / ((t.hTotal * t.vTotal : Nat) : Rat)

end Sys2Proof.Machine
end

