-- ==== Sys2Proof/Machine/Pails.lean ====
section
/-! DEFINITION. Pails (chapter 18): pool accounting, allocation and import, references (Table 18.3), freeing and
withering (R427 to R429), and reading and writing bytes of a pail through translation (R419 to R422). -/

namespace Sys2Proof.Machine

/-- Where the allocatable pool starts (Table 17.2). -/
abbrev poolBase : Nat := 0xA0000000

/-- Bytes of the pool at reset. -/
abbrev poolBytes : Nat := 0x1100000000

/-- Bytes that the loss of a rank with no spare left withdraws (R412). -/
abbrev regionBytes : Nat := 386 * 1048576

/-- Bytes of the pool that are not withdrawn. -/
def poolSize (d : Dev) : Nat := poolBytes - regionBytes * d.hbm.regions

/-- Where the pool ends. -/
def poolEnd (d : Dev) : Nat := poolBase + poolSize d

/-- The page size of a pail (R420). -/
def Pail.pageSize (p : Pail) : Nat := if p.large then 0x200000 else 0x10000

/-- Bytes that HBM pails hold. -/
def pailBytes (d : Dev) : Nat := sumOf (fun e => if e.2.host then 0 else e.2.size) d.pails.table

/-- Bytes of freed pages that wait to be zeroed (R429). -/
def zeroingPending (d : Dev) : Nat := sumOf (fun e => e.2) d.pails.zeroing - d.pails.zeroed

/-- Bytes that host pails map. -/
def hostMapped (d : Dev) : Nat := sumOf (fun e => if e.2.host then e.2.size else 0) d.pails.table

/-- POOL capacity: what pails and zeroing leave of the pool; internal pails are its demand. -/
def poolCapacity (d : Dev) : Nat := poolSize d - pailBytes d - sumOf (fun e => e.2) d.pails.zeroing

/-- Free bytes of the pool. -/
def poolFree (d : Dev) : Nat := poolCapacity d - roundUp d.pails.internal 0x10000

/-- Runs of device physical space in use by pails and by pages that wait to be zeroed. -/
def usedRuns (d : Dev) : List (Nat × Nat) :=
  (d.pails.table.flatMap fun e => if e.2.host then [] else e.2.pages.map fun a => (a, e.2.pageSize))
    ++ d.pails.zeroing

/-- A run is free of all used runs. -/
def runFree (used : List (Nat × Nat)) (a n : Nat) : Bool := used.all fun u => a + n ≤ u.1 || u.1 + u.2 ≤ a

/-- The first `n` free pages of a size from an address on, lowest first. -/
def freePages (used : List (Nat × Nat)) (size : Nat) : Nat → Nat → Nat → List Nat
  | 0, _, _ => []
  | fuel + 1, a, n =>
    if n = 0 then []
    else if runFree used a size then a :: freePages used size fuel (a + size) (n - 1)
    else freePages used size fuel (a + size) n

/-- Free 2 MiB frames that internal pails leave whole: their 64 KiB pages take partly used frames first (R423). -/
def freeFrames (d : Dev) : Nat :=
  let used := usedRuns d
  let frames := poolSize d / 0x200000
  let whole := (List.range frames).countP fun i => runFree used (poolBase + i * 0x200000) 0x200000
  let loose := poolCapacity d - whole * 0x200000
  whole - ceilDiv (roundUp d.pails.internal 0x10000 - loose) 0x200000

/-- The pages a new HBM pail takes: the lowest free ones (DESIGN CHOICE: the manual names no order). -/
def allocPages (d : Dev) (size : Nat) (large : Bool) : Option (List Nat) :=
  let ps := if large then 0x200000 else 0x10000
  let room := if large then freeFrames d * 0x200000 ≥ size else poolFree d ≥ size
  if room then
    let l := freePages (usedRuns d) ps (poolSize d / ps) poolBase (size / ps)
    if l.length = size / ps then some l else none
  else none

/-- The first DVA at or after a start that no pail's range touches, with its 2 MiB gap (R419). -/
def fitDva (ranges : List (Nat × Nat)) (size : Nat) : Nat → Nat → Nat
  | 0, a => a
  | fuel + 1, a =>
    match ranges.find? fun r => a < r.1 + roundUp r.2 0x200000 + 0x200000 && r.1 < a + roundUp size 0x200000 + 0x200000 with
    | some r => fitDva ranges size fuel (r.1 + roundUp r.2 0x200000 + 0x200000)
    | none => a

/-- The DVA of a new pail: ascending, wrapping within its half (R419). -/
def newDva (d : Dev) (host : Bool) (size : Nat) : Nat :=
  let lo := if host then 0x800000000000 else 0x200000
  let hi := if host then 0x1000000000000 else 0x800000000000
  let ranges := d.pails.table.map fun e => (e.2.dva, e.2.size)
  let at1 := fitDva ranges size (ranges.length + 1) (if host then d.pails.nextDvaHost else d.pails.nextDvaHbm)
  if at1 + size + 0x200000 ≤ hi then at1 else fitDva ranges size (ranges.length + 1) lo

/-- The index a new pail takes: indices never used in ascending order, then freed ones in the order they became
free (R417). -/
def newPailIndex (d : Dev) : Option Nat :=
  if d.pails.nextIndex ≤ 0xFFFF then some d.pails.nextIndex else d.pails.freed.head?

/-- Counters of an object back to 0. -/
def clearCounters (k : Nat) (d : Dev) : Dev :=
  { d with counters := d.counters.filter fun e => e.1 / 256 != k }

/-- A new pail of index `i` enters the table with its next generation (R417). -/
def addPail (i : Nat) (p : Pail) (d : Dev) : Dev :=
  let g := match mapGet d.pails.generations i with
    | some g => g % 255 + 1
    | none => 1
  let dva := newDva d p.host p.size
  let next := dva + roundUp p.size 0x200000 + 0x200000
  let d := clearCounters (pailKey i) d
  d.onPails fun t =>
    { t with table := mapSet t.table i { p with gen := g, dva }
             generations := mapSet t.generations i g
             freed := if t.nextIndex ≤ 0xFFFF then t.freed else t.freed.drop 1
             nextIndex := if t.nextIndex ≤ 0xFFFF then t.nextIndex + 1 else t.nextIndex
             nextDvaHbm := if p.host then t.nextDvaHbm else next
             nextDvaHost := if p.host then next else t.nextDvaHost }

/-! ## References (Table 18.3) -/

/-- The pails that a ring's slots keep after its configuration was replaced. -/
def OutRing.kept (r : OutRing) : List Nat := (r.retiring.filter fun e => !e.2.isEmpty).map (·.1)

/-- The distinct pails among a configuration's, frames in flight and a ring's kept ones. -/
def ringPails (own : Nat) (flight : List Nat) (r : OutRing) : List Nat :=
  ((own :: flight) ++ r.kept).dedup.filter (· ≠ 0)

/-- Frames in flight of a stream that still write to an output. -/
def flightPails (s : Stream) (pail : StreamSettings → Nat) (out : FrameWork → FrameOutput) : List Nat :=
  (s.work.filter fun w => (out w).slot.isSome && !(out w).done).map fun w => pail w.settings

/-- Pails that a stream's rings hold. -/
def streamPails (s : Stream) : List Nat :=
  (List.range 8).flatMap (fun b =>
    ringPails (tabGet s.settings.branches b).pail
      (flightPails s (fun x => (tabGet x.branches b).pail) (fun w => tabGet w.branchOut b)) (tabGet s.branchRings b))
  ++ (List.range 5).flatMap (fun t =>
    ringPails (tabGet s.settings.taps t).pail
      (flightPails s (fun x => (tabGet x.taps t).pail) (fun w => tabGet w.tapOut t)) (tabGet s.tapRings t))
  ++ ringPails s.settings.stats.pail (flightPails s (fun x => x.stats.pail) (·.statsOut)) s.statsRing
  ++ (s.settings.motion.exportPail :: s.work.map fun w => w.settings.motion.exportPail).dedup.filter (· ≠ 0)

/-- When raster frame `f` starts, in ns of the raster's domain (R312): frame 1 at the grid's base. -/
def Raster.startOf (r : Raster) (f : Nat) : Nat := r.gridBase + (((f - 1 : Nat) : Rat) * r.timing.period).floor.toNat

/-- When the last active line of a frame has been fetched, in ns of the raster's domain (R317). -/
def Raster.lastFetch (r : Raster) (frame : Nat) : Rat := (r.startOf frame : Rat) + r.timing.out (r.timing.vActive - 1) - 150000

/-- A plane presents the pail of a source kind 1. -/
def PlaneSet.showsPail (p : PlaneSet) : Bool := p.mode ≠ 0 && p.sourceKind = 1

/-- Pails that a raster's planes hold, once for each plane (R317): a plane latched with a pail keeps it until the last
active line of the last frame that presents it has been fetched. -/
def rasterPails (d : Dev) (r : Raster) : List Nat :=
  if !r.running then []
  else (List.range 4).flatMap fun p =>
    let now : Rat := domainNow d r.timing.domain
    let s := tabGet r.planes p
    let fetching := r.air.flatMap fun a =>
      if now ≥ r.lastFetch a.frame then []
      else [a.planes.getD p none, a.before.getD p none].filterMap fun x => x.bind fun y => if y.set.showsPail then some y.pail else none
    let again := r.air.flatMap fun a =>
      match a.planes.getD p none with
      | some y => if a.frame = r.latchedFrame && y.set.showsPail && s.showsPail && s.pail = y.pail && !r.stopping then [y.pail] else []
      | none => []
    (fetching ++ again).dedup

/-- Every pail handle that a holder of Table 18.3 refers to, once per reference. -/
def pailHolders (d : Dev) : List Nat :=
  (d.furrows.flatMap fun f => ((f.config.toList.map (·.pail)) ++ f.retiring.map (·.1)).dedup)
  ++ d.streams.flatMap streamPails
  ++ d.codecs.encoders.flatMap (fun e =>
      ringPails (if e.2.configured then (if e.2.codec = 0 then e.2.xs.pail else e.2.enc.pail) else 0)
        (e.2.frames.map fun f => if e.2.codec = 0 then f.xs.pail else f.enc.pail) e.2.ring)
  ++ d.codecs.decoders.map (fun e => e.2.pail)
  ++ d.display.sdiIn.flatMap (fun i => ringPails (if i.enabled then i.pail else 0) [] i.ring)
  ++ d.net.flows.flatMap (fun e => (if e.1 ≥ 64 then ringPails e.2.config.pail [] e.2.ring else [])
      ++ (if e.2.bound && e.2.bindPail ≠ 0 then [e.2.bindPail] else []))
  ++ d.net.gone.map (·.1)
  ++ d.display.rasters.flatMap (rasterPails d)
  ++ d.audio.ports.flatMap (fun p => [p.config.pail, p.leaving].filter (· ≠ 0))
  ++ d.dma.channels.flatMap (fun c => c.sheaves.flatMap fun s => s.pails.dedup)

/-- The reference count of a pail (R425). -/
def pailRefs (d : Dev) (h : Nat) : Nat := (pailHolders d).count h

/-! ## Freeing (R427 to R429) -/

/-- The pail is unmapped and PAIL_FREED raised (R429): an HBM pail's pages wait to be zeroed, and the index
becomes free. -/
def unmapPail (i : Nat) (d : Dev) : Dev :=
  match mapGet d.pails.table i with
  | none => d
  | some p =>
    let d := d.onPails fun t =>
      { t with table := mapDel t.table i, freed := t.freed ++ [i]
               zeroing := if p.host then t.zeroing else t.zeroing ++ p.pages.map fun a => (a, p.pageSize) }
    raise 0x0E80 0 (keyObj (pailKey i)) (le 4 (pailHandle i p.gen) ++ [byte (boolNat p.host)] ++ le 3 0 ++ le 8 p.size) d

/-- PAIL_FREE of a live pail (R427): the handle retires, host pages lose WRITE, the pail becomes unowned, and it
is freed at once when nothing refers to it. -/
def freePail (i : Nat) (d : Dev) : Dev :=
  match mapGet d.pails.table i with
  | none => d
  | some p =>
    let refs := pailRefs d (pailHandle i p.gen)
    let d := dropOwner (pailKey i) (d.onPails fun t =>
      { t with table := mapSet t.table i { p with withering := true, writable := p.writable && !p.host } })
    if refs = 0 then unmapPail i d else d

/-! ## Bytes of a pail -/

/-- The physical or bus address of an offset of a pail. -/
def Pail.addr (p : Pail) (off : Nat) : Nat := p.pages.getD (off / p.pageSize) 0 + off % p.pageSize

/-- The page table entry that maps page `k` of a pail (Table 18.2): VALID, LEAF, HOST, WRITE, NO_SNOOP, RELAXED_ORDERING and the
address. -/
def Pail.entry (p : Pail) (k : Nat) : Nat :=
  3 + 4 * boolNat p.host + 8 * boolNat (p.writable && !p.readOnly) + 16 * boolNat p.noSnoop + 32 * boolNat p.relaxed + p.pages.getD k 0

/-- The leaf entry that the page tables hold for a device virtual address (R421): none where nothing is mapped. -/
def pageEntry (d : Dev) (dva : Nat) : Option Nat :=
  (d.pails.table.find? fun e => e.2.dva ≤ dva && dva < e.2.dva + e.2.size && e.2.importing.isNone).map fun e => e.2.entry ((dva - e.2.dva) / e.2.pageSize)

/-- The address of an entry: bits [63:12]. -/
def entryAddr (entry : Nat) : Nat := entry / 4096 * 4096

/-- The pail of a handle while its translation lasts: live or withering (R428). -/
def mappedPail (d : Dev) (h : Nat) : Option (Nat × Pail) :=
  (mapGet d.pails.table (h % 2 ^ 24)).bind fun p => if p.gen = h / 2 ^ 24 then some (h % 2 ^ 24, p) else none

/-- Splits a run of a pail into pieces that each lie in one 64 KiB page. -/
def pageSplit : Nat → Nat → Nat → List (Nat × Nat)
  | 0, _, _ => []
  | fuel + 1, off, n =>
    if n = 0 then []
    else
      let k := min n (0x10000 - off % 0x10000)
      (off, k) :: pageSplit fuel (off + k) (n - k)

/-- The pieces of a run. -/
def pieces (off n : Nat) : List (Nat × Nat) := pageSplit (n / 0x10000 + 2) off n

/-- Reads bytes of a pail. -/
def pailRead (d : Dev) (h off n : Nat) : List Byte :=
  match mappedPail d h with
  | none => List.replicate n 0
  | some (_, p) => (pieces off n).flatMap fun e =>
      memRead (if p.host then d.pails.hostMem else d.hbm.mem) (p.addr e.1) e.2

/-- A line that a write covers whole loses its poison (R405). -/
def unpoison (a n : Nat) (l : List Nat) : List Nat := l.filter fun x => !(a ≤ x * 64 && x * 64 + 64 ≤ a + n)

/-- Writes bytes at a device physical address (R405). -/
def hbmWrite (a : Nat) (bs : List Byte) (d : Dev) : Dev :=
  d.onHbm fun m => { m with mem := memWrite m.mem a bs, poison := unpoison a bs.length m.poison }

/-- Writes bytes at a host bus address. -/
def hostWrite (a : Nat) (bs : List Byte) (d : Dev) : Dev :=
  d.onPails fun t => { t with hostMem := memWrite t.hostMem a bs }

/-- Writes bytes of a pail. A write to a host pail whose WRITE was cleared is dropped and counted (R427). -/
def pailWrite (h off : Nat) (bs : List Byte) (d : Dev) : Dev :=
  match mappedPail d h with
  | none => d
  | some (i, p) =>
    if p.host && !p.writable then count (pailKey i) 0 1 d
    else (pieces off bs.length).foldl (fun d e =>
      let b := (bs.drop (e.1 - off)).take e.2
      if p.host then hostWrite (p.addr e.1) b d else hbmWrite (p.addr e.1) b d) d

/-- Some line of a run of an HBM pail is poisoned. -/
def pailPoisoned (d : Dev) (h off n : Nat) : Bool :=
  match mappedPail d h with
  | none => false
  | some (_, p) => !p.host && (pieces off n).any fun e =>
      d.hbm.poison.any fun l => p.addr e.1 < l * 64 + 64 && l * 64 < p.addr e.1 + e.2

/-- The handle's pail is in host memory. -/
def pailHost (d : Dev) (h : Nat) : Bool := match mappedPail d h with
  | some (_, p) => p.host
  | none => false

/-- PAIL_FAULT of an engine's access (R431): each fault counts, and at most one event a pail is raised in 10 ms. Outcomes: 0
concealed, 1 retry queued, 2 underrun, 3 dropped, 4 DMA stopped. -/
def pailFault (engine kind outcome dva h cls : Nat) (d : Dev) : Dev :=
  let d := d.onPails fun t => { t with faults := min (t.faults + 1) (2 ^ 32 - 1) }
  match mappedPail d h with
  | none => raise 0x0E81 2 0 (le 2 engine ++ le 1 kind ++ le 1 outcome ++ le 6 dva ++ le 4 h ++ le 1 cls) d
  | some (i, p) =>
    let d := count (pailKey i) 1 1 d
    let quiet : Bool := match p.lastFault with
      | some t => d.now < t + 10000000
      | none => false
    if quiet then d
    else
      let d := d.onPails fun t => { t with table := mapSet t.table i { p with lastFault := some d.now } }
      raise 0x0E81 2 (keyObj (pailKey i)) (le 2 engine ++ le 1 kind ++ le 1 outcome ++ le 6 dva ++ le 4 h ++ le 1 cls) d

/-- The code of a fault's kind (R431). -/
def faultKind : AccessFault → Nat
  | .unmapped => 0
  | .readOnly => 1
  | .hostFailed => 2
  | .poison => 3

end Sys2Proof.Machine
end

