-- ==== Sys2Proof/Machine/Grid.lean ====
section
/-! DEFINITION. Frame grids (R339), raster phase and line bounds (R312, R313, R320), and the packets of a video
sender (R365, R366). -/

namespace Sys2Proof.Machine

/-- The first point at or after a time of a domain's grid at a frame rate (R339). TD4's points lie at GENLOCK_F pulses
displaced by f_offset_ns, spaced by the measured period where the rate is the domain's own; before the first pulse, and on
every other domain, point n lies at floor(n × den × 10^9 ÷ num). -/
def gridFrom (d : Dev) (td t num den : Nat) : Nat :=
  let dm := d.domain td
  let n := t * num / (den * 1000000000)
  let f := fun k => k * den * 1000000000 / num
  let plain := if f n ≥ t then f n else if f (n + 1) ≥ t then f (n + 1) else f (n + 2)
  match dm.gridPulse with
  | some g =>
    if td = 4 then
      let o : Int := (g : Int) + d.time.genlock.fOffsetNs
      let own : Bool := num = dm.rateNum && den = dm.rateDen && dm.gridPeriod ≠ 0
      let p := if own then dm.gridPeriod else den * 1000000000 / num
      (o + ((((t : Int) - o + p - 1) / p) * p)).toNat
    else plain
  | none => plain

/-- The first grid point of a domain at or after a time of that domain, at the domain's frame rate. -/
def nextGrid (d : Dev) (td t : Nat) : Nat := gridFrom d td t (d.domain td).rateNum (d.domain td).rateDen

/-- The domain of a stream's stamps (Table 5.8; a playback stream follows its decoder). -/
def streamDomain (d : Dev) (n : Nat) : Nat :=
  if n < 16 then (match furrowOf d n with
    | some (_, c) => c.domain
    | none => 5)
  else (match playbackDecoder d n with
    | some (_, q) => q.domain
    | none => 5)

/-- The line time that admission counts with, in ns (R320): measured on the latest delivered frame since
FURROW_START, or min_period_ns ÷ height. -/
def streamLineTime (d : Dev) (n : Nat) : Rat :=
  match furrowOf d n with
  | some (i, c) =>
    let f := d.furrow i
    if f.deliveredSinceStart && f.lineTimeNs ≠ 0 then (f.lineTimeNs : Rat)
    else ((d.stream n).minPeriod : Rat) / (c.height : Rat)
  | none => match srcSize d n with
    | some (_, h) => ((d.stream n).minPeriod : Rat) / (h : Rat)
    | none => 0

/-- The source row of output row `v` of a branch: floor(y_src) (R217, R219); in 4:2:0 both rows of a pair belong
to the lower one. -/
def branchSrcRow (b : BranchSet) (w h v : Nat) : Nat :=
  let c := b.crop w h
  let v := if b.format / 16 = 4 then v / 2 * 2 + 1 else v
  let y : Rat := (c.2.1 : Rat) + ((v : Rat) + 1 / 2) * (c.2.2.2 : Rat) / (b.outH : Rat) - 1 / 2
  y.floor.toNat

/-- The tile-row that holds output row `v` of a branch (R219). -/
def branchTileRow (b : BranchSet) (w h v : Nat) : Nat := min (branchSrcRow b w h v / 128) (tilesH h - 1)

/-- T_rel of output row `v` of a branch of stream `n`, in ns after SOF (R320): row N stamps N + 1 line times after
SOF. -/
def tRel (d : Dev) (n : Nat) (b : BranchSet) (v : Nat) : Rat :=
  match srcSize d n with
  | some (w, h) => ((releaseRow h (branchTileRow b w h v) + 1 : Nat) : Rat) * streamLineTime d n
  | none => 0

/-- x modulo p for a positive p. -/
def ratMod (x p : Rat) : Rat := if p = 0 then x else x - ((x / p).floor : Rat) * p

/-- Φ of a raster over a stream, in ns (R312). -/
def rasterPhase (d : Dev) (r : Raster) (n : Nat) : Rat :=
  if r.timing.refStream = 0x2000 + n then (r.timing.phaseNs : Rat)
  else match (d.stream n).lastSof with
    | some s => ratMod ((r.gridBase : Rat) - (s : Rat)) r.timing.period
    | none => (r.timing.phaseNs : Rat)

/-- The branch a plane shows, with its stream. -/
def planeBranch (d : Dev) (p : PlaneSet) : Option (Nat × BranchSet) :=
  if p.mode ≠ 0 && p.sourceKind = 0 then some ((branchOf p.source).1, branchSet d p.source) else none

/-- The size of a plane's source. -/
def planeSource (d : Dev) (p : PlaneSet) : Nat × Nat :=
  match p.sourceKind with
  | 0 => let b := branchSet d p.source; (b.outW, b.outH)
  | 1 => (p.srcW, p.srcH)
  | _ => let i := tabGet d.display.sdiIn p.source; (i.width, i.height)

/-- A plane's crop with zeros resolved (Table 13.5). -/
def planeCrop (d : Dev) (p : PlaneSet) : Nat × Nat × Nat × Nat :=
  let s := planeSource d p
  (p.cropX, p.cropY, if p.cropW = 0 then s.1 - p.cropX else p.cropW, if p.cropH = 0 then s.2 - p.cropY else p.cropH)

/-- The format of a plane's source. -/
def planeFormat (d : Dev) (p : PlaneSet) : Nat :=
  match p.sourceKind with
  | 0 => (branchSet d p.source).format
  | 1 => p.format
  | _ => 0x30

/-- The smallest and the largest Δ(ℓ) of a sync plane, in ns (R320). -/
def planeDelta (d : Dev) (r : Raster) (p : PlaneSet) : Option (Nat × Rat × Rat) :=
  match planeBranch d p with
  | some (n, b) =>
    if p.mode = 1 then
      let c := planeCrop d p
      let ds := (List.range c.2.2.2).map fun i => r.timing.out (p.dstY + i) - tRel d n b (c.2.1 + i)
      match ds with
      | [] => none
      | x :: l => some (n, l.foldl min x, l.foldl max x)
    else none
  | none => none

/-- A sync plane meets R320; otherwise Φ plus the smallest Δ. -/
def planeLineCheck (d : Dev) (r : Raster) (p : PlaneSet) : Option Rat :=
  match planeDelta d r p with
  | some (n, lo, hi) =>
    let v := rasterPhase d r n + lo
    if v ≥ 2200000 && hi ≤ 2200000 then none else some v
  | none => none

/-! ## Senders -/

/-- Bytes and pixels of a pgroup (R365). -/
def pgroup (format : Nat) : Nat × Nat :=
  if format / 16 = 3 then (if format % 16 = 0 then (5, 2) else (6, 2))
  else (if format % 16 = 0 then (15, 4) else (9, 2))

/-- The picture a video sender sends: width, height, format. -/
structure SendSource where
  w : Nat := 0
  h : Nat := 0
  format : Nat := 0x30
  period : Rat := 0
  activeNum : Nat := 0
  activeDen : Nat := 1
  tro : Rat := 0
  deriving DecidableEq, Repr, Inhabited

/-- What an ST 2110-20 flow sends (Table 15.2, R365): a branch or a raster. -/
def sendSource (d : Dev) (f : Flow) : Option SendSource :=
  match objType f.bindObject with
  | 0x3 =>
    let b := branchSet d f.bindObject
    some { w := b.outW, h := b.outH, format := b.format, period := ((d.stream (branchOf f.bindObject).1).minPeriod : Rat)
           activeNum := f.config.ractiveNum, activeDen := f.config.ractiveDen, tro := (f.config.delay : Rat) }
  | 0x4 =>
    let r := d.raster (objIndex f.bindObject)
    let o := r.outputs.headD {}
    some { w := r.timing.hActive, h := r.timing.vActive
           format := (if o.sampling = 1 then 0x30 else 0x10) + (if o.depth = 12 then 1 else 0)
           period := r.timing.period, activeNum := r.timing.vActive, activeDen := r.timing.vTotal, tro := r.timing.out 0 }
  | _ => none

/-- pgroups of a line. -/
def SendSource.lineGroups (s : SendSource) : Nat := ceilDiv s.w (pgroup s.format).2

/-- pgroups of a packet. -/
def packetGroups (s : SendSource) (maxPayload : Nat) : Nat := max 1 (maxPayload / (pgroup s.format).1)

/-- N, packets of a frame (R365). -/
def framePackets (s : SendSource) (maxPayload : Nat) : Nat := ceilDiv (s.lineGroups * s.h) (packetGroups s maxPayload)

/-- T_RS in ns: computed in units of 2^−16 ns (R365). -/
def packetGap (s : SendSource) (n : Nat) : Rat :=
  let x : Rat := s.period * (s.activeNum : Rat) / ((max 1 s.activeDen * max 1 n : Nat) : Rat)
  ((x * 65536).floor : Rat) / 65536

/-- The launch of packet `k` after base, in ns. -/
def launchOf (s : SendSource) (n k : Nat) : Rat := s.tro + (k : Rat) * packetGap s n

/-- The last packet that carries line `l`. -/
def lastPacketOf (s : SendSource) (maxPayload l : Nat) : Nat :=
  ceilDiv ((l + 1) * s.lineGroups) (packetGroups s maxPayload) - 1

/-- A sender of a class L branch meets R366; otherwise required and available in ns. -/
def flowLineCheck (d : Dev) (f : Flow) : Option (Rat × Rat) :=
  if f.config.essence = 0 && objType f.bindObject = 0x3 then
    let b := branchSet d f.bindObject
    let n := (branchOf f.bindObject).1
    if b.cls = 0 then
      match sendSource d f with
      | some s =>
        let k := framePackets s f.config.maxPayload
        let ds := (List.range s.h).map fun l => launchOf s k (lastPacketOf s f.config.maxPayload l) - tRel d n b l
        match ds with
        | [] => none
        | x :: l =>
          let lo := l.foldl min x
          let hi := l.foldl max x
          if lo < 1650000 then some (1650000, lo) else if hi > 2200000 then some (2200000, hi) else none
      | none => none
    else none
  else none

/-- Bytes of headers before a packet's payload: RTP, UDP and IP (R362). -/
def ipHeader (c : FlowConfig) : Nat := 12 + 8 + (if c.ipv6 then 40 else 20)

/-- Speed of an Ethernet port in Mbit/s (Table 15.3). -/
def portMbps (speed : Nat) : Nat :=
  match speed with
  | 1 => 10000
  | 2 => 25000
  | 3 => 50000
  | 4 => 100000
  | 5 => 1000
  | _ => 0

/-- Sample rate in Hz of a rate code (Table 16.4). -/
def rateHz (code : Nat) : Nat := [32000, 44100, 48000, 88200, 96000, 176400, 192000].getD code 48000

/-- The frame period of a JPEG XS session's source, in ns: its stream's, or its decoder's. -/
def xsPeriod (d : Dev) (x : XsConfig) : Nat := match xsSource d x with
  | some s => match s.stream with
    | some n => (d.stream n).minPeriod
    | none => ((mapGet d.codecs.decoders (objIndex x.source)).map (·.periodNs)).getD 0
  | none => 0

/-- Packets a second and bytes of a packet of a sender (R362, R365). -/
def flowPackets (d : Dev) (f : Flow) : Rat × Nat :=
  let c := f.config
  match c.essence with
  | 0 => match sendSource d f with
    | some s =>
      let n := framePackets s c.maxPayload
      let g := packetGroups s c.maxPayload
      let sdr := if s.lineGroups % g = 0 then 8 else 14
      (if s.period = 0 then 0 else (n : Rat) * 1000000000 / s.period, g * (pgroup s.format).1 + sdr + ipHeader c)
    | none => (0, 0)
  | 1 => match mapGet d.codecs.encoders (objIndex f.bindObject) with
    | some e =>
      let p := xsPeriod d e.xs
      if p = 0 then (0, 0) else ((ceilDiv e.xs.budget c.maxPayload : Rat) * 1000000000 / (p : Rat), c.maxPayload + 4 + ipHeader c)
    | none => (0, 0)
  | 2 =>
    let hz := if bit c.audioFormat 0 then 96000 else 48000
    let pps := if bit c.audioFormat 2 then 8000 else 1000
    let sz := if bit c.audioFormat 1 then 2 else 3
    let n : Nat := c.channels * sz * (hz / pps) + ipHeader c
    ((pps : Rat), n)
  | _ =>
    let dm := d.domain c.domain
    (((dm.rateNum : Rat) / (dm.rateDen : Rat)), c.maxPayload + ipHeader c)

/-- A flow's wire rate in Mbit/s on a port (R362). -/
def wireRate (d : Dev) (f : Flow) (port : Nat) : Rat :=
  let p := flowPackets d f
  let vlan := if (tabGet d.net.ports port).vlan ≠ 0 then 4 else 0
  p.1 * ((p.2 + 38 + vlan : Nat) : Rat) * 8 / 1000000

end Sys2Proof.Machine
end

