-- ==== Sys2Proof/Machine/Load.lean ====
section
/-! DEFINITION. The load of a configuration and the admission tests (R38 to R46, R129, R196, R238, R253, R256,
R288, R296, R319, R320, R362, R366, R424, R436, R466). Demands are exact. -/

namespace Sys2Proof.Machine

/-- Traffic of an engine: bytes per second to or from a pail; pail 0 is frame memory that has no handle. -/
structure Traffic where
  pail : Nat := 0
  isWrite : Bool := false
  rate : Rat := 0
  deriving DecidableEq, Repr, Inhabited

/-- A demand on a local capacity. -/
structure LocalNeed where
  res : Nat := 0
  obj : Nat := 0
  amount : Rat := 0
  cap : Rat := 0
  deriving DecidableEq, Repr, Inhabited

/-- A class L tine session for R256: its object and the time of its largest job in reference µs. -/
structure LiveTine where
  obj : Nat := 0
  job : Rat := 0
  deriving DecidableEq, Repr, Inhabited

/-- What one stream or session asks for, in the units of Table 2.4. -/
structure Demand where
  drill : Rat := 0
  harrow : Rat := 0
  tine : Rat := 0
  fetch : Rat := 0
  ingest : Rat := 0
  nand : Rat := 0
  pool : Nat := 0
  intake : Rat := 0
  traffic : List Traffic := []
  deriving DecidableEq, Repr, Inhabited

/-- The sum of two demands. -/
def Demand.add (a b : Demand) : Demand :=
  { drill := a.drill + b.drill, harrow := a.harrow + b.harrow, tine := a.tine + b.tine, fetch := a.fetch + b.fetch
    ingest := a.ingest + b.ingest, nand := a.nand + b.nand, pool := a.pool + b.pool, intake := a.intake + b.intake
    traffic := a.traffic ++ b.traffic }

/-- Everything admission tests (Table 2.4): the demand, local needs, class L jobs per field and the longest, the
harrow's n_h, streams with class L statistics, class L tine jobs, lines that miss R320 or R366, whether class L work
is admitted, and the sums of R436. -/
structure Load where
  dem : Demand := {}
  locals : List LocalNeed := []
  liveJobs : List Nat := List.replicate 12 0
  longest : Nat := 0
  nh : Nat := 0
  liveStats : List (Nat × List Nat) := []
  liveTines : List LiveTine := []
  liveCount : Nat := 0
  blockTine : Rat := 0
  lines : List (Nat × Rat × Rat) := []
  live : Bool := false
  movers : Rat := 0
  hostRead : Rat := 0
  hostWrite : Rat := 0
  hbm : Rat := 0
  ports : List Rat := []
  deriving DecidableEq, Repr, Inhabited

/-- Frames per second of a period in ns. -/
def perSecond (period : Nat) : Rat := if period = 0 then 0 else 1000000000 / (period : Rat)

/-- A rate with halo (Table 2.14): a tile of 32,768 photosites reads 42,560. -/
def withHalo (n : Nat) : Rat := (n : Rat) * 42560 / 32768

/-! ## One stream -/

/-- Distinct LUT slots that enabled branches of a stream select, in bytes per frame period (R215). -/
def lutBytes (st : Stream) : Nat :=
  let on := st.settings.branches.filter (·.enable)
  let ones := ((on.filterMap (·.pre)) ++ (on.filterMap (·.post))).dedup
  let threes := (on.filterMap (·.lut3)).dedup
  sumOf (fun s => if (tabGet st.luts.lut1 s).channels = 3 then 589824 else 196608) ones + 19773000 * threes.length

/-- The demand of stream `n` alone (R38, Tables 2.4 and 2.14). -/
def streamDemand (d : Dev) (n : Nat) : Demand :=
  let st := d.stream n
  let s := st.settings
  match srcSize d n with
  | none => {}
  | some (w, h) =>
    if st.minPeriod = 0 then {} else
    let r := perSecond st.minPeriod
    let plan := planOf d n s
    let drills : Bool := s.drills
    let tiles := tilesW w * tilesH h
    let time := if drills then plan.chain + sumOf (fun j => j.1) plan.spills else 0
    let spills := plan.spills.length
    let t := fun (pail : Nat) (wr : Bool) (b : Rat) => ({ pail, isWrite := wr, rate := b * r } : Traffic)
    let outs :=
      (s.branches.filter (·.enable)).map (fun b => t b.pail true (b.outW * b.outH * formatBytes b.format : Nat))
      ++ (if spills = 0 then [] else [t 0 true (262144 * tiles : Nat), t 0 false (262144 * tiles * spills : Nat)])
      ++ [t 0 false (lutBytes st : Nat)]
    let pool := if spills = 0 then 0 else (1 + classB (spillClass s plan)) * tiles * 262144
    let common : Demand :=
      { drill := (tiles * time : Nat) * 1000000 / (300 * (st.minPeriod : Rat)), pool, traffic := outs }
    match furrowOf d n with
    | none =>
      let q := match playbackDecoder d n with
        | some (_, q) => (q.pail, chromaBytes (profileChroma q.codec q.profile))
        | none => (0, 4)
      if drills then common.add { traffic := [t q.1 false (withHalo (w * h * q.2))] } else common
    | some (_, c) =>
      let plane := rawRowBytes w c.depthBits * h
      let raw := plane * c.planes
      let field := fieldBytes w h
      let taps := (s.taps.filter (·.enable)).map fun p =>
        let k := p.crop w h
        let planes := if p.format ≥ 2 then 1 else c.planes
        t p.pail true (tapStride p.format k.2.2.1 c.depthBits * k.2.2.2 * planes : Nat)
      common.add
        { harrow := if s.motion.enable then (w * h : Nat) * 1000 / (st.minPeriod : Rat) else 0
          ingest := (raw : Rat) * r / 1000000
          intake := (w * h * c.depthBits * c.planes : Nat) * r / 1000000
          pool := (if s.motion.enable then 2 * pyramidBytes w h + 2 * field else 0)
            + (if s.raw.tnr.enable then 2 * (w * h * 2 * c.planes) else 0)
          traffic :=
            [t c.pail true (raw : Nat)] ++ (if drills then [t c.pail false (withHalo raw)] else [])
            ++ (if s.motion.enable then
                [t c.pail false (plane : Nat), t 0 true (pyramidBytes w h : Nat), t 0 false (2 * pyramidBytes w h : Nat),
                 t 0 true (field : Nat), t 0 false (2 * field : Nat)] else [])
            ++ (if s.motion.exportOn then [t 0 false (field : Nat), t s.motion.exportPail true (field : Nat)] else [])
            ++ (if s.raw.tnr.enable && drills then
                [t 0 false (withHalo (w * h * 2 * c.planes)), t 0 true (w * h * 2 * c.planes : Nat)] else [])
            ++ (if s.stats.enable then [t s.stats.pail true (statsSlot : Nat)] else [])
            ++ taps }

/-- Links of a CSI-2 source. -/
def LaneEntry.link (e : LaneEntry) : Nat := e.source / 16

/-- Data lanes of a link: n_l (Table 5.8). -/
def FurrowConfig.linkLanes (c : FurrowConfig) (l : Nat) : Nat := bits c.csiLanes (2 * l + 1) (2 * l) + 1

/-- FURROW_INTAKE capacity of a furrow in Mbit/s (R15, R114). -/
def intakeCap (f : Furrow) (c : FurrowConfig) : Rat :=
  if c.mode = 0 then (if f.ganged then 352800 else 176400)
  else
    let links := ((tabGet f.maps f.mapInUse).map LaneEntry.link).dedup
    let lanes := sumOf c.linkLanes links
    min ((9 : Rat) / 10 * (c.laneMbps : Rat) * (lanes : Rat)) (if f.ganged then 259200 else 129600)

/-- A stream's load counts: it is admitted, or released with jobs still running (R47). -/
def streamCounts (d : Dev) (n : Nat) : Bool := (d.stream n).admission ≠ .out

/-- The fields that take a stream's class L jobs for one tile-row, with the number each takes (R30, R41). -/
def liveJobsOf (d : Dev) (n : Nat) : List Nat × Nat :=
  let s := (d.stream n).settings
  match srcSize d n with
  | none => (List.replicate 12 0, 0)
  | some (w, _) =>
    let p := planOf d n s
    let live := p.spills.countP fun j => branchesClass s j.2 = 0
    let per := boolNat (s.drills && chainClass s p = 0) + live
    let cols := fun f => (List.range (tilesW w)).countP fun c => (c + n) % 12 = f
    if per = 0 then (List.replicate 12 0, 0)
    else ((List.range 12).map fun f => per * cols f, p.chain + maxOf (fun j => j.1) p.spills)

/-! ## Sessions, rasters, flows, recordings, channels -/

/-- The period that an encoder session works at; none while its source does not run. -/
def encoderPeriod (d : Dev) (e : Encoder) : Option Nat :=
  if !e.configured then none
  else if e.codec = 0 && e.xs.sourceKind = 3 then (mapGet d.codecs.decoders (objIndex e.xs.source)).map (·.periodNs)
  else
    let n := if e.codec = 0 then (if e.xs.sourceKind = 2 then (branchOf e.xs.source).1 else objIndex e.xs.source)
      else (branchOf e.enc.source).1
    if streamCounts d n && (d.stream n).minPeriod ≠ 0 then some (d.stream n).minPeriod else none

/-- The class of a session. -/
def Encoder.cls (e : Encoder) : Nat := if e.codec = 0 then e.xs.cls else e.enc.cls

/-- The pail that a JPEG XS session reads. -/
def xsSourcePail (d : Dev) (x : XsConfig) : Nat :=
  match x.sourceKind with
  | 0 => match furrowOf d (objIndex x.source) with
    | some (_, c) => c.pail
    | none => 0
  | 1 => (tabGet (d.stream (objIndex x.source)).settings.taps x.tapPoint).pail
  | 2 => (branchSet d x.source).pail
  | _ => match mapGet d.codecs.decoders (objIndex x.source) with
    | some q => q.pail
    | none => 0

/-- The largest job of an encoder session in reference µs (R253, R276, R278); with the wavefront lag of a class L
HEVC session when `lag`. -/
def encoderJob (d : Dev) (e : Encoder) (lag : Bool) : Rat :=
  if e.codec = 0 then
    match xsSource d e.xs with
    | some s => encodeTime 0 s.chroma (s.w * min e.xs.sliceRows s.h)
    | none => 0
  else
    let b := branchSet d e.enc.source
    let z := codedSize e.enc b.outW b.outH
    let n := largestSegment e.codec e.enc z.1 z.2
    let ctu := ctuSize 1 e.enc * ctuSize 1 e.enc
    encodeTime e.codec (profileChroma e.codec e.enc.profile) (n + (if e.codec = 1 && lag then 2 * ctu else 0))

/-- The demand of encoder session `i` (R253, R267, R276, R288). -/
def encoderDemand (d : Dev) (e : Encoder) : Demand :=
  match encoderPeriod d e with
  | none => {}
  | some p =>
    let r := perSecond p
    if e.codec = 0 then
      match xsSource d e.xs with
      | some s =>
        { tine := (countedTwice s.chroma (s.w * s.h) : Rat) * r / 80000000
          traffic := [{ pail := xsSourcePail d e.xs, rate := (s.srcBytes : Rat) * r },
                      { pail := e.xs.pail, isWrite := true, rate := (e.xs.budget : Rat) * r }] }
      | none => {}
    else
      let b := branchSet d e.enc.source
      let z := codedSize e.enc b.outW b.outH
      let n : Rat := (z.1 * z.2 : Nat) * (if e.enc.profile = 4 then 3 / 2 else 1)
      let bytes := z.1 * z.2 * chromaBytes (profileChroma e.codec e.enc.profile)
      { tine := n * r / (if e.codec = 1 then 8000000 else 4000000)
        traffic := [{ pail := b.pail, rate := (bytes : Rat) * r },
                    { pail := e.enc.pail, rate := (3 * bytes : Nat) * r },
                    { pail := e.enc.pail, isWrite := true, rate := (bytes : Rat) * r },
                    { pail := e.enc.pail, isWrite := true, rate := (e.consumers.length * e.rc.maxKbps * 125 : Nat) },
                    { pail := e.enc.pail, rate := (e.consumers.length * e.rc.maxKbps * 125 : Nat) }] }

/-- The demand of a decoder session (R296). -/
def decoderDemand (q : Decoder) : Demand :=
  let r := perSecond q.periodNs
  let px := q.maxWidth * q.maxHeight
  let c := profileChroma q.codec q.profile
  let n : Rat := (px : Rat) * (if (if q.codec = 0 then c = 2 else q.profile = 4) then 3 / 2 else 1)
  let bytes := px * chromaBytes c
  let kb : Rat := (q.maxKbps * 125 : Nat)
  { tine := n * r / (match q.codec with
      | 0 => 20000000
      | 1 => 4000000
      | _ => 2000000)
    traffic := [{ pail := q.pail, isWrite := true, rate := (bytes : Rat) * r },
                { pail := q.pail, rate := (if q.codec = 0 then 0 else (4 * bytes : Nat)) * r },
                { pail := q.pail, isWrite := true, rate := kb }, { pail := q.pail, rate := kb }] }

/-- The largest decode job in reference µs (R295): one CTU row, one macroblock-row pair, or the largest slice. -/
def decoderJob (q : Decoder) : Rat :=
  let c := profileChroma q.codec q.profile
  match q.codec with
  | 0 => min (524288 * 2 / 625) (decodeTime 0 c (q.maxWidth * q.maxHeight))
  | 1 => decodeTime 1 c (q.maxWidth * min 64 q.maxHeight)
  | _ => decodeTime 2 c (q.maxWidth * min 32 q.maxHeight)

/-- The pail that a raster plane fetches from. -/
def planePail (d : Dev) (p : PlaneSet) : Nat :=
  match p.sourceKind with
  | 0 => (branchSet d p.source).pail
  | 1 => p.pail
  | _ => (tabGet d.display.sdiIn p.source).pail

/-- Bytes per second that a plane fetches (R319). -/
def planeFetch (d : Dev) (r : Raster) (p : PlaneSet) : Rat :=
  if p.mode = 0 then 0
  else
    let c := planeCrop d p
    (c.2.2.1 * c.2.2.2 * formatBytes (planeFormat d p) : Nat) * 1000000000 / r.timing.period

/-- The demand of a running raster (R319). -/
def rasterDemand (d : Dev) (r : Raster) : Demand :=
  if !r.running then {}
  else
    { fetch := sumRat (planeFetch d r) r.planes / 1000000
      traffic := r.planes.map fun p => { pail := planePail d p, rate := planeFetch d r p } }

/-- The pail that a sender reads, and its bytes per second; for a receiver the pail it writes (R362). -/
def flowTraffic (d : Dev) (k : Nat) (f : Flow) : Traffic :=
  if k ≥ 64 then
    let c := f.config
    match c.essence with
    | 0 => { pail := c.pail, isWrite := true
             rate := (c.width * c.height * formatBytes c.videoFormat : Nat) * perSecond c.periodNs }
    | 3 => { pail := c.pail, isWrite := true, rate := 4096 * perSecond c.periodNs }
    | _ => {}
  else
    match f.config.essence with
    | 0 => if objType f.bindObject = 0x3 then
        let b := branchSet d f.bindObject
        { pail := b.pail
          rate := (b.outW * b.outH * formatBytes b.format : Nat) * perSecond (d.stream (branchOf f.bindObject).1).minPeriod }
      else {}
    | 1 => match mapGet d.codecs.encoders (objIndex f.bindObject) with
      | some e => match encoderPeriod d e with
        | some p => { pail := e.xs.pail, rate := (e.xs.budget : Rat) * perSecond p }
        | none => {}
      | none => {}
    | 3 => if f.bindKind = 2 then
        let dm := d.domain f.config.domain
        { pail := f.bindPail, rate := 4096 * (dm.rateNum : Rat) / (dm.rateDen : Rat) }
      else {}
    | _ => {}

/-- The class of a sender: its source's; audio and ancillary sends are class L (Table 2.3). -/
def flowClass (d : Dev) (f : Flow) : Nat :=
  match f.config.essence, objType f.bindObject with
  | 0, 0x3 => (branchSet d f.bindObject).cls
  | 1, _ => match mapGet d.codecs.encoders (objIndex f.bindObject) with
    | some e => e.cls
    | none => 0
  | _, _ => 0

/-- The largest padded bytes of a track in one record (R466). -/
def trackBytes (d : Dev) (period : Nat) (t : Track) : Nat :=
  match t.kind with
  | 3 => match mapGet d.codecs.encoders (objIndex t.source) with
    | some e => roundUp e.xs.budget 4096
    | none => t.maxBytes
  | 4 => match mapGet d.codecs.encoders (objIndex t.source) with
    | some e => roundUp (frameBytes e.rc.maxKbps period) 4096
    | none => t.maxBytes
  | _ => t.maxBytes

/-- NAND_WRITE of a recording in bytes per second (R466). -/
def recordingRate (d : Dev) (r : Recording) : Rat :=
  if r.full then 0
  else (4096 + sumOf (trackBytes d r.periodNs) r.tracks : Nat) * perSecond r.periodNs

/-- Fewest dies on any channel (R466). -/
def fewestDies (p : Pack) : Nat := p.dies.foldl min (p.dies.headD 0)

/-- Share of free acres in 0.01 % (R461): acres erased and ready, of the good acres. -/
def freeShare (p : Pack) : Nat := if p.good = 0 then 0 else p.free * 10000 / p.good

/-- NAND_WRITE capacity in MB/s (R466). -/
def nandCapacity (d : Dev) : Nat :=
  if d.mag.state = .mounted && d.mag.pack.formatted && freeShare d.mag.pack ≥ 800 && !d.mag.worn then
    min 24000 (3000 * fewestDies d.mag.pack)
  else 0

/-- Pails that the queued sheaves of a channel address, by side. A cap is charged to HBM_BW once for each side in
frame memory (R436); before any sheaf names a side it is taken to lie there. -/
def channelTraffic (d : Dev) (c : Channel) : List Traffic :=
  if c.cls = 3 || c.rateMbps = 0 then []
  else
    let ds := c.sheaves.flatMap (·.descriptors)
    let src := (ds.map (·.src)).filter (· ≠ 0)
    let dst := (ds.map (·.dst)).filter (· ≠ 0)
    let b : Rat := (c.rateMbps : Rat) * 1000000
    [{ pail := (src.find? (pailHost d)).getD 0, rate := b }, { pail := (dst.find? (pailHost d)).getD 0, isWrite := true, rate := b }]

/-! ## The whole load -/

/-- Open decoders, with those whose last jobs still run (R47). -/
def allDecoders (d : Dev) : List Decoder := d.codecs.decoders.map (·.2)

/-- The load of a whole configuration. -/
def loadOf (d : Dev) : Load :=
  let ns := (List.range 24).filter (streamCounts d)
  let encs := d.codecs.encoders
  let decs := allDecoders d
  let running := (indexed d.display.rasters).filter fun e => e.2.running
  let flows := d.net.flows.filter fun e => e.2.running
  let chans := d.dma.channels
  let dem := (ns.map (streamDemand d) ++ encs.map (fun e => encoderDemand d e.2) ++ decs.map decoderDemand
      ++ running.map (fun e => rasterDemand d e.2)).foldl Demand.add {}
  let traffic := dem.traffic ++ flows.map (fun e => flowTraffic d e.1 e.2) ++ chans.flatMap (channelTraffic d)
    ++ d.mag.recordings.map (fun r => { rate := recordingRate d r })
  let inHost := fun (t : Traffic) => t.pail ≠ 0 && pailHost d t.pail
  let live := ns.map fun n => (n, liveJobsOf d n)
  let stats := ns.filter fun n => (d.stream n).settings.stats.enable && (d.stream n).settings.stats.cls = 0
  let busy := encs.filter fun e => (encoderPeriod d e.2).isSome
  let ltines := busy.filter fun e => e.2.cls = 0
  let nh := sumOf (fun n => match srcSize d n with
    | some (w, _) => if (d.stream n).settings.motion.enable && (liveJobsOf d n).2 ≠ 0 then ceilDiv w 2048 else 0
    | none => 0) ns
  let fetch := running.filter fun e => e.2.planes.any fun p => p.mode ≠ 0
  let lineR := running.flatMap fun e => (indexed e.2.planes).filterMap fun p =>
    (planeLineCheck d e.2 p.2).map fun v => (0x4000 + e.1, (2200000 : Rat), v)
  let lineF := flows.filterMap fun e => if e.1 < 64 then (flowLineCheck d e.2).map fun v => (0x8000 + e.1, v) else none
  { dem := { dem with nand := sumRat (recordingRate d) d.mag.recordings / 1000000, traffic := [] }
    locals :=
      (running.map fun e => { res := 4, obj := 0x4000 + e.1, amount := (rasterDemand d e.2).fetch, cap := 12000 })
      ++ ns.filterMap (fun n => match furrowOf d n with
        | some (i, c) => some { res := 10, obj := 0x1000 + i, amount := (streamDemand d n).intake, cap := intakeCap (d.furrow i) c }
        | none => none)
    liveJobs := (List.range 12).map fun f => sumOf (fun e => tabGet e.2.1 f) live
    longest := maxOf (fun e => e.2.2) live
    nh
    liveStats := stats.map fun n => (n, (List.range 12).filter fun f => tabGet (liveJobsOf d n).1 f ≠ 0)
    liveTines := (ltines.map fun e => ({ obj := 0x5000 + e.1, job := encoderJob d e.2 true } : LiveTine))
      ++ (d.codecs.decoders.filter fun q => q.2.cls = 0).map fun q => { obj := 0x6000 + q.1, job := decoderJob q.2 }
    liveCount := ltines.length + decs.countP (fun q => q.cls = 0)
    blockTine := ((busy.filter fun e => e.2.cls ≠ 0).map (fun e => encoderJob d e.2 false)
      ++ (decs.filter fun q => q.cls ≠ 0).map decoderJob).foldl max 0
    lines := lineR ++ lineF
    -- With no stream admitted the step is 0.65 V whatever else runs (R24; DEDUCED: R24's first sentence holds over its second).
    live := !ns.isEmpty && ((live.any fun e => e.2.2 ≠ 0) || !stats.isEmpty || !fetch.isEmpty || !ltines.isEmpty
      || (decs.any fun q => q.cls = 0) || (flows.any fun e => e.1 < 64 && flowClass d e.2 = 0)
      || chans.any fun c => c.cls = 0 && c.rateMbps ≠ 0)
    movers := sumRat (fun c => if c.cls = 3 then 0 else (c.rateMbps : Rat)) chans
    hostRead := sumRat (fun t => if !t.isWrite && inHost t then t.rate / 1000000 else 0) traffic
    hostWrite := sumRat (fun t => if t.isWrite && inHost t then t.rate / 1000000 else 0) traffic
    hbm := sumRat (fun t => if inHost t then 0 else t.rate / 1000000) traffic
    ports := (List.range 4).map fun p => sumRat (fun e =>
      if e.1 < 64 && (e.2.config.macA = p || (e.2.config.dual && e.2.config.macB = p)) then wireRate d e.2 p else 0) flows }

/-- Working drills of a field (R40). -/
def workingDrills (d : Dev) (f : Nat) : Nat :=
  (List.range 32).countP fun i => !(tabGet d.fabric.drills (32 * f + i)).lost

/-- m_f: drills of a field that admission counts (R40). -/
def countedDrills (d : Dev) (f : Nat) : Nat := min 31 (workingDrills d f - 1)

/-- k(V) as a factor. -/
def kRat (mv : Nat) : Rat := (kOf mv : Rat) / 1000

/-- The demand on a resource, in the unit of its replies. -/
def Load.demand (l : Load) (res : Nat) : Rat :=
  match res with
  | 1 => l.dem.drill
  | 2 => l.dem.harrow
  | 3 => l.dem.tine
  | 4 => l.dem.fetch
  | 5 => l.hbm
  | 6 => l.dem.ingest
  | 7 => l.dem.nand
  | 9 => (l.dem.pool : Rat) / 1048576
  | 10 => l.dem.intake
  | _ => 0

/-- The capacity of a resource at a step (Table 2.4). -/
def capacity (d : Dev) (l : Load) (res step : Nat) : Rat :=
  match res with
  | 1 => (sumOf (countedDrills d) (List.range 12) : Rat) * 98 / 100 * kRat step * 1000
  | 2 => 47040 * kRat step
  | 3 => 980 * kRat step
  | 4 => 48000
  | 5 => 1600000
  | 6 => 90000
  | 7 => (nandCapacity d : Rat)
  | 8 => 1500
  | 9 => (poolCapacity d : Rat) / 1048576
  | _ => sumRat (fun n => if n.res = 10 then n.cap else 0) l.locals

/-- A latency so long that no field without counted drills passes. -/
abbrev never : Rat := 1000000000

/-- The latency of a field in µs (R41); none when it has no class L job. -/
def fieldLatency (d : Dev) (l : Load) (step f : Nat) : Option Rat :=
  let n := tabGet l.liveJobs f
  let m := countedDrills d f
  if n = 0 then none
  else some (650 + (if m = 0 then never else (ceilDiv n m : Rat) * ((l.longest : Rat) / 300 / kRat (step - 50))))

/-- The worst field's latency, 0 with no class L job. -/
def worstLatency (d : Dev) (l : Load) (step : Nat) : Rat :=
  ((List.range 12).filterMap (fieldLatency d l step)).foldl max 0

/-- A failed check (Table 2.9). -/
structure Denial where
  res : Nat := 0
  check : Nat := 0
  step : Nat := 0
  obj : Nat := 0
  required : Nat := 0
  available : Nat := 0
  deriving DecidableEq, Repr, Inhabited

/-- A reply value: rounded half up and held to 32 bits. -/
def rep32 (x : Rat) : Nat := min (2 ^ 32 - 1) ((x + 1 / 2).floor.toNat)

/-- A denial from exact values. -/
def denial (res check step obj : Nat) (required available : Rat) : Denial :=
  { res, check, step, obj, required := rep32 required, available := rep32 available }

/-- The first absolute check that fails, in code order (R41, R42). -/
def fixedFailure (d : Dev) (l : Load) (step : Nat) : Option Denial :=
  [4, 5, 6, 7, 9, 10].findSome? fun res =>
    let c := capacity d l res step
    let all := if res ≠ 10 && l.demand res > c then some (denial res 2 step 0 (l.demand res) c) else none
    all.orElse fun _ => l.locals.findSome? fun n =>
      if n.res = res && n.amount > n.cap then some (denial res 2 step n.obj n.amount n.cap) else none

/-- The latency checks of HARROW and TINE (R196, R256). -/
def voltageLatency (l : Load) (step res : Nat) : Option Denial :=
  let k := kRat (step - 50)
  if res = 2 then
    let v := (1 + ceilDiv l.nh 16 : Nat) * (1092 / 100 / k)
    if l.nh ≠ 0 && v > 150 then some (denial 2 3 step 0 v 150) else none
  else if res = 3 then
    l.liveTines.findSome? fun s =>
      let v := l.blockTine / k + (ceilDiv l.liveCount 64 : Nat) * (s.job / k)
      if v > 1000 then some (denial 3 3 step s.obj v 1000) else none
  else none

/-- The first check that depends on the step and fails at it: margin before droop, then latency (R41, R42). -/
def voltageFailure (d : Dev) (l : Load) (step : Nat) : Option Denial :=
  let one := fun (res : Nat) =>
    let x := l.demand res
    let c := capacity d l res step
    let droop := capacity d l res (step - 50)
    if x * 108 / 100 > c then some (denial res 0 step 0 (x * 108 / 100) c)
    else if x > droop then some (denial res 1 step 0 x droop)
    else voltageLatency l step res
  ([1, 2, 3].findSome? one).orElse fun _ =>
    ((List.range 12).findSome? fun f => match fieldLatency d l step f with
      | some v => if v > 1500 then some (denial 8 3 step (0xD800 + f) v 1500) else none
      | none => none).orElse fun _ =>
    (if l.liveStats.isEmpty then none
      else (List.range 12).findSome? fun f => match fieldLatency d l step f with
        | some v =>
          if v + 20 > 1000 then
            let n := ((l.liveStats.find? fun e => f ∈ e.2).orElse fun _ => l.liveStats.head?).getD (0, [])
            some (denial 8 3 step (0x2000 + n.1) (v + 20) 1000)
          else none
        | none => none).orElse fun _ =>
    l.lines.head?.map fun e => denial 8 3 step e.1 (e.2.1 / 1000) (e.2.2 / 1000)

/-- The lowest step that class L work allows (R24). -/
def Load.floorStep (l : Load) : Nat := if l.live then 770 else 650

/-- The first of some steps at which the step-dependent checks pass. -/
def firstPassing (d : Dev) (l : Load) : Nat → Nat → Option Nat
  | 0, _ => none
  | fuel + 1, step =>
    if step > 900 then none
    else if (voltageFailure d l step).isNone then some step
    else firstPassing d l fuel (step + 10)

/-- What one object asks of each resource, as a list: the parts of its demand, its traffic on host memory by direction and on HBM,
and its part of the latency tests. -/
def Demand.figures (d : Dev) (x : Demand) : List Rat :=
  let inHost := fun (t : Traffic) => t.pail ≠ 0 && pailHost d t.pail
  let part := fun (p : Traffic → Bool) => sumRat (fun t => if p t then t.rate else 0) x.traffic
  [x.drill, x.harrow, x.tine, x.fetch, x.ingest, x.nand, (x.pool : Rat), x.intake,
   part fun t => !inHost t, part fun t => inHost t && !t.isWrite, part fun t => inHost t && t.isWrite]

/-- The demand of every object that the load counts, by object ID (R38, R43). -/
def objectFigures (d : Dev) : List (Nat × List Rat) :=
  let nat := fun (l : List Nat) => l.map fun (x : Nat) => (x : Rat)
  let one := fun (t : Traffic) => Demand.figures d { traffic := [t] }
  ((List.range 24).filter (streamCounts d)).map (fun n =>
    let j := liveJobsOf d n
    let s := (d.stream n).settings
    (0x2000 + n, (streamDemand d n).figures d ++ nat (boolNat (s.stats.enable && s.stats.cls = 0) :: j.2 :: j.1)))
  ++ d.codecs.encoders.map (fun e =>
    let job := if (encoderPeriod d e.2).isSome then encoderJob d e.2 (e.2.cls = 0) else 0
    (0x5000 + e.1, (encoderDemand d e.2).figures d ++ (if e.2.cls = 0 then [job, 0] else [0, job])))
  ++ d.codecs.decoders.map (fun q => (0x6000 + q.1, (decoderDemand q.2).figures d ++ (if q.2.cls = 0 then [decoderJob q.2, 0] else [0, decoderJob q.2])))
  ++ (indexed d.display.rasters).map (fun e => (0x4000 + e.1, (rasterDemand d e.2).figures d))
  ++ (d.net.flows.filter fun e => e.2.running).map (fun e =>
    (0x8000 + e.1, one (flowTraffic d e.1 e.2) ++ (if e.1 < 64 then (List.range 4).map (fun p =>
      if e.2.config.macA = p || (e.2.config.dual && e.2.config.macB = p) then wireRate d e.2 p else 0) else [])))
  ++ (indexed d.dma.channels).map (fun e =>
    (0xA000 + e.1, Demand.figures d { traffic := channelTraffic d e.2 } ++ nat [if e.2.cls = 3 then 0 else e.2.rateMbps]))
  ++ d.mag.recordings.map (fun r => (0xB000 + r.reel, one { rate := recordingRate d r }))

/-- Some object asks more of some resource than before (R37, R43). -/
def figuresRise (old new : List (Nat × List Rat)) : Bool :=
  new.any fun e =>
    let was := ((old.find? fun o => o.1 = e.1).map (·.2)).getD []
    (indexed e.2).any fun x => x.2 > was.getD x.1 0

/-- Some demand, local need or latency input of a load is above another's (R43). -/
def Load.rises (old new : Load) : Bool :=
  ([1, 2, 3, 4, 5, 6, 7, 9, 10].any fun r => new.demand r > old.demand r)
  || (new.locals.any fun n => n.amount > (match old.locals.find? fun o => o.res = n.res && o.obj = n.obj with
      | some o => o.amount
      | none => 0))
  || ((List.range 12).any fun f => tabGet new.liveJobs f > tabGet old.liveJobs f)
  || new.longest > old.longest || new.nh > old.nh
  || (new.liveStats.any fun e => old.liveStats.all fun o => o.1 ≠ e.1)
  || (new.liveTines.any fun e => match old.liveTines.find? fun o => o.obj = e.obj with
      | some o => e.job > o.job
      | none => true)
  || new.blockTine > old.blockTine || (new.live && !old.live)
  || new.movers > old.movers || new.hostRead > old.hostRead || new.hostWrite > old.hostWrite
  || ((List.range 4).any fun p => tabGet new.ports p > tabGet old.ports p)
  || (new.lines.any fun e => old.lines.all fun o => o.1 ≠ e.1)

/-- The sums of R436 and the wire rates of R362 that a request raises beyond their limits. -/
def sumRefusal (d : Dev) (old new : Load) : Option Rsp :=
  let f := fun (check : Nat) (a b cap : Rat) =>
    if b > a && b > cap then some (Rsp.noResource 0xA (le 1 check ++ le 3 0 ++ le 4 (rep32 b) ++ le 4 (rep32 cap))) else none
  (f 0 old.movers new.movers 96000).orElse fun _ =>
  (f 1 old.hostRead new.hostRead 24000).orElse fun _ =>
  (f 2 old.hostWrite new.hostWrite 24000).orElse fun _ =>
  (List.range 4).findSome? fun p =>
    let cap : Rat := (portMbps (tabGet d.net.ports p).speed : Rat) * 9 / 10
    let b := tabGet new.ports p
    if b > tabGet old.ports p && b > cap then
      some (Rsp.noResource 8 (le 1 p ++ le 3 0 ++ le 4 (rep32 b) ++ le 4 (rep32 cap)))
    else none

/-- ADMIT_DENIED with the parameters of Table 2.9. -/
def Denial.rsp (x : Denial) : Rsp :=
  { status := 0x0401, detail := x.res
    params := le 2 x.res ++ le 1 x.check ++ le 1 0 ++ le 2 x.step ++ le 2 x.obj ++ le 4 x.required ++ le 4 x.available
      ++ le 4 (x.required - x.available) }

/-- The ten utilisation values of Table 2.8. -/
def utilisation (d : Dev) (l : Load) (step : Nat) : List Nat :=
  (List.range 10).map fun i =>
    let r := i + 1
    let x := if r = 8 then worstLatency d l step else if r ≤ 3 then l.demand r * 108 / 100 else l.demand r
    let c := capacity d l r step
    if x = 0 then 0 else if c = 0 then 10000 else min 10000 (rep32 (x / c * 10000))

/-- What admission answers: a refusal, or the step it selects. -/
inductive Verdict where
  | refuse (r : Rsp)
  | step (mv : Nat)
  deriving DecidableEq, Repr

/-- Some stream is admitted in the new configuration that was not in the old one. -/
def admitsStream (old new : Dev) : Bool :=
  (List.range 24).any fun n => (new.stream n).admission = .admitted && (old.stream n).admission ≠ .admitted

/-- A change of configuration raises the demand of some object, or a sum that a test takes (R43). -/
def configRises (old new : Dev) : Bool :=
  figuresRise (objectFigures old) (objectFigures new) || (loadOf old).rises (loadOf new)

/-- Who asks for an admission test: a command of R43, which is tested where it raises demand; a set with a STREAM_ADMIT, which is
always tested; or a DRY_RUN, which a lapse does not refuse either (R37, R42, R574). -/
inductive AdmitKind where
  | change | request | query
  deriving DecidableEq, Repr, Inhabited

/-- The first check that fails at a step (R41, R42). -/
def failureAt (d : Dev) (l : Load) (step : Nat) : Option Denial :=
  (fixedFailure d l step).orElse fun _ => voltageFailure d l step

/-- Admission of a new configuration (R37, R42, R43, R46). -/
def admitTest (old new : Dev) (noRaise : Bool) (kind : AdmitKind) : Verdict :=
  let lo := loadOf old
  let ln := loadOf new
  let cur := old.fabric.admStep
  let rises := configRises old new
  if kind ≠ .query && old.fabric.lapse.isSome && (rises || admitsStream old new) then .refuse (.busy 2)
  else if kind = .change && !rises then .step cur
  else match sumRefusal new lo ln with
  | some r => .refuse r
  | none =>
    if noRaise then
      match failureAt new ln cur with
      | some x => .refuse x.rsp
      | none => if cur < ln.floorStep then .refuse (denial 11 4 ln.floorStep 0 ln.floorStep cur).rsp else .step cur
    else
      let start := max cur ln.floorStep
      match fixedFailure new ln start with
      | some x => .refuse x.rsp
      | none => match firstPassing new ln 32 start with
        | none => .refuse ((voltageFailure new ln 900).getD {}).rsp
        | some v => .step v

/-- The lowest step that passes every check for a load (Table 2.10); 0xFFFF when none does. -/
def lowestStep (d : Dev) (l : Load) : Nat :=
  if (fixedFailure d l 650).isSome then 0xFFFF else (firstPassing d l 32 l.floorStep).getD 0xFFFF

/-! ## Ring depths (R129) -/

/-- b of a stream's raw ring: the least urgent of the work that reads its raw slots. -/
def rawDepthB (d : Dev) (n : Nat) : Nat :=
  let s := (d.stream n).settings
  let chain := if s.drills then [chainClass s (planOf d n s)] else []
  let encs := d.codecs.encoders.filterMap fun e =>
    if e.2.configured && e.2.codec = 0 && e.2.xs.sourceKind = 0 && e.2.xs.source = 0x2000 + n then some e.2.xs.cls else none
  let recs := if d.mag.recordings.any fun r => r.tracks.any fun t => t.kind = 1 && t.source = 0x2000 + n then [1] else []
  maxOf classB (chain ++ encs ++ recs)

/-- A stream's raw ring is deep enough (R129). -/
def rawDepthOk (d : Dev) (n : Nat) : Bool := match furrowOf d n with
  | some (_, c) => c.depth ≥ 2 + rawDepthB d n
  | none => true

/-- Every counted stream whose raw ring was deep enough still has one that is (R129). -/
def depthsOk (old new : Dev) : Bool :=
  (List.range 16).all fun n => !streamCounts new n || rawDepthOk new n || (streamCounts old n && !rawDepthOk old n)

end Sys2Proof.Machine
end

