-- ==== Sys2Proof/Machine/Rings.lean ====
section
/-! DEFINITION. Slots of rings and who holds them (R129, R224, R263, R287, R299, R317), the jobs of a frame in the
queues of drills, harrows and tines, the withdrawal of a frame (R154), and COMMAND_COMPLETE
(R62). -/

namespace Sys2Proof.Machine

/-- A tap as a source of frames: taps have no object ID of their own. -/
def tapRef (n point : Nat) : Nat := 0x10000 + n * 8 + point

/-- The statistics ring of a stream. -/
def statsRef (n : Nat) : Nat := 0x11000 + n

/-- An SDI input as a source of frames. -/
def sdiRef (i : Nat) : Nat := 0x12000 + i

/-- The output ring that a source reference names. -/
def ringOf (d : Dev) (o : Nat) : OutRing :=
  if o ≥ 0x12000 then (tabGet d.display.sdiIn (o - 0x12000)).ring
  else if o ≥ 0x11000 then (d.stream (o - 0x11000)).statsRing
  else if o ≥ 0x10000 then tabGet (d.stream ((o - 0x10000) / 8)).tapRings ((o - 0x10000) % 8)
  else match objType o with
    | 0x3 => tabGet (d.stream (branchOf o).1).branchRings (branchOf o).2
    | 0x5 => match mapGet d.codecs.encoders (objIndex o) with
      | some e => e.ring
      | none => {}
    | 0x6 => match mapGet d.codecs.decoders (objIndex o) with
      | some q => q.ring
      | none => {}
    | 0x8 => match mapGet d.net.flows (objIndex o) with
      | some f => f.ring
      | none => {}
    | _ => {}

/-- Changes an encoder session. -/
def Dev.onEncoder (i : Nat) (f : Encoder → Encoder) (d : Dev) : Dev :=
  match mapGet d.codecs.encoders i with
  | some e => d.onCodecs fun c => { c with encoders := mapSet c.encoders i (f e) }
  | none => d

/-- Changes a decoder session. -/
def Dev.onDecoder (i : Nat) (f : Decoder → Decoder) (d : Dev) : Dev :=
  match mapGet d.codecs.decoders i with
  | some e => d.onCodecs fun c => { c with decoders := mapSet c.decoders i (f e) }
  | none => d

/-- Changes a flow: senders 0–63, receivers 64–127. -/
def Dev.onFlow (i : Nat) (f : Flow → Flow) (d : Dev) : Dev :=
  match mapGet d.net.flows i with
  | some e => d.onNet fun c => { c with flows := mapSet c.flows i (f e) }
  | none => d

/-- Changes the output ring that a source reference names. -/
def onRingOf (o : Nat) (f : OutRing → OutRing) (d : Dev) : Dev :=
  if o ≥ 0x12000 then d.onDisplay fun p => { p with sdiIn := tabMod p.sdiIn (o - 0x12000) fun i => { i with ring := f i.ring } }
  else if o ≥ 0x11000 then d.onStream (o - 0x11000) fun s => { s with statsRing := f s.statsRing }
  else if o ≥ 0x10000 then
    d.onStream ((o - 0x10000) / 8) fun s => { s with tapRings := tabMod s.tapRings ((o - 0x10000) % 8) f }
  else match objType o with
    | 0x3 => d.onStream (branchOf o).1 fun s => { s with branchRings := tabMod s.branchRings (branchOf o).2 f }
    | 0x5 => d.onEncoder (objIndex o) fun e => { e with ring := f e.ring }
    | 0x6 => d.onDecoder (objIndex o) fun e => { e with ring := f e.ring }
    | 0x8 => d.onFlow (objIndex o) fun e => { e with ring := f e.ring }
    | _ => d

/-- The holders of a slot. -/
def OutRing.held (r : OutRing) (slot : Nat) : List Nat := mapGetD r.holders slot []

/-- A holder takes a slot. -/
def OutRing.hold (slot who : Nat) (r : OutRing) : OutRing :=
  { r with holders := mapSet r.holders slot (who :: r.held slot) }

/-- One hold of a holder on a slot ends. -/
def dropHold (slot who : Nat) (h : NMap (List Nat)) : NMap (List Nat) :=
  match (mapGetD h slot []).erase who with
  | [] => mapDel h slot
  | l => mapSet h slot l

/-- A ring that was replaced keeps its pail while some slot is held. -/
def stillHeld (e : Nat × NMap (List Nat)) : Bool := !e.2.isEmpty

/-- A holder lets a slot of replaced rings go; none where it holds none there. -/
def dropRetired (slot who : Nat) (l : List (Nat × NMap (List Nat))) : Option (List (Nat × NMap (List Nat))) :=
  (l.find? fun e => who ∈ mapGetD e.2 slot []).map fun e =>
    (l.map fun x => if x = e then (x.1, dropHold slot who x.2) else x).filter stillHeld

/-- Every hold of a holder on slots of replaced rings ends. -/
def clearRetired (who : Nat) (l : List (Nat × NMap (List Nat))) : List (Nat × NMap (List Nat)) :=
  (l.map fun e => (e.1, (e.2.map fun x => (x.1, x.2.filter (· ≠ who))).filter fun x => !x.2.isEmpty)).filter stillHeld

/-- A holder lets a slot go: a slot of a replaced ring first. -/
def OutRing.drop (slot who : Nat) (r : OutRing) : OutRing :=
  match dropRetired slot who r.retiring with
  | some l => { r with retiring := l }
  | none => { r with holders := dropHold slot who r.holders }

/-- A ring whose pail or layout is replaced: the next frame goes to slot 0 of the new ring, and slots still held keep
the old pail (R225). -/
def OutRing.replace (oldPail : Nat) (r : OutRing) : OutRing :=
  { r with next := 0, holders := [], lastSlot := none
           retiring := if oldPail ≠ 0 && !r.holders.isEmpty then r.retiring ++ [(oldPail, r.holders)] else r.retiring }

/-- A source slot is held. Type 0x2 names the raw ring of a stream's furrow. -/
def holdSlot (o slot who : Nat) (d : Dev) : Dev :=
  if o < 0x10000 && objType o = 0x2 then
    match furrowOf d (objIndex o) with
    | some (i, _) => d.onFurrow i fun f => { f with slots := tabMod f.slots slot fun s => { s with holders := who :: s.holders } }
    | none => d
  else onRingOf o (OutRing.hold slot who) d

/-- A source slot is let go: of a raw ring that was replaced or of a receiver that was deleted where one is held there. -/
def dropSlot (o slot who : Nat) (d : Dev) : Dev :=
  if o < 0x10000 && objType o = 0x2 then
    match d.furrows.findIdx? fun f => (dropRetired slot who f.retiring).isSome with
    | some i => d.onFurrow i fun f => { f with retiring := (dropRetired slot who f.retiring).getD f.retiring }
    | none => match furrowOf d (objIndex o) with
      | some (i, _) => d.onFurrow i fun f => { f with slots := tabMod f.slots slot fun s => { s with holders := s.holders.erase who } }
      | none => d
  else if o < 0x10000 && objType o = 0x8 && (dropRetired slot who d.net.gone).isSome then
    d.onNet fun n => { n with gone := (dropRetired slot who n.gone).getD n.gone }
  else onRingOf o (OutRing.drop slot who) d

/-- Every hold of a holder on a source ends. -/
def dropAll (o who : Nat) (d : Dev) : Dev :=
  if o < 0x10000 && objType o = 0x2 then
    let d := { d with furrows := d.furrows.map fun f => { f with retiring := clearRetired who f.retiring } }
    match furrowOf d (objIndex o) with
    | some (i, _) => d.onFurrow i fun f =>
        { f with slots := f.slots.map fun s => { s with holders := s.holders.filter (· ≠ who) } }
    | none => d
  else
    let clean := fun (h : NMap (List Nat)) => (h.map fun e => (e.1, e.2.filter (· ≠ who))).filter fun e => !e.2.isEmpty
    let d := if o < 0x10000 && objType o = 0x8 then d.onNet fun n => { n with gone := clearRetired who n.gone } else d
    onRingOf o (fun r => { r with holders := clean r.holders, retiring := clearRetired who r.retiring }) d

/-! ## Jobs of a frame -/

/-- Some drill or harrow runs a job of a frame. -/
def frameRunning (d : Dev) (n frame : Nat) : Bool :=
  (d.fabric.drills.any fun x => match x.job with
    | some j => j.stream = n && j.frame = frame
    | none => false)
  || d.fabric.harrows.any fun x => match x with
    | some j => j.stream = n && j.frame = frame
    | none => false

/-- Some drill or harrow job of a frame waits. -/
def frameQueued (d : Dev) (n frame : Nat) : Bool :=
  (d.fabric.fields.any fun f => f.queues.any fun q => q.any fun j => j.stream = n && j.frame = frame)
  || d.fabric.harrowQueues.any fun q => q.any fun j => j.stream = n && j.frame = frame

/-- The stream whose frames a session codes; none for a decoder source. -/
def encoderStream (e : Encoder) : Option Nat :=
  if e.codec = 0 then
    match e.xs.sourceKind with
    | 2 => some (branchOf e.xs.source).1
    | 3 => none
    | _ => some (objIndex e.xs.source)
  else some (branchOf e.enc.source).1

/-- Some job of a stream waits or runs, or one of its frames is still being received or coded (R47). -/
def streamBusy (d : Dev) (n : Nat) : Bool :=
  !(d.stream n).work.isEmpty
  || (match furrowOf d n with
    | some (i, _) => (d.furrow i).current.isSome || !(d.furrow i).ending.isEmpty
    | none => false)
  || d.codecs.encoders.any fun e => encoderStream e.2 = some n && (!e.2.frames.isEmpty || !e.2.leaving.isEmpty)

/-- A released stream whose last job has completed gives its capacity back (R47). -/
def settleReleased (n : Nat) (d : Dev) : Dev :=
  if (d.stream n).admission = .released && !streamBusy d n then
    let d := d.onStream n fun s => { s with admission := .out }
    let pool := (loadOf d).dem.pool
    d.onPails fun t => { t with internal := pool }
  else d

/-- The jobs of a frame that wait are withdrawn; those that run complete (R154, R34). -/
def withdrawJobs (n frame : Nat) (d : Dev) : Dev :=
  d.onFabric fun f =>
    { f with
      fields := f.fields.map fun x =>
        { x with queues := x.queues.map fun q => q.filter fun j => !(j.stream = n && j.frame = frame) }
      harrowQueues := f.harrowQueues.map fun q => q.filter fun j => !(j.stream = n && j.frame = frame) }

/-- The tine jobs of an encoder session's frame that wait are withdrawn. -/
def withdrawTines (session frame : Nat) (d : Dev) : Dev :=
  d.onCodecs fun c =>
    { c with queues := c.queues.map fun q => q.filter fun j => !(j.session = session && j.frame = frame) }

/-- A session ID names a session that is open. -/
def sessionOpen (d : Dev) (sid : Nat) : Bool := match mapGet d.ctl.sessions (sessionIndex sid) with
  | some s => sid = sessionId (sessionIndex sid) s.gen
  | none => false

/-- COMMAND_COMPLETE reports the final status of a PENDING command (R62), unless its session has ended (R69). -/
def completeCmd (p : PendingCmd) (r : Rsp) (d : Dev) : Dev :=
  let d := d.onCtl fun c => { c with pendingCmds := c.pendingCmds.filter fun x => x ≠ p }
  if sessionOpen d p.session then
    raise 0x0082 0 (sessionObj (sessionIndex p.session))
      (le 2 p.session ++ le 4 p.seq ++ le 2 p.op ++ le 2 r.status ++ le 2 r.detail) d
  else d

/-- A tine runs a job of a session's frame. -/
def tineRunning (d : Dev) (session frame : Nat) : Bool :=
  d.codecs.tines.any fun x => match x with
    | some j => j.session = session && j.frame = frame
    | none => false

/-- A tine job of a session waits or runs. -/
def sessionBusy (d : Dev) (session : Nat) : Bool :=
  (d.codecs.queues.any fun q => q.any fun j => j.session = session)
  || d.codecs.tines.any fun x => match x with
    | some j => j.session = session
    | none => false

/-- The source that an encoder session reads, as a reference. -/
def encoderSource (e : Encoder) : Nat :=
  if e.codec = 0 then
    match e.xs.sourceKind with
    | 1 => tapRef (objIndex e.xs.source) e.xs.tapPoint
    | _ => e.xs.source
  else e.enc.source

/-- The source of a frame that a session codes, with the configuration bound to it. -/
def frameSource (codec : Nat) (f : EncFrame) : Nat := encoderSource { codec, xs := f.xs, enc := f.enc }

/-- The stream whose number orders a session's tine jobs (R32, R34); decoders come after the streams. -/
def tineStream (d : Dev) (session : Nat) : Nat :=
  if objType session = 0x5 then match (mapGet d.codecs.encoders (objIndex session)).bind encoderStream with
    | some n => n
    | none => 24
  else 32 + objIndex session

/-- A tine job's place among equals of its class. -/
def TineJob.key (d : Dev) (j : TineJob) : List Nat := [j.deadline, tineStream d j.session, j.swath, j.segment, j.session]

/-- A tine job put into its queue. -/
def insertTine (d : Dev) (j : TineJob) : List TineJob → List TineJob
  | [] => [j]
  | x :: l => if keyLess (j.key d) (x.key d) then j :: x :: l else x :: insertTine d j l

/-- Idle tines take the heads of the highest class's queue (R34). -/
def dispatchTines (d : Dev) : Dev :=
  (List.range 64).foldl (fun d i =>
    let c := d.codecs
    if (c.tines.getD i none).isSome then d
    else match (List.range 4).find? fun k => !(c.queues.getD k []).isEmpty with
      | some k => match c.queues.getD k [] with
        | j :: l => d.onCodecs fun c => { c with queues := c.queues.set k l, tines := c.tines.set i (some { j with started := d.now }) }
        | [] => d
      | none => d) d

/-- Queues a tine job. -/
def queueTine (j : TineJob) (d : Dev) : Dev := dispatchTines (d.onCodecs fun c => { c with queues := tabMod c.queues j.cls (insertTine d j) })

/-- The slots of a frame that a session no longer codes are let go: its own at frame number 0, and its source's once none of its
jobs runs any more (R154). -/
def releaseEncFrame (i codec : Nat) (f : EncFrame) (d : Dev) : Dev :=
  let o := 0x5000 + i
  let d := match f.slot with
    | some s => onRingOf o (OutRing.drop s o) d
    | none => d
  if tineRunning d o f.number then d.onEncoder i fun e => { e with leaving := e.leaving ++ [(f.number, frameSource codec f, f.sourceSlot)] }
  else dropSlot (frameSource codec f) f.sourceSlot o d

/-- A running job of a frame that a session no longer codes has ended: with the last one the source's slot is let go. -/
def settleLeaving (i frame : Nat) (d : Dev) : Dev :=
  let o := 0x5000 + i
  match mapGet d.codecs.encoders i with
  | none => d
  | some e =>
    if tineRunning d o frame then d
    else
      let d := (e.leaving.filter fun x => x.1 = frame).foldl (fun d x => dropSlot x.2.1 x.2.2 o d) d
      let d := d.onEncoder i fun e => { e with leaving := e.leaving.filter fun x => x.1 ≠ frame }
      match encoderStream e with
      | some n => settleReleased n d
      | none => d

/-- A frame that a session codes is dropped: its waiting jobs are withdrawn, its slots are let go, and what was to happen with it
happens with the next. -/
def dropEncFrame (i frame : Nat) (d : Dev) : Dev :=
  match mapGet d.codecs.encoders i with
  | none => d
  | some e =>
    let d := withdrawTines (0x5000 + i) frame d
    let gone := e.frames.filter fun f => f.number = frame
    let d := gone.foldl (fun d f => releaseEncFrame i e.codec f d) d
    d.onEncoder i fun e => { e with
      frames := e.frames.filter fun f => f.number ≠ frame
      restart := e.restart || gone.any (·.fresh), levelSet := e.levelSet && !gone.any (·.relevel), forceIdr := e.forceIdr || gone.any (·.idr)
      ring := { e.ring with skippedBefore := e.ring.skippedBefore + sumOf (·.before) gone + (if e.codec = 0 then 0 else gone.length) } }

/-- Changes a frame in flight of a stream. -/
def onWork (n frame : Nat) (f : FrameWork → FrameWork) (d : Dev) : Dev :=
  d.onStream n fun s => { s with work := s.work.map fun w => if w.number = frame then f w else w }

/-- The frame in flight. -/
def workOf (d : Dev) (n frame : Nat) : Option FrameWork := (d.stream n).work.find? fun w => w.number = frame

/-- Tile-rows of a stream's image. -/
def streamRows (d : Dev) (n : Nat) : Nat := match srcSize d n with
  | some (_, h) => tilesH h
  | none => 0

/-- The field that a frame in flight is given; none when the stream has none for it. -/
def fieldOfWork (s : Stream) (w : FrameWork) : Option MotionField :=
  if w.settings.motion.enable then s.fields.find? fun f => f.frame = w.number else none

/-- A band has its records. -/
def BandState.over (b : BandState) : Bool := b = .written || b = .concealed

/-- Every band of a frame's field has its records, or the frame has no field. -/
def fieldDone (d : Dev) (n : Nat) (w : FrameWork) : Bool := match fieldOfWork (d.stream n) w with
  | some f => f.bands.all BandState.over
  | none => true

/-- All work on a frame is done: it was withdrawn, or delivered with every tile-row released and every motion band
written; and no job of it waits or runs. -/
def workDone (d : Dev) (n : Nat) (w : FrameWork) : Bool :=
  (w.withdrawn || (w.delivered.isSome && w.released.length ≥ streamRows d n && fieldDone d n w))
  && !frameRunning d n w.number && !frameQueued d n w.number

/-- The frames that sessions still code of a stream's frame keep the times of its tile-rows (R255). -/
def keepLines (n : Nat) (w : FrameWork) (d : Dev) : Dev :=
  let keep := fun (f : EncFrame) => if f.number = w.number then { f with lineAt := w.lineAt } else f
  let one := fun (e : Encoder) => if encoderStream e = some n then { e with frames := e.frames.map keep } else e
  d.onCodecs fun c => { c with encoders := c.encoders.map fun x => (x.1, one x.2) }

/-- A frame whose work is done leaves the stream, and its raw slot is let go (R129); a released stream may then
give its capacity back. -/
def finishWork (n frame : Nat) (d : Dev) : Dev :=
  match workOf d n frame with
  | none => d
  | some w =>
    if workDone d n w then
      let d := keepLines n w (d.onStream n fun s => { s with work := s.work.filter fun x => x.number ≠ frame })
      settleReleased n (dropSlot w.src w.slot (0x2000 + n) d)
    else d

/-- An output of a withdrawn frame lets its slot go at frame number 0, and the skips before it wait for the next record. -/
def releaseOutput (o : Nat) (out : FrameOutput) (d : Dev) : Dev := match out.slot with
  | some s => if out.done then d else onRingOf o (fun r => { r with skippedBefore := r.skippedBefore + out.before }) (dropSlot o s o d)
  | none => d

/-- The outputs of a frame of stream `n`, with the references of their rings. -/
def outputsOf (n : Nat) (w : FrameWork) : List (Nat × FrameOutput) :=
  (indexed w.branchOut).map (fun e => (0x3000 + 8 * n + e.1, e.2)) ++ (indexed w.tapOut).map (fun e => (tapRef n e.1, e.2))
  ++ [(statsRef n, w.statsOut)]

/-- A frame of a stream is dropped (R154 mode 1). Its slots were never completed, so they stay at frame number 0. -/
def withdrawFrame (n frame : Nat) (d : Dev) : Dev :=
  let d := withdrawJobs n frame d
  let d := d.codecs.encoders.foldl (fun d e =>
    if encoderStream e.2 = some n then dropEncFrame e.1 frame d else d) d
  let d := match workOf d n frame with
    | some w => (outputsOf n w).foldl (fun d e => releaseOutput e.1 e.2 d) d
    | none => d
  finishWork n frame (onWork n frame (fun w => { w with withdrawn := true }) d)

/-- A furrow stops (R153, R154): after the frame in progress, or at once, dropping what it has not delivered. -/
def stopFurrow (i mode : Nat) (d : Dev) : Dev :=
  let f := d.furrow i
  match f.config with
  | none => d
  | some c =>
    let off := fun (d : Dev) => d.onFurrow i fun f =>
      { f with state := .stopped, current := none, ending := [], stopAfterFrame := false, silent := false, deliveredSinceStart := false, mapInUse := 0
               slots := f.slots.map fun x => { x with holders := x.holders.filter (· ≠ 0x1000 + i) } }
    let open' := f.current.toList ++ f.ending
    if open'.isEmpty then if f.state = .stopped || f.state = .training then d else settleReleased c.stream (off d)
    else if mode = 0 then d.onFurrow i fun f => { f with stopAfterFrame := true }
    else settleReleased c.stream (open'.foldl (fun d fr => withdrawFrame c.stream fr.number d) (off d))

end Sys2Proof.Machine
end

