-- ==== Sys2Proof/Machine/Furrows.lean ====
section
/-! DEFINITION. Area 0x03: the commands of furrows and sensors (R113, R114, R121, R124, R127, R142 to R154, R573,
Tables 5.8 to 5.14). -/

namespace Sys2Proof.Machine

/-- The furrow captures: running or in RESYNC. -/
def Furrow.runs (f : Furrow) : Bool := f.state = .running || f.state = .resync

/-- The furrow of an index captures; the odd furrow of a pair does what its even furrow does (R127). -/
def furrowRuns (d : Dev) (i : Nat) : Bool :=
  if (d.furrow i).ganged then (d.furrow (i / 2 * 2)).runs else (d.furrow i).runs

/-- The configuration that a furrow works under: the odd furrow of a pair works under its even furrow's (R127). -/
def furrowConfigOf (d : Dev) (i : Nat) : Option FurrowConfig := (d.furrow (if (d.furrow i).ganged then i / 2 * 2 else i)).config

/-- An odd furrow of a ganged pair (R127). -/
def oddGanged (d : Dev) (o : Nat) : Bool := (d.furrow (objIndex o)).ganged && objIndex o % 2 = 1

/-- The map in use. -/
def Furrow.activeMap (f : Furrow) : List LaneEntry := f.maps.getD f.mapInUse []

/-- Lanes that a list of sources uses (R113, R124). -/
def sourceLanes (c : FurrowConfig) (l : List LaneEntry) : List Nat :=
  if c.mode = 0 then (l.map (·.source)).dedup
  else (l.map LaneEntry.link).dedup.flatMap fun k => (List.range (c.linkLanes k)).map fun i => 8 * k + i

/-- The lanes of a furrow's map in use. -/
def mappedLanes (f : Furrow) : List Nat := match f.config with
  | some c => sourceLanes c f.activeMap
  | none => []

/-- Mapped lanes that are not locked. -/
def unlockedLanes (f : Furrow) : List Nat := (mappedLanes f).filter fun l => !(tabGet f.lanes l).locked

/-- The parameters of FURROW_CONFIG (Table 5.8). -/
def readFurrowConfig (b : List Byte) : FurrowConfig :=
  { stream := objIndex (u16 b 2), mode := u8 b 4, depthBits := u8 b 5, laneMbps := u16 b 6, width := u16 b 8
    height := u16 b 10, cfaW := u8 b 12, cfaH := u8 b 13, dualGain := u8 b 14, domain := u8 b 15
    lineCrc := bit (u8 b 16) 0, stopOnLaneFail := bit (u8 b 16) 1, depth := u8 b 17, pail := u32 b 20
    cfa := u8s b 24 (u8 b 12 * u8 b 13), csiLanes := u32 b 60 }

/-- Settings that R176, R227 and R246 return to their reset values. -/
def resetForGeometry (s : Stream) : Stream :=
  let x := s.settings
  { s with
    tables := {}
    luts := {}
    inForce := false
    settings :=
      { x with
        raw := {}
        colour := {}
        branches := x.branches.map fun b =>
          { b with enable := false, cropX := 0, cropY := 0, cropW := 0, cropH := 0, m1 := {}, m2 := {}, cdl := {}
                   transfer := 0, scale := fpOne, pre := none, lut3 := none, post := none, kernelH := 0, kernelV := 0
                   coeffs := [] }
        stats := { x.stats with enable := false, notify := false, cls := 0, mode := 0, point := 0
                                zoneX := 0, zoneY := 0, zoneW := 0, zoneH := 0 }
        taps := (indexed x.taps).map fun e =>
          { e.2 with enable := false, format := if e.1 ≥ 3 then 2 else 0, cls := 1
                     cropX := 0, cropY := 0, cropW := 0, cropH := 0 } } }

/-- The geometry that R176 watches. -/
def FurrowConfig.geometry (c : FurrowConfig) : List Nat :=
  [c.width, c.height, c.depthBits, c.cfaW, c.cfaH, c.dualGain] ++ c.cfa

/-- FURROW_CONFIG takes effect. A stream's first one, and one that changes its image, return its values (R176, R244). -/
def furrowConfigSettle (c : Ctx) (d : Dev) : Dev :=
  let i := objIndex (u16 c.b 0)
  let n := readFurrowConfig c.b
  let old := (d.furrow i).config
  let changed : Bool := (d.stream n.stream).geometry ≠ n.geometry
  let same : Bool := match old with
    | some o => o.pail = n.pail && o.depth = n.depth && o.slotSize = n.slotSize
    | none => false
  let d := d.onFurrow i fun f =>
    let held := (indexed f.slots).filterMap fun e => if e.2.holders.isEmpty then none else some (e.1, e.2.holders)
    { f with config := some n
             retiring := if same || held.isEmpty then f.retiring else f.retiring ++ old.toList.map fun o => (o.pail, held)
             slots := if same then f.slots else List.replicate n.depth {}
             nextSlot := if same then f.nextSlot else 0
             prevSlot := if same then f.prevSlot else none }
  if changed then d.onStream n.stream fun s => { resetForGeometry s with geometry := n.geometry } else d

/-- FURROW_CONFIG (R149, Table 5.8). -/
def specFurrowConfig : CmdSpec where
  op := 0x0300
  length := fixed 64
  ranges := fun d b =>
    [obj b 0 0x1, (2, objIs 0x2 (u16 b 2) && objIndex (u16 b 2) < 16), rng b 4 1 0 1, (5, u8 b 5 ∈ [10, 12, 14, 16]),
     rng b 6 2 80 4500, rng b 8 2 16 32768, rng b 10 2 8 16384, rng b 12 1 1 6, rng b 13 1 1 6, rng b 14 1 0 3, rng b 15 1 0 5,
     flagBits b 16 1 2, rng b 17 1 2 16, zeroAt b 18 2, handle d b 20] ++ eachAt 24 1 36 (fun o => u8 b o ≤ 4)
  handles := fun b => [u32 b 20]
  combos := fun d c =>
    let b := c.b
    let i := objIndex (u16 b 0)
    let n := readFurrowConfig b
    let other := (indexed d.furrows).any fun e => e.1 ≠ i && !(e.2.ganged && e.1 / 2 = i / 2)
      && (match e.2.config with
        | some x => x.stream = n.stream
        | none => false)
    comboCheck ([bad (oddGanged d (u16 b 0)) 0, bad other 2, bad (n.mode = 0 && !(within n.laneMbps 500 3000)) 6,
      bad (n.width % n.cfaW ≠ 0) 12, bad (n.height % n.cfaH ≠ 0) 13, bad (n.lineCrc && n.mode = 1) 16,
      bad (pailSize d n.pail < n.depth * n.slotSize) 20]
      ++ (List.range 36).map (fun k => bad (k ≥ n.cfaW * n.cfaH && u8 b (24 + k) ≠ 0) (24 + k))
      ++ [bad (n.csiLanes ≠ 0 && (n.mode = 0 || (n.csiLanes ≥ 65536 && !(d.furrow i).ganged))) 60])
  targets := fun _ b => [u16 b 0, u16 b 2]
  against := fun d c => if furrowRuns d (objIndex (u16 c.b 0)) then some (.busy 3) else none
  raises := true
  act := fun c d => (furrowConfigSettle c d, some .ok)
  settle := furrowConfigSettle

/-- Reads the entries of a lane map (Table 5.10). -/
def readMap (b : List Byte) : List LaneEntry := (List.range (u8 b 3)).map fun i =>
  let o := 4 + 8 * i
  { source := u8 b o, dataType := u8 b (o + 1), start := u16 b (o + 2), step := u8 b (o + 4), plane := u8 b (o + 5) }

/-- Columns of a source, as many as it expects words (R121). -/
def LaneEntry.columns (e : LaneEntry) (w : Nat) : List Nat :=
  (List.range (ceilDiv (w - e.start) e.step)).map fun j => e.start + j * e.step

/-- The sources of a plane cover its columns exactly once (R121): no two sources share a column, and their columns are
as many as the row has. Two arithmetic progressions share a column when some column of the one lies in the other. -/
def coversPlane (w : Nat) (l : List LaneEntry) (plane : Nat) : Bool :=
  let l := l.filter fun e => e.dataType ≠ 0x12 && e.plane = plane
  let meets := fun (a e : LaneEntry) => (e.columns w).any fun c => a.start ≤ c && (c - a.start) % a.step = 0
  let disjoint := (indexed l).all fun e => (l.take e.1).all fun a => !meets a e.2
  disjoint && sumOf (fun e => ceilDiv (w - e.start) e.step) l = w

/-- Planes a map must cover. -/
def FurrowConfig.mapPlanes (c : FurrowConfig) : List Nat := if c.dualGain = 1 then [0, 1] else [0]

/-- What is wrong with a map under a configuration: the offset of the field at fault (R121, R150). -/
def mapChecks (ganged : Bool) (c : FurrowConfig) (l : List LaneEntry) : List (Bool × Nat) :=
  let top := if ganged then 128 else 64
  (indexed l).flatMap (fun e =>
    let o := 4 + 8 * e.1
    let x := e.2
    [bad (if c.mode = 0 then x.source ≥ top else x.source / 16 ≥ top / 8) o,
     bad ((l.take e.1).any fun y => y.source = x.source && y.dataType = x.dataType) o,
     bad ((c.mode == 0) != (x.dataType == 0)) (o + 1),
     bad (x.plane ∉ c.mapPlanes) (o + 5)])
  ++ [bad (c.mapPlanes.any fun p => !coversPlane c.width l p) 3]

/-- A ganged pair in CSI-2 mode has links 0–15 (R127), and 8–15 take the source bytes above 127. -/
def sixteenLinks (d : Dev) (i : Nat) : Bool := (d.furrow i).ganged && (d.furrow i).config.any fun c => c.mode = 1

/-- FURROW_LANE_MAP (R150, Table 5.10). A map for a furrow that has no configuration is refused at its furrow field. -/
def specFurrowLaneMap : CmdSpec where
  op := 0x0301
  length := counted 4 fun b => 4 + 8 * u8 b 3
  ranges := fun d b => [obj b 0 0x1, rng b 2 1 0 4, rng b 3 1 1 128] ++ eachRec 4 8 (u8 b 3) fun o =>
    [(o, u8 b o ≤ 127 || sixteenLinks d (objIndex (u16 b 0))), (o + 1, (let t := u8 b (o + 1); t = 0 || t = 0x12 || within t 0x2B 0x2E || within t 0x30 0x37)),
     rng b (o + 2) 2 0 32767, rng b (o + 4) 1 1 64, rng b (o + 5) 1 0 1, zeroAt b (o + 6) 2]
  combos := fun d c =>
    let f := d.furrow (objIndex (u16 c.b 0))
    match f.config with
    | none => some (.combination 0)
    | some x => comboCheck (bad (oddGanged d (u16 c.b 0)) 0 :: mapChecks f.ganged x (readMap c.b))
  targets := fun _ b => [u16 b 0]
  against := fun d c => if u8 c.b 2 = 0 && furrowRuns d (objIndex (u16 c.b 0)) then some (.busy 3) else none
  act := fun c d =>
    (d.onFurrow (objIndex (u16 c.b 0)) fun f =>
      { f with maps := tabMod f.maps (u8 c.b 2) fun _ => readMap c.b, mapInUse := if u8 c.b 2 = 0 then 0 else f.mapInUse }, some .ok)

/-- A B-bit word rotated left by `k`, as a number of B bits. -/
def rotate (bw v k : Nat) : Nat := (v * 2 ^ k) % 2 ^ bw + v / 2 ^ (bw - k)

/-- Two codes can be told apart (R151). -/
def apart (a b : Nat × Nat) : Bool := (a.2 &&& b.2 &&& (a.1 ^^^ b.1)) != 0

/-- FURROW_SYNC_CODES (R151, R124, Table 5.11). Codes are checked at the later pattern, the training word at its own
field. -/
def specFurrowSyncCodes : CmdSpec where
  op := 0x0302
  length := fixed 32
  ranges := fun _ b => [obj b 0 0x1, zeroAt b 2 2, zeroAt b 10 2, zeroAt b 30 2]
  combos := fun d c =>
    let b := c.b
    let bw := match (d.furrow (objIndex (u16 b 0))).config with
      | some x => x.depthBits
      | none => 16
    let code := fun k => (u16 b (12 + 4 * k), u16 b (14 + 4 * k))
    let low := fun o => u16 b o % 2 ^ (16 - bw) != 0
    let t := u16 b 28 / 2 ^ (16 - bw)
    comboCheck ([bad (oddGanged d (u16 b 0)) 0, bad (low 4) 4, bad (low 6) 6, bad (low 8) 8]
      ++ (List.range 4).flatMap (fun k => [bad (low (12 + 4 * k)) (12 + 4 * k), bad (low (14 + 4 * k)) (14 + 4 * k),
          bad ((List.range k).any fun j => !apart (code j) (code k)) (12 + 4 * k)])
      ++ [bad (low 28) 28, bad ((List.range (bw - 1)).any fun k => rotate bw t (k + 1) = t) 28])
  targets := fun _ b => [u16 b 0]
  against := fun d c => if furrowRuns d (objIndex (u16 c.b 0)) then some (.busy 3) else none
  act := fun c d =>
    let b := c.b
    (d.onFurrow (objIndex (u16 b 0)) fun f =>
      { f with sync := { preamble := u16s b 4 3, codes := (List.range 4).map fun k => (u16 b (12 + 4 * k), u16 b (14 + 4 * k))
                         training := u16 b 28 } }, some .ok)

/-- FURROW_TRAIN (R124, R126, Table 5.14). Training a furrow that runs or trains already is refused as busy. -/
def specFurrowTrain : CmdSpec where
  op := 0x0303
  length := fixed 4
  ranges := fun _ b => [obj b 0 0x1, rng b 2 1 0 1, zeroAt b 3 1]
  combos := fun d c => comboCheck [bad (oddGanged d (u16 c.b 0)) 0]
  targets := fun _ b => [u16 b 0]
  against := fun d c =>
    let i := objIndex (u16 c.b 0)
    if u8 c.b 2 = 0 && (furrowRuns d i || (d.furrow i).state = .training) then some (.busy 3) else none
  act := fun c d =>
    let i := objIndex (u16 c.b 0)
    if u8 c.b 2 = 1 then (d.onFurrow i fun f => { f with recentreBy := f.recentreBy ++ [c.pending] }, some .pending)
    else
      (d.onFurrow i fun f =>
        { f with state := .training, trainedBy := some c.pending
                 lanes := f.lanes.map fun l => { l with locked := false } }, some .pending)

/-- FURROW_GANG (R127). Naming an odd furrow is out of range: the field takes furrow 2k. -/
def specFurrowGang : CmdSpec where
  op := 0x0304
  length := fixed 4
  ranges := fun _ b => [(0, objIs 0x1 (u16 b 0) && u16 b 0 % 2 = 0), rng b 2 1 0 1, zeroAt b 3 1]
  targets := fun _ b => [u16 b 0, u16 b 0 + 1]
  against := fun d c =>
    let i := objIndex (u16 c.b 0)
    if (d.furrow i).state ≠ .stopped || (d.furrow (i + 1)).state ≠ .stopped then some (.busy 3) else none
  raises := true
  settle := fun c d =>
    let g : Bool := u8 c.b 2 = 1
    let i := objIndex (u16 c.b 0)
    (d.onFurrow i fun f => { f with ganged := g }).onFurrow (i + 1) fun f => { f with ganged := g }
  act := fun c d =>
    let g : Bool := u8 c.b 2 = 1
    let i := objIndex (u16 c.b 0)
    ((d.onFurrow i fun f => { f with ganged := g }).onFurrow (i + 1) fun f => { f with ganged := g }, some .ok)

/-- A frame record as it is stored (Table 5.5). -/
def FrameRecord.bytes (r : FrameRecord) : List Byte :=
  le 8 r.number ++ le 2 (0x2000 + r.stream) ++ le 2 (0x1000 + r.furrow) ++ le 4 r.flags ++ le 4 r.epoch ++ le 1 r.domain ++ le 3 0
    ++ le 6 r.sofSeconds ++ le 2 0 ++ le 4 r.sofNs ++ le 4 r.eofStamp ++ le 2 r.rowsReceived ++ le 2 r.fillFirst ++ le 2 r.shortLines
    ++ le 2 r.longLines ++ le 2 r.crcLines ++ le 2 0 ++ le 4 r.discarded ++ le 4 r.droppedBefore ++ le 4 r.lineTimeNs
    ++ le 16 r.laneFill ++ le 4 r.embedded ++ List.replicate 44 0

/-- The state code of Table 5.14. -/
def FurrowState.code : FurrowState → Nat
  | .stopped => 0
  | .training => 1
  | .running => 2
  | .resync => 3
  | .fault => 4

/-- A mask of the lanes that meet a test. -/
def laneMask (f : Furrow) (p : Lane → Bool) : Nat := sumOf (fun e => if p e.2 then 2 ^ e.1 else 0) (indexed f.lanes)

/-- FURROW_STATUS; reading takes the stamped edges out of the FIFO. -/
def specFurrowStatus : CmdSpec where
  op := 0x0305
  length := fixed 4
  ranges := fun _ b => [obj b 0 0x1, zeroAt b 2 2]
  act := fun c d =>
    let i := objIndex (u16 c.b 0)
    let f := d.furrow i
    let record := if f.lastRecord.number = 0 then List.replicate 128 0 else f.lastRecord.bytes
    let edges := (f.edges.flatMap fun e => le 1 e.pin ++ le 1 e.edge ++ le 2 0 ++ le 4 e.stamp) ++ List.replicate 128 0
    (d.onFurrow i fun f => { f with edges := [] },
     some (.ok (le 1 f.state.code ++ le 1 (boolNat f.ganged) ++ le 1 f.mapInUse ++ le 1 0 ++ le 16 (laneMask f (·.locked))
       ++ le 16 (laneMask f (·.failed)) ++ f.lanes.flatMap (fun l => le 1 (min 255 l.eye)) ++ record
       ++ le 2 f.edges.length ++ le 2 0 ++ edges.take 128)))

/-- Reads a sensor profile (Tables 5.12, 4.6, 5.13). -/
def readProfile (b : List Byte) : Profile :=
  let ng := u8 b 10
  { busKind := u8 b 2, busAddr := u8 b 3, busKhz := u16 b 4, spiMhz := u8 b 6, spiMode := u8 b 7, spiWrite := u8 b 8, spiRead := u8 b 9
    groups := (List.range ng).map fun i =>
      let o := 16 + 8 * i
      { group := u8 b o, delay := u8 b (o + 1), latch := u8 b (o + 2), spi := bit (u8 b (o + 3)) 0, verify := bit (u8 b (o + 3)) 1
        latchLine := u16 b (o + 4) }
    fallbacks := (List.range (u8 b 11)).map fun j =>
      let o := 16 + 8 * ng + 48 * j
      { map := u8 b o, group := u8 b (o + 1), reg := u16 b (o + 4), periodNs := u32 b (o + 8), excluded := fieldAt b (o + 12) 16
        data := slice b (o + 28) (u8 b (o + 2)) } }

/-! ## Bus frames (R142, Table 5.7) -/

/-- A register write as the bus carries it: on SPI the command byte, the address and a byte of 0; on I²C and I3C the bus address and
the register's. -/
def writeFrame (p : Profile) (spi : Bool) (reg : Nat) (data : List Byte) : List Byte :=
  (if spi then le 1 p.spiWrite ++ be 2 reg ++ [0] else le 1 (2 * p.busAddr) ++ be 2 reg) ++ data

/-- A register read as the bus carries it, up to the bytes that the sensor drives. -/
def readFrame (p : Profile) (spi : Bool) (reg : Nat) : List Byte :=
  if spi then le 1 p.spiRead ++ be 2 reg ++ [0] else le 1 (2 * p.busAddr) ++ be 2 reg ++ le 1 (2 * p.busAddr + 1)

/-- SETDASA, which gives an I3C sensor its static address as the dynamic one (Table 5.12): the broadcast address, the code, the
address twice. The code points are I3C's. -/
def setDasa (p : Profile) : List Byte := le 1 0xFC ++ le 1 0x87 ++ le 1 (2 * p.busAddr) ++ le 1 (2 * p.busAddr)

/-- SENSOR_PROFILE_LOAD (R152, R102). -/
def specSensorProfileLoad : CmdSpec where
  op := 0x0306
  length := counted 12 fun b => 16 + 8 * u8 b 10 + 48 * u8 b 11
  ranges := fun _ b =>
    let ng := u8 b 10
    [obj b 0 0x1, rng b 2 1 0 1, rng b 3 1 0x08 0x77,
     (4, u16 b 4 ∈ [100, 400] || within (u16 b 4) 1000 12500), rng b 6 1 1 25, rng b 7 1 0 3, rng b 10 1 1 32, rng b 11 1 0 4,
     zeroAt b 12 4]
    ++ eachRec 16 8 ng (fun o => [rng b o 1 0 31, rng b (o + 1) 1 0 4, rng b (o + 2) 1 0 1, flagBits b (o + 3) 1 2,
         rng b (o + 4) 2 0 16383, zeroAt b (o + 6) 2])
    ++ eachRec (16 + 8 * ng) 48 (u8 b 11) fun o => [rng b o 1 1 4, rng b (o + 1) 1 0 31, rng b (o + 2) 1 1 16, zeroAt b (o + 3) 1,
         zeroAt b (o + 6) 2, rng b (o + 8) 4 500000 2000000000, zeroAt b (o + 44) 4]
  combos := fun _ c =>
    let p := readProfile c.b
    let khz : Bool := if p.busKind = 0 then p.busKhz ≤ 400 else p.busKhz ≥ 1000
    comboCheck ([bad (!khz) 4]
      ++ (indexed p.groups).flatMap (fun e =>
          [bad (e.2.delay = 0 && e.2.latch = 1) 2, bad ((p.groups.take e.1).any fun g => g.group = e.2.group) (16 + 8 * e.1),
           bad ((e.2.latch == 0) != (e.2.latchLine == 0)) (16 + 8 * e.1 + 4)])
      ++ (indexed p.fallbacks).map fun e =>
          bad (p.groups.all fun g => g.group ≠ e.2.group) (16 + 8 * p.groups.length + 48 * e.1 + 1))
  targets := fun _ b => [u16 b 0]
  against := fun d c => if furrowRuns d (objIndex (u16 c.b 0)) then some (.busy 3) else none
  act := fun c d =>
    let p := readProfile c.b
    (d.onFurrow (objIndex (u16 c.b 0)) fun f =>
      { f with profile := some p, cache := [], busFrames := if p.busKind = 1 then [setDasa p] else f.busFrames }, some .ok)

/-- Entries of SENSOR_REG_WRITE from an offset: (offset, register, length). -/
def regEntries (b : List Byte) : Nat → Nat → List (Nat × Nat × Nat)
  | 0, _ => []
  | n + 1, o => (o, u16 b o, u8 b (o + 2)) :: regEntries b n (o + 4 + roundUp (u8 b (o + 2)) 4)

/-- The writes of a SENSOR_REG_WRITE in entry order: (register, data). -/
def regWrites (b : List Byte) : List (Nat × List Byte) := (regEntries b (u8 b 3) 4).map fun e => (e.2.1, slice b (e.1 + 4) e.2.2)

/-- The length that a SENSOR_REG_WRITE has, none while an entry's length is missing (R570). -/
def regLength (b : List Byte) : Nat → Nat → Option Nat
  | 0, o => some o
  | n + 1, o => if b.length < o + 3 then none else regLength b n (o + 4 + roundUp (u8 b (o + 2)) 4)

/-- A group of a furrow's profile. -/
def groupDesc (d : Dev) (i g : Nat) : Option GroupDesc := (d.furrow i).profile.bind fun p => p.groups.find? fun x => x.group = g

/-- Some register of a write is not in the cache while the furrow runs (R144). -/
def uncached (d : Dev) (b : List Byte) : Bool :=
  let i := objIndex (u16 b 0)
  furrowRuns d i && (regWrites b).any fun w => (mapGet (d.furrow i).cache w.1).isNone

/-- Bus time in ns of a write of `n` bytes, and of its read-back (R103). -/
def writeTime (p : Profile) (g : GroupDesc) (n : Nat) : Rat :=
  if g.spi then ((n + 4 : Nat) : Rat) * 8000 / (p.spiMhz : Rat) else ((n + 3 : Nat) : Rat) * 9000000 / (p.busKhz : Rat)

/-- Bus time of a read-back, 0 without VERIFY. -/
def readBackTime (p : Profile) (g : GroupDesc) (n : Nat) : Rat :=
  if !g.verify then 0 else if g.spi then writeTime p g n else ((n + 5 : Nat) : Rat) * 9000000 / (p.busKhz : Rat)

/-- B_g of some writes to a group (R103). -/
def busTime (d : Dev) (i g : Nat) (ws : List (Nat × List Byte)) : Rat :=
  match (d.furrow i).profile, groupDesc d i g with
  | some p, some x => sumRat (fun w => writeTime p x w.2.length + readBackTime p x w.2.length) ws
  | _, _ => 0

/-- SENSOR_REG_WRITE (R153, R144). Its bus writes are made by the commit engine. -/
def specSensorRegWrite : CmdSpec where
  op := 0x0307
  stageable := fun _ => true
  length := fun b => if b.length < 4 then none else regLength b (u8 b 3) 4
  ranges := fun _ b => [obj b 0 0x1, rng b 2 1 0 31, rng b 3 1 1 16] ++
    (regEntries b (u8 b 3) 4).flatMap fun e => [rng b (e.1 + 2) 1 1 32, zeroAt b (e.1 + 3) 1,
      zeroAt b (e.1 + 4 + e.2.2) (roundUp e.2.2 4 - e.2.2)]
  combos := fun d c => comboCheck [bad (groupDesc d (objIndex (u16 c.b 0)) (u8 c.b 2)).isNone 2, bad (uncached d c.b) 4]
  targets := fun _ b => [u16 b 0]
  against := fun d c => if uncached d c.b then some (.combination 4) else none

/-- Bus time in ns of a read of `n` bytes (R103). -/
def readTime (p : Profile) (spi : Bool) (n : Nat) : Rat :=
  if spi then ((n + 4 : Nat) : Rat) * 8000 / (p.spiMhz : Rat) else ((n + 5 : Nat) : Rat) * 9000000 / (p.busKhz : Rat)

/-- The predicted start of a stream's frame, in ns of its domain (R103). -/
def streamStartOf (d : Dev) (n frame : Nat) : Int :=
  let s := d.stream n
  ((s.lastSof.getD 0 : Nat) : Int) + ((frame : Int) - (s.frame : Int)) * (s.minPeriod : Int)

/-- The close of the write window of a stream's frame `f` for a group (R103). -/
def windowClose (d : Dev) (n : Nat) (g : GroupDesc) (f : Nat) : Int :=
  let s := streamStartOf d n f
  if g.latch = 0 then s else s + (((g.latchLine + 1 : Nat) : Rat) * streamLineTime d n).floor

/-- The stream a furrow feeds, while it is timed: none while the furrow is stopped (R94, R145). -/
def timedStream (d : Dev) (i : Nat) : Option Nat :=
  match furrowConfigOf d i with
  | some c => match furrowOf d c.stream with
    | some (j, _) => if (d.furrow j).runs then some c.stream else none
    | none => none
  | none => none

/-- The slack of a group's writes before its window closes: 2.5 × B_g + 700 µs (R103). -/
def groupSlack (d : Dev) (x : GroupWrite) : Rat := busTime d x.furrow x.group x.writes * 5 / 2 + 700000

/-- The latest start of a group's writes in the time of its stream's domain (R103); none where no window is planned. -/
def latestStart (d : Dev) (x : GroupWrite) : Option Rat :=
  match timedStream d x.furrow, groupDesc d x.furrow x.group, x.closeFrame with
  | some n, some g, some f => some ((windowClose d n g f : Rat) - groupSlack d x)
  | _, _, _ => none

/-- A group with writes that are still to be confirmed. -/
def GroupWrite.unconfirmed (x : GroupWrite) : Bool := x.confirmed < x.writes.length

/-- A restore or a started group write of a furrow uses its bus. -/
def busInUse (d : Dev) (i : Nat) : Bool :=
  d.ctl.restores.any (fun r => r.furrow = i)
    || d.ctl.commits.any fun c => c.groups.any fun x => x.furrow = i && x.started && x.unconfirmed

/-- A register read can begin (R143): the bus is free, and no group write's latest start falls within its bus time plus 100 µs. -/
def readMayBegin (d : Dev) (i : Nat) (bus : Rat) : Bool :=
  !busInUse d i && d.ctl.commits.all fun c => c.groups.all fun x =>
    !(x.furrow = i && !x.started && x.unconfirmed) || (match timedStream d i, latestStart d x with
      | some n, some t =>
        let now : Rat := (domainNow d (streamDomain d n) : Nat)
        t < now || now + bus + 100000 < t
      | _, _ => true)

/-- The frames of a group's write: the write, and with VERIFY its read-back. -/
def groupFrames (p : Profile) (x : GroupDesc) (w : Nat × List Byte) : List (List Byte) :=
  writeFrame p x.spi w.1 w.2 :: if x.verify then [readFrame p x.spi w.1] else []

/-- What a furrow's control bus carries now: a read that has begun, or the next write of a restore or of a started group. -/
def framesNow (d : Dev) (i : Nat) : List (List Byte) := match (d.furrow i).profile with
  | none => []
  | some p =>
    let group := fun (g : Nat) (w : Option (Nat × List Byte)) => match groupDesc d i g, w with
      | some x, some w => some (groupFrames p x w)
      | _, _ => none
    let write := (d.ctl.restores.find? fun r => r.furrow = i).bind fun r => group r.group r.writes.head?
    let staged := d.ctl.commits.findSome? fun c => (c.groups.find? fun x => x.furrow = i && x.started && x.unconfirmed).bind fun x =>
      group x.group x.writes[x.confirmed]?
    match (d.furrow i).reading.filter (·.begun) with
    | some x => [readFrame p (u8 x.request.pkt.params 2 = 1) x.reg]
    | none => (write <|> staged).getD []

/-- The control bus of a furrow carries its next frames. -/
def driveBus (i : Nat) (d : Dev) : Dev :=
  let l := framesNow d i
  if l.isEmpty then d else d.onFurrow i fun f => { f with busFrames := l }

/-- A register read that waits begins where it can. -/
def beginRead (i : Nat) (d : Dev) : Dev := driveBus i <| match (d.furrow i).reading, (d.furrow i).profile with
  | some x, some p =>
    let bus := readTime p (u8 x.request.pkt.params 2 = 1) x.length
    if !x.begun && readMayBegin d i bus then d.onFurrow i fun f => { f with reading := some { x with begun := true } } else d
  | _, _ => d

/-- SENSOR_REG_READ (R62, R143): its reply waits for the bus, and is PENDING where the transfer takes longer than the reply bound. It only
reads, and needs no ownership (R72). -/
def specSensorRegRead : CmdSpec where
  op := 0x0308
  length := fixed 8
  ranges := fun _ b => [obj b 0 0x1, rng b 2 1 0 1, rng b 3 1 1 32, zeroAt b 6 2]
  combos := fun d c => comboCheck [bad (d.furrow (objIndex (u16 c.b 0))).profile.isNone 0]
  against := fun d c => if (d.furrow (objIndex (u16 c.b 0))).reading.isSome then some (.busy 3) else none
  act := fun c d =>
    let i := objIndex (u16 c.b 0)
    let waits : Bool := match (d.furrow i).profile with
      | some p => readTime p (u8 c.b 2 = 1) (u8 c.b 3) ≤ 2000000
      | none => false
    (beginRead i (d.onFurrow i fun f => { f with reading := some { request := c.request, waits, length := u8 c.b 3, reg := u16 c.b 4 } }),
     if waits then none else some .pending)

/-- The frequency in mHz that the synthesiser drives: steps of 0.01 Hz (R146). -/
def mclkMilliHz (hz : Nat) : Nat := hz * 1000

/-- SENSOR_MCLK_SET (R146). -/
def specSensorMclkSet : CmdSpec where
  op := 0x0309
  length := fixed 8
  ranges := fun _ b => [obj b 0 0x1, rng b 2 1 0 1, (3, u8 b 3 ≤ 5 || u8 b 3 = 0xFF), rng b 4 4 6000000 54000000]
  targets := fun _ b => [u16 b 0]
  against := fun d c => if furrowRuns d (objIndex (u16 c.b 0)) then some (.busy 3) else none
  act := fun c d =>
    let hz := mclkMilliHz (u32 c.b 4)
    (d.onFurrow (objIndex (u16 c.b 0)) fun f => { f with mclk := { enabled := u8 c.b 2 = 1, source := u8 c.b 3, milliHz := hz } },
     some (.ok (le 8 hz)))

/-- The period of a pin's trigger pulses (Table 5.9). -/
def pinPeriod (d : Dev) (i period : Nat) : Nat :=
  if period ≠ 0 then period
  else (furrowConfigOf d i).elim 0 fun c => (d.stream c.stream).minPeriod

/-- SYNC_PIN_SET takes effect (R147). A pulse keeps the pin's lasting function and its settings. -/
def syncPinSettle (c : Ctx) (d : Dev) : Dev :=
  let b := c.b
  let fn := u8 b 3
  d.onFurrow (objIndex (u16 b 0)) fun f =>
    { f with pins := tabMod f.pins (u8 b 2) fun p =>
        if fn = 7 then { p with pulsePolarity := u8 b 4, pulseUntil := some (d.now + u32 b 16) }
        else { p with function := fn, polarity := u8 b 4, pulsePolarity := u8 b 4, periodNs := u32 b 8, phaseNs := u32 b 12
                      widthNs := u32 b 16, pulseUntil := none, strobeUntil := none } }

/-- SYNC_PIN_SET (R573, Table 5.9). -/
def specSyncPinSet : CmdSpec where
  op := 0x030A
  stageable := fun _ => true
  length := fixed 20
  ranges := fun _ b => [obj b 0 0x1, rng b 2 1 0 4, rng b 3 1 0 7, rng b 4 1 0 1, zeroAt b 5 3,
    (8, u32 b 8 = 0 || within (u32 b 8) 100000 2000000000), rng b 12 4 0 1999999999, (16, u32 b 16 = 0 || within (u32 b 16) 100 100000000)]
  combos := fun d c =>
    let b := c.b
    let fn := u8 b 3
    let per := pinPeriod d (objIndex (u16 b 0)) (u32 b 8)
    let wide : Bool := fn ∈ [3, 4, 7]
    comboCheck [bad (u8 b 2 = 4 && fn ∉ [1, 2, 7]) 3, bad (fn ≠ 3 && u32 b 8 ≠ 0) 8, bad (fn ≠ 3 && u32 b 12 ≠ 0) 12,
      bad (fn = 3 && per = 0) 8, bad (fn = 3 && u32 b 12 ≥ per) 12, bad (wide != (u32 b 16 != 0)) 16, bad (fn = 3 && u32 b 16 ≥ per) 16]
  targets := fun _ b => [u16 b 0]
  settle := syncPinSettle

/-- FURROW_START takes effect: map 0 is in use, nothing has been delivered yet, and capture begins at the next clean
SOF. The stream's items that count since FURROW_START start again (R524), and its records carry epoch 0 (R109). -/
def startFurrow (i : Nat) (c : FurrowConfig) (d : Dev) : Dev :=
  let k := 0x2000 + c.stream
  let d := [0, 2, 6, 7].foldl (fun d no => setCounter k no 0 d) d
  let d := d.onStream c.stream fun s => { s with epoch := 0, started := true }
  d.onFurrow i fun f =>
    { f with state := .running, mapInUse := 0, current := none, ending := [], prevSlot := none, firstNext := true, geometryFaults := 0, dropped := 0
             resyncDrops := 0, stopAfterFrame := false, laneFailure := none, remapTxn := none, deliveredSinceStart := false
             silent := false, lastSof := none, lastEnd := none, lastRecentre := d.now, lastRow := none, rowsOver := true
             slots := if f.slots.length = c.depth then f.slots else List.replicate c.depth {}
             lanes := f.lanes.map fun l => { l with failed := false, syncErrors := 0, crcHistory := [] } }

/-- FURROW_START (Table 5.14). A furrow that runs already goes on; one in its fault state needs FURROW_TRAIN first (R140). -/
def specFurrowStart : CmdSpec where
  op := 0x030B
  length := fixed 4
  ranges := fun _ b => [obj b 0 0x1, zeroAt b 2 2]
  combos := fun d c => comboCheck [bad (oddGanged d (u16 c.b 0)) 0,
    bad (match (d.furrow (objIndex (u16 c.b 0))).config with
      | some x => (d.stream x.stream).admission != .admitted
      | none => true) 0]
  targets := fun _ b => [u16 b 0]
  against := fun d c =>
    let f := d.furrow (objIndex (u16 c.b 0))
    if f.runs then none
    else if f.state ≠ .stopped || (f.maps.getD 0 []).isEmpty || !(unlockedLanes { f with mapInUse := 0 }).isEmpty then some (.busy 3)
    else none
  act := fun c d =>
    let i := objIndex (u16 c.b 0)
    match (d.furrow i).config with
    | some x => (if (d.furrow i).runs then d else startFurrow i x d, some .ok)
    | none => (d, some .ok)

/-- FURROW_STOP (R154, Table 5.14). -/
def specFurrowStop : CmdSpec where
  op := 0x030C
  length := fixed 4
  ranges := fun _ b => [obj b 0 0x1, rng b 2 1 0 1, zeroAt b 3 1]
  combos := fun d c => comboCheck [bad (oddGanged d (u16 c.b 0)) 0]
  targets := fun _ b => [u16 b 0]
  act := fun c d => (stopFurrow (objIndex (u16 c.b 0)) (u8 c.b 2) d, some .ok)

end Sys2Proof.Machine
end

