-- ==== Sys2Proof/Machine/RawCmd.lean ====
section
/-! DEFINITION. Area 0x04: the commands of the raw stage (R174, R175, R177, R180, R181, Tables 6.5 to 6.14), and how a
table is read from a pail. -/

namespace Sys2Proof.Machine

/-- The bit depth of a stream's sensor; 16 while it has none. -/
def streamBits (d : Dev) (n : Nat) : Nat := match furrowOf d n with
  | some (_, c) => c.depthBits
  | none => 16

/-- The stream named at offset 0. -/
def Ctx.stream (c : Ctx) : Nat := objIndex (u16 c.b 0)

/-- Staged commands of commits in progress that have not applied. -/
def armedCmds (d : Dev) : List Staged :=
  d.ctl.commits.flatMap fun c => c.parts.flatMap fun p => if p.applied then [] else p.cmds

/-- A slot of a stream's tables is named by a set that is bound, armed, or committed and applied (R174): `sel` gives the
slots that a settings set names, `cmd` those that a staged command selects. The values after reset are in force only once
a command has changed a setting of the stream or a frame has bound them. -/
def slotNamed (d : Dev) (n slot : Nat) (sel : StreamSettings → List Nat) (cmd : Staged → List Nat) : Bool :=
  let s := d.stream n
  (s.work.any fun w => slot ∈ sel w.settings)
  || (s.inForce && slot ∈ sel s.settings)
  || (armedCmds d).any fun x => slot ∈ cmd x

/-- The slot a staged select of an opcode for stream `n` names. -/
def stagedSlots (op n : Nat) (f : List Byte → List Nat) (x : Staged) : List Nat :=
  if x.op = op && objIndex (u16 x.params 0) = n && u8 x.params 2 = 1 then f x.params else []

/-- A table's load is refused: the status, and where the offending entry stands: its byte offset within the table (R175), for a
LUT the number of entries or nodes before it (R214). -/
def badEntry (r : Rsp) (off : Nat) : Rsp := { r with params := le 4 off }

/-- The pail holds a table of entries of `entry` bytes (R175): otherwise the entry that first lies outside it, each counting
`unit`. -/
def tableFits (d : Dev) (h off size entry unit field : Nat) : Option Rsp :=
  let n := pailSize d h
  if n < off + size then some (badEntry (.range field) ((n - off) / entry * unit)) else none

/-- The first entry of a table that fails a check. -/
def firstEntry (l : List (Nat × Bool)) : Option Nat := (l.find? fun e => !e.2).map (·.1)

/-! ## Black and white, white balance -/

/-- Five fp32 values. -/
def five (b : List Byte) (o : Nat) : Channels := u32s b o 5

/-- RAW_BLACK_SET (Table 6.5). -/
def specRawBlackSet : CmdSpec where
  op := 0x0400
  stageable := fun _ => true
  length := fixed 44
  ranges := fun _ b => [sensorStream b 0, rng b 2 1 0 1, zeroAt b 3 1]
    ++ eachAt 4 4 5 (fun o => f32In (u32 b o) 0 65535) ++ eachAt 24 4 5 (fun o => f32In (u32 b o) 16 65535)
  combos := fun d c =>
    let top : Rat := ((2 ^ streamBits d c.stream - 1 : Nat) : Rat)
    comboCheck ([bad (u8 c.b 2 = 1 && !streamDual d c.stream) 2]
      ++ (List.range 5).map (fun k => bad (!f32In (u32 c.b (4 + 4 * k)) 0 top) (4 + 4 * k))
      ++ (List.range 5).map fun k =>
          bad (!f32In (u32 c.b (24 + 4 * k)) ((f32 (u32 c.b (4 + 4 * k))).getD 0 + 16) top) (24 + 4 * k))
  targets := fun _ b => [u16 b 0]
  settle := fun c d => d.onSettings c.stream fun x =>
    { x with raw := { x.raw with black := tabMod x.raw.black (u8 c.b 2) fun _ => five c.b 4
                                 white := tabMod x.raw.white (u8 c.b 2) fun _ => some (five c.b 24) } }

/-- RAW_WB_SET (Table 6.13). -/
def specRawWbSet : CmdSpec where
  op := 0x0408
  stageable := fun _ => true
  length := fixed 24
  ranges := fun _ b => [sensorStream b 0, zeroAt b 2 2] ++ eachAt 4 4 5 fun o => f32In (u32 b o) (1 / 8) 16
  targets := fun _ b => [u16 b 0]
  settle := fun c d => d.onSettings c.stream fun x => { x with raw := { x.raw with wb := five c.b 4 } }

/-! ## Noise model -/

/-- RAW_NOISE_MODEL_SET (Table 6.6). -/
def specRawNoiseModelSet : CmdSpec where
  op := 0x0403
  stageable := fun b => u8 b 2 = 1
  length := fixed 48
  ranges := fun _ b => [sensorStream b 0, rng b 2 1 0 1, rng b 3 1 0 15, rng b 4 1 0 1, zeroAt b 5 3]
    ++ eachAt 8 4 5 (fun o => f32In (u32 b o) 0 64)
    ++ eachAt 28 4 5 (fun o => u32 b o = 0 || f32In (u32 b o) (1 / 100) 65536)
  combos := fun _ c =>
    let load : Bool := u8 c.b 2 = 0
    comboCheck ([bad (u8 c.b 4 ≠ 0 && !load) 4]
      ++ (List.range 5).map (fun k => bad (!load && u32 c.b (8 + 4 * k) ≠ 0) (8 + 4 * k))
      ++ (List.range 5).map fun k => bad (load != (u32 c.b (28 + 4 * k) != 0)) (28 + 4 * k))
  targets := fun _ b => [u16 b 0]
  against := fun d c =>
    if u8 c.b 2 = 0 && slotNamed d c.stream (u8 c.b 3) (fun x => [x.raw.noiseSlot]) (stagedSlots 0x0403 c.stream fun b => [u8 b 3])
    then some (.busy 3) else none
  act := fun c d => (d.onStream c.stream fun s =>
    { s with tables := { s.tables with noise := tabMod s.tables.noise (u8 c.b 3) fun m =>
        { a := tabMod m.a (u8 c.b 4) fun _ => five c.b 8, b := tabMod m.b (u8 c.b 4) fun _ => five c.b 28 } } }, some .ok)
  settle := fun c d => d.onSettings c.stream fun x => { x with raw := { x.raw with noiseSlot := u8 c.b 3 } }

/-! ## Defects -/

/-- A defect entry: (row, column, plane). Its reserved bits are ignored (R5). -/
def readDefect (v : Nat) : Nat × Nat × Nat := (bits v 28 15, bits v 14 0, bits v 29 29)

/-- Strictly ascending by row, then column, then plane. -/
def defectBefore (a b : Nat × Nat × Nat) : Bool :=
  a.1 < b.1 || (a.1 = b.1 && (a.2.1 < b.2.1 || (a.2.1 = b.2.1 && a.2.2 < b.2.2)))

/-- The defect table that a load names. -/
def defectTable (d : Dev) (b : List Byte) : List Nat := u32s (pailRead d (u32 b 4) (u32 b 8) (4 * u32 b 12)) 0 (u32 b 12)

/-- A defect table's entries are legal, sorted and inside the image (R175). -/
def defectCheck (d : Dev) (c : Ctx) : Option Rsp :=
  let size := (srcSize d c.stream).getD (0, 0)
  let planes := if streamDual d c.stream then 2 else 1
  let t := (defectTable d c.b).map readDefect
  (firstEntry ((indexed t).map fun e =>
      (4 * e.1, e.2.1 < size.2 && e.2.2.1 < size.1 && e.2.2.2 < planes
        && (e.1 = 0 || defectBefore (t.getD (e.1 - 1) (0, 0, 0)) e.2)))).map fun o => badEntry (.combination 4) o

/-- RAW_DEFECT_LOAD (Table 6.7). -/
def specRawDefectLoad : CmdSpec where
  op := 0x0401
  stageable := fun b => u8 b 2 = 1
  length := fixed 20
  ranges := fun d b => [sensorStream b 0, rng b 2 1 0 1, rng b 3 1 0 1, handle0 d b 4, chk 8 (u32 b 8 % 4 = 0), rng b 12 4 0 65536,
    chk 16 (u16 b 16 = 0 || within (u16 b 16) 16 1023)]
  handles := fun b => if u32 b 4 = 0 then [] else [u32 b 4]
  combos := fun _ c =>
    let load : Bool := u8 c.b 2 = 0
    comboCheck [bad ((!load && u32 c.b 4 ≠ 0) || (load && u32 c.b 4 = 0 && u32 c.b 12 ≠ 0)) 4, bad (!load && u32 c.b 8 ≠ 0) 8,
      bad (!load && u32 c.b 12 ≠ 0) 12, bad (load && u16 c.b 16 ≠ 0) 16, bad (load && u16 c.b 18 ≠ 0) 18]
  targets := fun _ b => [u16 b 0]
  against := fun d c =>
    if u8 c.b 2 = 1 then none
    else if slotNamed d c.stream (u8 c.b 3) (fun x => [x.raw.defectSlot]) (stagedSlots 0x0401 c.stream fun b => [u8 b 3])
      then some (.busy 3)
    else if u32 c.b 12 = 0 then none
    else (tableFits d (u32 c.b 4) (u32 c.b 8) (4 * u32 c.b 12) 4 4 4).orElse fun _ => defectCheck d c
  act := fun c d => (d.onStream c.stream fun s =>
    { s with tables := { s.tables with defects := tabMod s.tables.defects (u8 c.b 3) fun _ => (defectTable d c.b).map readDefect } }, some .ok)
  settle := fun c d => d.onSettings c.stream fun x =>
    { x with raw := { x.raw with defectSlot := u8 c.b 3, dynThresh := u16 c.b 16, dynAlarm := u16 c.b 18 } }

/-! ## Fixed-pattern correction -/

/-- Bytes of one plane of a FPN table. -/
def fpnPlane (flags w h : Nat) : Nat := (if bit flags 0 then 4 * w else 0) + (if bit flags 1 then 4 * h else 0)

/-- Reads one plane of a FPN table: columns, then rows. -/
def readFpnPlane (l : List Byte) (flags w h o : Nat) : List (Int × Nat) × List Int :=
  let cols := if bit flags 0 then (List.range w).map fun i => (i16 l (o + 4 * i), u16 l (o + 4 * i + 2)) else []
  let o := if bit flags 0 then o + 4 * w else o
  (cols, if bit flags 1 then (List.range h).map fun i => i16 l (o + 4 * i) else [])

/-- The FPN table of a load. -/
def readFpn (l : List Byte) (flags w h planes : Nat) : FpnTable :=
  let ps := (List.range planes).map fun p => readFpnPlane l flags w h (p * fpnPlane flags w h)
  if flags = 0 then {} else { columns := ps.map (·.1), rows := ps.map (·.2) }

/-- The checks of a FPN table's entries, by offset. Only a column's gain has a range; reserved bytes are ignored (R5). -/
def fpnEntries (l : List Byte) (flags w h planes : Nat) : List (Nat × Bool) :=
  (List.range planes).flatMap fun p =>
    let o := p * fpnPlane flags w h
    if bit flags 0 then (List.range w).map fun i => (o + 4 * i, f16In (u16 l (o + 4 * i + 2)) (1 / 2) 2) else []

/-- Size of a stream's image and its planes. -/
def imagePlanes (d : Dev) (n : Nat) : Nat × Nat × Nat :=
  let s := (srcSize d n).getD (0, 0)
  (s.1, s.2, if streamDual d n then 2 else 1)

/-- RAW_FPN_LOAD (Table 6.8). -/
def specRawFpnLoad : CmdSpec where
  op := 0x0402
  stageable := fun b => u8 b 2 = 1
  length := fixed 16
  ranges := fun d b => [sensorStream b 0, rng b 2 1 0 1, rng b 3 1 0 1, handle0 d b 4, chk 8 (u32 b 8 % 64 = 0), flagBits b 12 1 2, zeroAt b 13 3]
  handles := fun b => if u32 b 4 = 0 then [] else [u32 b 4]
  combos := fun _ c =>
    let load : Bool := u8 c.b 2 = 0
    comboCheck [bad ((!load && u32 c.b 4 ≠ 0) || (load && u32 c.b 4 = 0 && u8 c.b 12 ≠ 0)) 4, bad (!load && u32 c.b 8 ≠ 0) 8,
      bad (!load && u8 c.b 12 ≠ 0) 12]
  targets := fun _ b => [u16 b 0]
  against := fun d c =>
    let s := imagePlanes d c.stream
    let size := s.2.2 * fpnPlane (u8 c.b 12) s.1 s.2.1
    if u8 c.b 2 = 1 then none
    else if slotNamed d c.stream (u8 c.b 3) (fun x => [x.raw.fpnSlot]) (stagedSlots 0x0402 c.stream fun b => [u8 b 3])
      then some (.busy 3)
    else if u8 c.b 12 = 0 then none
    else (tableFits d (u32 c.b 4) (u32 c.b 8) size 4 4 4).orElse fun _ =>
      (firstEntry (fpnEntries (pailRead d (u32 c.b 4) (u32 c.b 8) size) (u8 c.b 12) s.1 s.2.1 s.2.2)).map fun o => badEntry (.range 4) o
  act := fun c d =>
    let s := imagePlanes d c.stream
    let size := s.2.2 * fpnPlane (u8 c.b 12) s.1 s.2.1
    let t := readFpn (pailRead d (u32 c.b 4) (u32 c.b 8) size) (u8 c.b 12) s.1 s.2.1 s.2.2
    (d.onStream c.stream fun s => { s with tables := { s.tables with fpn := tabMod s.tables.fpn (u8 c.b 3) fun _ => t } }, some .ok)
  settle := fun c d => d.onSettings c.stream fun x => { x with raw := { x.raw with fpnSlot := u8 c.b 3 } }

/-! ## Noise reduction and dual gain -/

/-- The CFA period of a stream's sensor. -/
def cfaPeriod (d : Dev) (n : Nat) : Nat × Nat := match furrowOf d n with
  | some (_, c) => (c.cfaW, c.cfaH)
  | none => (1, 1)

/-- RAW_SNR_SET (Table 6.9, R163). -/
def specRawSnrSet : CmdSpec where
  op := 0x0404
  stageable := fun _ => true
  length := fixed 24
  ranges := fun _ b => [sensorStream b 0, flagBits b 2 1 1, rng b 3 1 1 6, rng b 4 2 0 256, zeroAt b 7 1]
  combos := fun d c =>
    let p := cfaPeriod d c.stream
    comboCheck [bad (u8 c.b 3 * p.1 > 12 || u8 c.b 3 * p.2 > 12) 3]
  targets := fun _ b => [u16 b 0]
  settle := fun c d => d.onSettings c.stream fun x =>
    { x with raw := { x.raw with snr := { enable := bit (u8 c.b 2) 0, radius := u8 c.b 3, strength := u16 c.b 4, centre := u8 c.b 6
                                          lut := u8s c.b 8 16 } } }

/-- RAW_TNR_SET (Table 6.10, R177). -/
def specRawTnrSet : CmdSpec where
  op := 0x0405
  stageable := fun _ => true
  length := fixed 16
  ranges := fun _ b => [sensorStream b 0, flagBits b 2 1 2, zeroAt b 3 1, rng b 4 2 1 256, rng b 6 2 0 1023, rng b 8 2 1 1024, rng b 10 2 0 4096,
    zeroAt b 12 4]
  combos := fun _ c => comboCheck [bad (u16 c.b 8 ≤ u16 c.b 6) 8]
  targets := fun _ b => [u16 b 0]
  against := fun d c => if bit (u8 c.b 2) 0 && !(d.stream c.stream).settings.motion.enable then some (.combination 2) else none
  settle := fun c d => d.onSettings c.stream fun x =>
    { x with raw := { x.raw with tnr := { enable := bit (u8 c.b 2) 0, reset := bit (u8 c.b 2) 1, kMin := u16 c.b 4, tLo := u16 c.b 6
                                          tHi := u16 c.b 8, maxDisp := u16 c.b 10 } } }

/-- RAW_DUAL_GAIN_SET (Table 6.11). -/
def specRawDualGainSet : CmdSpec where
  op := 0x0406
  stageable := fun _ => true
  length := fixed 16
  ranges := fun _ b => [sensorStream b 0, rng b 2 1 0 1, zeroAt b 3 1, chk 4 (f32In (u32 b 4) 1 16), chk 8 (f32In (u32 b 8) (1 / 4) (99 / 100)),
    chk 12 (f32In (u32 b 12) (26 / 100) 1)]
  combos := fun d c => comboCheck [bad (!streamDual d c.stream) 0,
    bad (!f32In (u32 c.b 12) ((f32 (u32 c.b 8)).getD 0 + 1 / 100) 1) 12]
  targets := fun _ b => [u16 b 0]
  settle := fun c d => d.onSettings c.stream fun x =>
    { x with raw := { x.raw with dual := { hgPlane := u8 c.b 2, ratio := u32 c.b 4, kneeLo := u32 c.b 8, kneeHi := u32 c.b 12 } } }

/-! ## Shading -/

/-- RAW_SHADING_LOAD (Table 6.12). -/
def specRawShadingLoad : CmdSpec where
  op := 0x0407
  stageable := fun b => u8 b 2 = 1
  length := fixed 24
  ranges := fun d b => [sensorStream b 0, rng b 2 1 0 1, rng b 3 1 0 7, rng b 4 1 0 7, zeroAt b 5 1, rng b 6 2 0 256, handle0 d b 8,
    chk 12 (u32 b 12 % 64 = 0), chk 16 (u16 b 16 = 0 || within (u16 b 16) 3 129), chk 18 (u16 b 18 = 0 || within (u16 b 18) 3 129),
    zeroAt b 20 4]
  handles := fun b => if u32 b 8 = 0 then [] else [u32 b 8]
  combos := fun _ c =>
    let load : Bool := u8 c.b 2 = 0
    comboCheck [bad (load && u8 c.b 4 ≠ 0) 4, bad (load && u16 c.b 6 ≠ 0) 6,
      bad ((!load && u32 c.b 8 ≠ 0) || (load && u32 c.b 8 = 0 && u16 c.b 16 ≠ 0)) 8, bad (!load && u32 c.b 12 ≠ 0) 12,
      bad (!load && u16 c.b 16 ≠ 0) 16, bad ((!load && u16 c.b 18 ≠ 0) || ((u16 c.b 16 == 0) != (u16 c.b 18 == 0))) 18]
  targets := fun _ b => [u16 b 0]
  against := fun d c =>
    let size := u16 c.b 16 * u16 c.b 18 * 10
    if u8 c.b 2 = 1 then none
    else if slotNamed d c.stream (u8 c.b 3) (fun x => [x.raw.shadingA, x.raw.shadingB])
        (stagedSlots 0x0407 c.stream fun b => [u8 b 3, u8 b 4])
      then some (.busy 3)
    else if size = 0 then none
    else (tableFits d (u32 c.b 8) (u32 c.b 12) size 10 10 8).orElse fun _ =>
      let l := pailRead d (u32 c.b 8) (u32 c.b 12) size
      (firstEntry ((List.range (size / 2)).map fun i => (i / 5 * 10, f16In (u16 l (2 * i)) (1 / 4) 16))).map fun o => badEntry (.range 8) o
  act := fun c d =>
    let size := u16 c.b 16 * u16 c.b 18 * 10
    let l := pailRead d (u32 c.b 8) (u32 c.b 12) size
    let t : ShadingTable := { gridW := u16 c.b 16, gridH := u16 c.b 18, nodes := (List.range (size / 10)).map fun i => u16s l (10 * i) 5 }
    (d.onStream c.stream fun s => { s with tables := { s.tables with shading := tabMod s.tables.shading (u8 c.b 3) fun _ => t } }, some .ok)
  settle := fun c d => d.onSettings c.stream fun x =>
    { x with raw := { x.raw with shadingA := u8 c.b 3, shadingB := u8 c.b 4, blend := u16 c.b 6 } }

/-- RAW_QUERY (Table 6.14). -/
def specRawQuery : CmdSpec where
  op := 0x0409
  length := fixed 4
  ranges := fun _ b => [sensorStream b 0, zeroAt b 2 2]
  act := fun c d =>
    let s := d.stream c.stream
    let r := s.bound.raw
    let en := boolNat r.snr.enable + 2 * boolNat r.tnr.enable + 4 * boolNat (r.dynThresh ≠ 0)
    (d, some (.ok (le 4 s.boundEpoch ++ le 8 s.boundFrame ++ le 1 en ++ le 1 r.noiseSlot ++ le 1 r.defectSlot ++ le 1 r.fpnSlot
      ++ le 1 r.shadingA ++ le 1 r.shadingB ++ le 2 r.blend ++ le 4 s.boundDynDefects ++ le 4 (s.tables.defects.getD r.defectSlot []).length
      ++ le 4 (counterOf d (u16 c.b 0) 0) ++ le 4 (counterOf d (u16 c.b 0) 2))))

end Sys2Proof.Machine
end

