-- ==== Sys2Proof/Machine/ColourCmd.lean ====
section
/-! DEFINITION. Area 0x05: the commands of the colour pipeline and the branches (R214, R216, R217, R221, R223, R226,
Tables 8.7 to 8.13). -/

namespace Sys2Proof.Machine

/-- Changes the colour settings of a stream. -/
def onColour (n : Nat) (f : ColourSet → ColourSet) (d : Dev) : Dev :=
  d.onSettings n fun x => { x with colour := f x.colour }

/-- Changes the settings of a branch named by its object ID. -/
def onBranch (o : Nat) (f : BranchSet → BranchSet) (d : Dev) : Dev :=
  d.onSettings (branchOf o).1 fun x => { x with branches := tabMod x.branches (branchOf o).2 f }

/-- An fp32 field holds a finite number. -/
def finite32 (b : List Byte) (o : Nat) : Bool := (f32 (u32 b o)).isSome

/-- DEMOSAIC_SET. -/
def specDemosaicSet : CmdSpec where
  op := 0x0500
  stageable := fun _ => true
  length := fixed 4
  ranges := fun _ b => [sensorStream b 0, rng b 2 1 0 2, rng b 3 1 0 1]
  targets := fun _ b => [u16 b 0]
  settle := fun c d => onColour c.stream (fun x => { x with method := u8 c.b 2, highlight := u8 c.b 3 }) d

/-- The scale that a transfer function takes: PQ and HLG take any in range, the others 1.0 (Table 8.10). -/
def scaleOk (transfer scale : Nat) : Bool := transfer = 3 || transfer = 4 || scale = fpOne

/-- COLOUR_SPACE_SET: the input fields are 0 on sensor streams (R226). -/
def specColourSpaceSet : CmdSpec where
  op := 0x0501
  stageable := fun _ => true
  length := fixed 12
  ranges := fun _ b => [obj b 0 0x2, rng b 2 1 1 2, rng b 3 1 0 6, rng b 4 1 0 5, rng b 5 1 0 2, rng b 6 1 0 1, rng b 7 1 0 2,
    chk 8 (u32 b 8 = 0 || f32In (u32 b 8) (1 / 1000) 10000)]
  combos := fun _ c =>
    let b := c.b
    let sensor : Bool := c.stream < 16
    comboCheck [bad (sensor && u8 b 3 ≠ 0) 3, bad (sensor != (u8 b 4 == 0)) 4, bad (sensor && u8 b 5 ≠ 0) 5, bad (sensor && u8 b 6 ≠ 0) 6,
      bad (sensor && u8 b 7 ≠ 0) 7, bad (if sensor then u32 b 8 ≠ 0 else !scaleOk (u8 b 3) (u32 b 8)) 8]
  targets := fun _ b => [u16 b 0]
  settle := fun c d => onColour c.stream (fun x =>
    if c.stream < 16 then { x with working := u8 c.b 2 }
    else { x with working := u8 c.b 2, inTransfer := u8 c.b 3, inPrimaries := u8 c.b 4, inYcc := u8 c.b 5, inRange := u8 c.b 6
                  inChroma := u8 c.b 7, inScale := u32 c.b 8 }) d

/-- MATRIX_SET (Table 8.8). -/
def specMatrixSet : CmdSpec where
  op := 0x0502
  stageable := fun _ => true
  length := fixed 64
  ranges := fun _ b => [chk 0 (objIs 0x2 (u16 b 0) || objIs 0x3 (u16 b 0)), rng b 2 1 0 2, rng b 3 1 0 5]
    ++ eachAt 4 4 12 (fun o => f32In (u32 b o) (-64) 64) ++ eachAt 52 4 3 (fun o => f32In (u32 b o) (-16) 16)
  combos := fun _ c =>
    let b := c.b
    let camera : Bool := u8 b 2 = 0
    let zero := fun o => f32 (u32 b o) == some 0
    comboCheck ([bad (if camera then !(objIs 0x2 (u16 b 0) && objIndex (u16 b 0) < 16) else !objIs 0x3 (u16 b 0)) 2, bad (u8 b 3 ≠ 0 && u8 b 2 ≠ 2) 3]
      ++ (List.range 12).map (fun k => bad (((!camera && k % 4 = 3) || u8 b 3 ≠ 0) && !zero (4 + 4 * k)) (4 + 4 * k)))
  targets := fun _ b => [u16 b 0]
  settle := fun c d =>
    let m : Matrix := { coeffs := u32s c.b 4 12, offset := u32s c.b 52 3, builtin := u8 c.b 3 }
    match u8 c.b 2 with
    | 0 => onColour c.stream (fun x => { x with camera := m }) d
    | 1 => onBranch (u16 c.b 0) (fun x => { x with m1 := m }) d
    | _ => onBranch (u16 c.b 0) (fun x => { x with m2 := m }) d

/-- CDL_SET (Table 8.9). -/
def specCdlSet : CmdSpec where
  op := 0x0503
  stageable := fun _ => true
  length := fixed 44
  ranges := fun _ b => [obj b 0 0x3, flagBits b 2 1 2, rng b 3 1 0 2] ++ eachAt 4 4 3 (fun o => f32In (u32 b o) 0 16)
    ++ eachAt 16 4 3 (fun o => f32In (u32 b o) (-1) 1) ++ eachAt 28 4 3 (fun o => f32In (u32 b o) (1 / 10) 4)
    ++ [chk 40 (f32In (u32 b 40) 0 4)]
  targets := fun _ b => [u16 b 0]
  settle := fun c d => onBranch (u16 c.b 0) (fun x =>
    { x with cdl := { enable := bit (u8 c.b 2) 0, clamp := bit (u8 c.b 2) 1, space := u8 c.b 3, slope := u32s c.b 4 3
                      offset := u32s c.b 16 3, power := u32s c.b 28 3, sat := u32 c.b 40 } }) d

/-- TRANSFER_SET (Table 8.10). -/
def specTransferSet : CmdSpec where
  op := 0x0506
  stageable := fun _ => true
  length := fixed 8
  ranges := fun _ b => [obj b 0 0x3, rng b 2 1 0 6, zeroAt b 3 1, chk 4 (f32In (u32 b 4) (1 / 1000) 10000)]
  combos := fun _ c => comboCheck [bad (!scaleOk (u8 c.b 2) (u32 c.b 4)) 4]
  targets := fun _ b => [u16 b 0]
  settle := fun c d => onBranch (u16 c.b 0) (fun x => { x with transfer := u8 c.b 2, scale := u32 c.b 4 }) d

/-! ## LUTs -/

/-- A LUT slot field: none for the bypass. -/
def lutSlot (v : Nat) : Option Nat := if v = 0xFF then none else some v

/-- The slots a staged LUT select of stream `n` names. -/
def stagedLut (op n : Nat) (x : Staged) : List Nat :=
  if x.op = op && u8 x.params 2 = 1 && objIs 0x3 (u16 x.params 0) && (branchOf (u16 x.params 0)).1 = n then [u8 x.params 3] else []

/-- LUT1D_LOAD (R212, R214, Table 8.11). -/
def specLut1dLoad : CmdSpec where
  op := 0x0504
  stageable := fun b => u8 b 2 = 1
  length := fixed 24
  ranges := fun d b => [chk 0 (objIs 0x2 (u16 b 0) || objIs 0x3 (u16 b 0)), rng b 2 1 0 1, chk 3 (u8 b 3 ≤ 15 || u8 b 3 = 0xFF), rng b 4 1 0 1,
    chk 5 (u8 b 5 ∈ [0, 1, 3]), zeroAt b 6 2, handle0 d b 8, chk 12 (u32 b 12 % 64 = 0), chk 16 (finite32 b 16), chk 20 (finite32 b 20)]
  handles := fun b => if u32 b 8 = 0 then [] else [u32 b 8]
  combos := fun _ c =>
    let b := c.b
    let load : Bool := u8 b 2 = 0
    comboCheck [bad (load != objIs 0x2 (u16 b 0)) 2, bad (load && u8 b 3 = 0xFF) 3, bad (load && u8 b 4 ≠ 0) 4, bad (load != (u8 b 5 != 0)) 5,
      bad (load != (u32 b 8 != 0)) 8, bad (!load && u32 b 12 ≠ 0) 12, bad (!load && u32 b 16 ≠ 0) 16,
      bad (if load then (f32 (u32 b 20)).getD 0 ≤ (f32 (u32 b 16)).getD 0 else u32 b 20 ≠ 0) 20]
  targets := fun _ b => [u16 b 0]
  against := fun d c =>
    let size := 16384 * u8 c.b 5
    if u8 c.b 2 = 1 then none
    else if slotNamed d c.stream (u8 c.b 3) (fun x => x.branches.flatMap fun b => b.pre.toList ++ b.post.toList) (stagedLut 0x0504 c.stream)
      then some (.busy 3)
    else (tableFits d (u32 c.b 8) (u32 c.b 12) size 4 1 8).orElse fun _ =>
      let l := pailRead d (u32 c.b 8) (u32 c.b 12) size
      (firstEntry ((List.range (size / 4)).map fun i => (i, finite32 l (4 * i)))).map fun o => badEntry (.range 8) o
  act := fun c d =>
    let size := 16384 * u8 c.b 5
    let l := pailRead d (u32 c.b 8) (u32 c.b 12) size
    let t : Lut1 := { channels := u8 c.b 5, dmin := u32 c.b 16, dmax := u32 c.b 20, entries := u32s l 0 (size / 4) }
    (d.onStream c.stream fun s => { s with luts := { s.luts with lut1 := tabMod s.luts.lut1 (u8 c.b 3) fun _ => t } }, some .ok)
  settle := fun c d => onBranch (u16 c.b 0) (fun x =>
    if u8 c.b 4 = 0 then { x with pre := lutSlot (u8 c.b 3) } else { x with post := lutSlot (u8 c.b 3) }) d

/-- Bytes of a 3D LUT (R213). -/
abbrev lut3Bytes : Nat := 1647750

/-- LUT3D_LOAD (R213, R214, Table 8.12). -/
def specLut3dLoad : CmdSpec where
  op := 0x0505
  stageable := fun b => u8 b 2 = 1
  length := fixed 16
  ranges := fun d b => [chk 0 (objIs 0x2 (u16 b 0) || objIs 0x3 (u16 b 0)), rng b 2 1 0 1, chk 3 (u8 b 3 ≤ 3 || u8 b 3 = 0xFF), handle0 d b 4,
    chk 8 (u32 b 8 % 64 = 0), zeroAt b 12 4]
  handles := fun b => if u32 b 4 = 0 then [] else [u32 b 4]
  combos := fun _ c =>
    let b := c.b
    let load : Bool := u8 b 2 = 0
    comboCheck [bad (load != objIs 0x2 (u16 b 0)) 2, bad (load && u8 b 3 = 0xFF) 3, bad (load != (u32 b 4 != 0)) 4, bad (!load && u32 b 8 ≠ 0) 8]
  targets := fun _ b => [u16 b 0]
  against := fun d c =>
    if u8 c.b 2 = 1 then none
    else if slotNamed d c.stream (u8 c.b 3) (fun x => x.branches.flatMap fun b => b.lut3.toList) (stagedLut 0x0505 c.stream)
      then some (.busy 3)
    else (tableFits d (u32 c.b 4) (u32 c.b 8) lut3Bytes 6 1 4).orElse fun _ =>
      let l := pailRead d (u32 c.b 4) (u32 c.b 8) lut3Bytes
      (firstEntry ((List.range (lut3Bytes / 2)).map fun i => (i / 3, (f16 (u16 l (2 * i))).isSome))).map fun o => badEntry (.range 4) o
  act := fun c d =>
    let l := pailRead d (u32 c.b 4) (u32 c.b 8) lut3Bytes
    (d.onStream c.stream fun s =>
      { s with luts := { s.luts with lut3 := tabMod s.luts.lut3 (u8 c.b 3) fun _ => u16s l 0 (lut3Bytes / 2) } }, some .ok)
  settle := fun c d => onBranch (u16 c.b 0) (fun x => { x with lut3 := lutSlot (u8 c.b 3) }) d

/-! ## Branches -/

/-- The part of BRANCH_CONFIG in a branch's settings (Table 8.7). -/
def readBranch (b : List Byte) (x : BranchSet) : BranchSet :=
  { x with configured := true, cls := u8 b 2, format := u8 b 3, outW := u16 b 4, outH := u16 b 6, cropX := u16 b 8, cropY := u16 b 10
           cropW := u16 b 12, cropH := u16 b 14, ycc := u8 b 16, range := u8 b 17, alpha := u8 b 18, depth := u8 b 19, pail := u32 b 20 }

/-- A scale factor lies in 1 to 32 (R217). -/
def scaleRange (crop out : Nat) : Bool := out ≤ crop && crop ≤ 32 * out

/-- A branch against an image of a size (R217). -/
def branchFitsIn (w h : Nat) (x : BranchSet) : Option Rsp :=
  let c := x.crop w h
  comboCheck [bad (c.1 ≥ w || c.1 + c.2.2.1 > w) 12, bad (c.2.1 ≥ h || c.2.1 + c.2.2.2 > h) 14,
    bad (!scaleRange c.2.2.1 x.outW) 12, bad (!scaleRange c.2.2.2 x.outH) 14]

/-- BRANCH_CONFIG against its source image (R217). While the image is not known, only the scale of an explicit crop is checked. -/
def branchFits (d : Dev) (n : Nat) (x : BranchSet) : Option Rsp :=
  match srcSize d n with
  | none => comboCheck [bad (x.cropW ≠ 0 && !scaleRange x.cropW x.outW) 12, bad (x.cropH ≠ 0 && !scaleRange x.cropH x.outH) 14]
  | some (w, h) => branchFitsIn w h x

/-- BRANCH_CONFIG takes effect: a change of format, size or ring starts a new ring at slot 0 (R225). -/
def branchSettle (c : Ctx) (d : Dev) : Dev :=
  let o := u16 c.b 0
  let old := branchSet d o
  let new := readBranch c.b old
  let d := onBranch o (fun _ => new) d
  if [old.format, old.outW, old.outH, old.depth, old.pail] = [new.format, new.outW, new.outH, new.depth, new.pail] then d
  else onRingOf o (OutRing.replace old.pail) d

/-- BRANCH_CONFIG (Table 8.7). -/
def specBranchConfig : CmdSpec where
  op := 0x0507
  stageable := fun _ => true
  length := fixed 32
  ranges := fun d b => [obj b 0 0x3, rng b 2 1 0 2, chk 3 (formatOk (u8 b 3)), rng b 4 2 16 32768, rng b 6 2 8 16384, rng b 8 2 0 32767,
    rng b 10 2 0 16383, chk 12 (u16 b 12 = 0 || within (u16 b 12) 16 32768), chk 14 (u16 b 14 = 0 || within (u16 b 14) 8 16384),
    rng b 16 1 0 2, rng b 17 1 0 1, rng b 18 1 0 1, rng b 19 1 2 16, handle0 d b 20, zeroAt b 24 8]
  handles := fun b => if u32 b 20 = 0 then [] else [u32 b 20]
  combos := fun d c =>
    let x := readBranch c.b {}
    let f := x.format
    let ring : Bool := x.pail ≠ 0
    comboCheck [bad (f / 16 ≥ 3 && x.outW % 2 = 1) 4, bad (f / 16 = 4 && x.outH % 2 = 1) 6, bad ((x.ycc != 0) != decide (f ≥ 0x20)) 16,
      bad (f = 1 && x.range ≠ 0) 17, bad (x.alpha ≠ 0 && f ≠ 1 && f ≠ 2) 18, bad (ring && x.depth < 2 + classB x.cls) 19,
      bad (ring && pailSize d x.pail < x.depth * x.slotSize) 20]
  targets := fun _ b => [u16 b 0]
  against := fun d c =>
    let o := u16 c.b 0
    if u32 c.b 20 = 0 && (branchSet d o).enable then some (.combination 20) else branchFits d (branchOf o).1 (readBranch c.b (branchSet d o))
  settle := branchSettle

/-- The length of BRANCH_SCALER_SET. -/
def scalerLength (b : List Byte) : Nat := if u8 b 2 = 2 || u8 b 3 = 2 then 1032 else 8

/-- BRANCH_SCALER_SET (R218). -/
def specBranchScalerSet : CmdSpec where
  op := 0x0508
  stageable := fun _ => true
  length := counted 4 scalerLength
  ranges := fun _ b => [obj b 0 0x3, rng b 2 1 0 2, rng b 3 1 0 2, zeroAt b 4 4]
  combos := fun _ c =>
    if scalerLength c.b = 8 then none
    else comboCheck ((List.range 64).map fun p => bad (((List.range 8).map fun k => i16 c.b (8 + 16 * p + 2 * k)).sum ≠ 16384) (8 + 16 * p))
  targets := fun _ b => [u16 b 0]
  settle := fun c d => onBranch (u16 c.b 0) (fun x =>
    { x with kernelH := u8 c.b 2, kernelV := u8 c.b 3
             coeffs := if scalerLength c.b = 8 then [] else (List.range 512).map fun k => i16 c.b (8 + 2 * k) }) d

/-- BRANCH_ENABLE takes effect; enabling sets the branch's two counters to 0 (Table 8.13). -/
def branchEnableSettle (c : Ctx) (d : Dev) : Dev :=
  let o := u16 c.b 0
  let on : Bool := u8 c.b 2 = 1
  let d := onBranch o (fun x => { x with enable := on }) d
  if on then setCounter o 0 0 (setCounter o 1 0 d) else d

/-- BRANCH_ENABLE. -/
def specBranchEnable : CmdSpec where
  op := 0x0509
  stageable := fun _ => true
  length := fixed 4
  ranges := fun _ b => [obj b 0 0x3, rng b 2 1 0 1, zeroAt b 3 1]
  targets := fun _ b => [u16 b 0]
  against := fun d c =>
    let x := branchSet d (u16 c.b 0)
    if u8 c.b 2 = 1 && !(x.configured && (livePail d x.pail).isSome && (branchFits d (branchOf (u16 c.b 0)).1 x).isNone)
    then some (.combination 0) else none
  settle := branchEnableSettle

/-- BRANCH_QUERY. -/
def specBranchQuery : CmdSpec where
  op := 0x050A
  length := fixed 4
  ranges := fun _ b => [obj b 0 0x3, zeroAt b 2 2]
  act := fun c d =>
    let o := u16 c.b 0
    let x := branchSet d o
    let r := ringOf d o
    let dec := match srcSize d (branchOf o).1 with
      | some (w, h) => let q := x.crop w h; (decimation q.2.2.1 x.outW, decimation q.2.2.2 x.outH)
      | none => (1, 1)
    (d, some (.ok (le 1 (boolNat x.enable) ++ le 1 x.cls ++ le 1 x.format ++ le 1 0 ++ le 2 x.outW ++ le 2 x.outH ++ le 1 dec.1 ++ le 1 dec.2
      ++ le 1 x.transfer ++ le 1 (x.lut3.getD 0xFF) ++ le 1 (x.pre.getD 0xFF) ++ le 1 (x.post.getD 0xFF) ++ le 2 0 ++ le 4 r.lastEpoch
      ++ le 8 r.lastFrame ++ le 4 (counterOf d o 0) ++ le 4 (counterOf d o 1))))

end Sys2Proof.Machine
end

