-- ==== Sys2Proof/Machine/StatsCmd.lean ====
section
/-! DEFINITION. Areas 0x06 and 0x07: the commands of statistics, raw taps and the motion field (R197, R229, R234, R236,
R242 to R244, Tables 7.4 to 7.6 and 9.7 to 9.9). -/

namespace Sys2Proof.Machine

/-- Changes the statistics settings of a stream. -/
def onStats (n : Nat) (f : StatsSet → StatsSet) (d : Dev) : Dev := d.onSettings n fun x => { x with stats := f x.stats }

/-- Changes a tap's settings. -/
def onTap (n point : Nat) (f : TapSet → TapSet) (d : Dev) : Dev :=
  d.onSettings n fun x => { x with taps := tabMod x.taps point f }

/-- Changes the motion settings of a stream. -/
def onMotion (n : Nat) (f : MotionSet → MotionSet) (d : Dev) : Dev := d.onSettings n fun x => { x with motion := f x.motion }

/-- Settings of a tap. -/
def tapSet (d : Dev) (n point : Nat) : TapSet := tabGet (d.stream n).settings.taps point

/-- STATS_CONFIG takes effect. A change of ring starts at slot 0 (R241); enabling clears the late records (R524). -/
def statsSettle (c : Ctx) (d : Dev) : Dev :=
  let old := (d.stream c.stream).settings.stats
  let b := c.b
  let on := bit (u8 b 2) 0
  let d := onStats c.stream (fun x =>
    { x with enable := on, notify := bit (u8 b 2) 1, cls := u8 b 3, mode := u8 b 4, point := u8 b 5, depth := u8 b 6, pail := u32 b 8 }) d
  let d := if old.depth = u8 b 6 && old.pail = u32 b 8 then d else onRingOf (statsRef c.stream) (OutRing.replace old.pail) d
  if on && !old.enable then setCounter (0x2000 + c.stream) 8 0 d else d

/-- STATS_CONFIG (Table 9.7). -/
def specStatsConfig : CmdSpec where
  op := 0x0600
  stageable := fun _ => true
  length := fixed 16
  ranges := fun d b => [sensorStream b 0, flagBits b 2 1 2, rng b 3 1 0 1, rng b 4 1 0 1, rng b 5 1 0 1, rng b 6 1 2 16, zeroAt b 7 1,
    handle0 d b 8, zeroAt b 12 4]
  handles := fun b => if u32 b 8 = 0 then [] else [u32 b 8]
  combos := fun d c =>
    let ring : Bool := u32 c.b 8 ≠ 0
    comboCheck [bad (ring && u8 c.b 6 < 2 + classB (u8 c.b 3)) 6, bad (ring && pailSize d (u32 c.b 8) < u8 c.b 6 * statsSlot) 8,
      bad (!ring && bit (u8 c.b 2) 0) 8]
  targets := fun _ b => [u16 b 0]
  settle := statsSettle

/-- STATS_ZONES_SET (R234, R244). -/
def specStatsZonesSet : CmdSpec where
  op := 0x0601
  stageable := fun _ => true
  length := fixed 12
  ranges := fun _ b => [sensorStream b 0, zeroAt b 2 2, rng b 4 2 0 32767, rng b 6 2 0 16383, chk 8 (u16 b 8 = 0 || within (u16 b 8) 64 32768),
    chk 10 (u16 b 10 = 0 || within (u16 b 10) 48 16384)]
  combos := fun d c =>
    match furrowOf d c.stream with
    | none => some (.combination 0)
    | some (_, f) =>
      let x := u16 c.b 4
      let y := u16 c.b 6
      let w := if u16 c.b 8 = 0 then f.width - x else u16 c.b 8
      let h := if u16 c.b 10 = 0 then f.height - y else u16 c.b 10
      comboCheck [bad (w < 64 || x + w > f.width) 8, bad (h < 48 || y + h > f.height) 10]
  targets := fun _ b => [u16 b 0]
  settle := fun c d => onStats c.stream (fun x => { x with zoneX := u16 c.b 4, zoneY := u16 c.b 6, zoneW := u16 c.b 8, zoneH := u16 c.b 10 }) d

/-- The part of TAP_CONFIG in a tap's settings (Table 9.8). -/
def readTap (b : List Byte) (x : TapSet) : TapSet :=
  { x with configured := true, format := u8 b 3, cls := u8 b 4, depth := u8 b 5, cropX := u16 b 8, cropY := u16 b 10, cropW := u16 b 12
           cropH := u16 b 14, pail := u32 b 16 }

/-- Planes of a tap at a point. -/
def tapPlanes (d : Dev) (n point : Nat) : Nat := if point < 3 && streamDual d n then 2 else 1

/-- Bytes of a tap's slot on its stream. -/
def tapSlotOf (d : Dev) (n point : Nat) (t : TapSet) : Nat :=
  let s := (srcSize d n).getD (0, 0)
  let c := t.crop s.1 s.2
  tapSlot t.format c.2.2.1 c.2.2.2 (streamBits d n) (tapPlanes d n point)

/-- A tap's crop lies inside the image in whole CFA periods (R244), and its pail holds its ring. -/
def tapFits (d : Dev) (n point : Nat) (t : TapSet) : Option Rsp :=
  match furrowOf d n with
  | none => some (.combination 0)
  | some (_, f) =>
    let c := t.crop f.width f.height
    let off : Bool := c.1 ≥ f.width || c.2.1 ≥ f.height || c.1 + c.2.2.1 > f.width || c.2.1 + c.2.2.2 > f.height
    let odd : Bool := c.1 % f.cfaW ≠ 0 || c.2.2.1 % f.cfaW ≠ 0 || c.2.1 % f.cfaH ≠ 0 || c.2.2.2 % f.cfaH ≠ 0
    comboCheck [bad (off || odd) 8, bad (t.pail ≠ 0 && pailSize d t.pail < t.depth * tapSlotOf d n point t) 16]

/-- TAP_CONFIG (Table 9.8, R242 to R244). -/
def specTapConfig : CmdSpec where
  op := 0x0602
  stageable := fun _ => true
  length := fixed 24
  ranges := fun d b => [sensorStream b 0, rng b 2 1 0 4, rng b 3 1 0 3, rng b 4 1 0 2, rng b 5 1 2 16, zeroAt b 6 2, handle0 d b 16, zeroAt b 20 4]
  handles := fun b => if u32 b 16 = 0 then [] else [u32 b 16]
  combos := fun d c =>
    let t := readTap c.b {}
    (comboCheck [bad (if u8 c.b 2 < 3 then t.format ≥ 2 else t.format < 2) 3, bad (t.pail ≠ 0 && t.depth < 2 + classB t.cls) 5]).orElse
      fun _ => tapFits d c.stream (u8 c.b 2) t
  targets := fun _ b => [u16 b 0]
  against := fun d c => if u32 c.b 16 = 0 && (tapSet d c.stream (u8 c.b 2)).enable then some (.combination 16) else none
  settle := fun c d =>
    let n := c.stream
    let p := u8 c.b 2
    let old := tapSet d n p
    let new := readTap c.b old
    let slots := (tapSlotOf d n p old, tapSlotOf d n p new)
    let d := onTap n p (fun _ => new) d
    if old.format = new.format && old.depth = new.depth && old.pail = new.pail && slots.1 = slots.2 then d
    else onRingOf (tapRef n p) (OutRing.replace old.pail) d

/-- TAP_ENABLE. Skips count from the enable. -/
def specTapEnable : CmdSpec where
  op := 0x0603
  stageable := fun _ => true
  length := fixed 4
  ranges := fun _ b => [sensorStream b 0, rng b 2 1 0 4, rng b 3 1 0 1]
  targets := fun _ b => [u16 b 0]
  against := fun d c =>
    let t := tapSet d c.stream (u8 c.b 2)
    if u8 c.b 3 = 1 && !(t.configured && (livePail d t.pail).isSome && (tapFits d c.stream (u8 c.b 2) t).isNone)
    then some (.combination 0) else none
  settle := fun c d =>
    let on : Bool := u8 c.b 3 = 1
    let d := onTap c.stream (u8 c.b 2) (fun t => { t with enable := on }) d
    if on then onRingOf (tapRef c.stream (u8 c.b 2)) (fun r => { r with skips := 0 }) d else d

/-- STATS_QUERY. -/
def specStatsQuery : CmdSpec where
  op := 0x0604
  length := fixed 4
  ranges := fun _ b => [sensorStream b 0, zeroAt b 2 2]
  act := fun c d =>
    let s := d.stream c.stream
    let t := s.settings
    let en := sumOf (fun e => if e.2.enable then 2 ^ e.1 else 0) (indexed t.taps)
    (d, some (.ok (le 1 (boolNat t.stats.enable + 2 * boolNat t.stats.notify) ++ le 1 t.stats.cls ++ le 1 en ++ le 1 0
      ++ le 8 s.statsRing.lastFrame ++ le 4 s.statsRing.lastEpoch ++ le 4 (counterOf d (u16 c.b 0) 8)
      ++ s.tapRings.flatMap fun r => le 4 (min r.skips (2 ^ 32 - 1)))))

/-! ## Motion -/

/-- MOTION_CONFIG (R183, R197, Table 7.4). The weights of the channels the CFA has must not all be 0. -/
def specMotionConfig : CmdSpec where
  op := 0x0700
  stageable := fun _ => true
  length := fixed 16
  ranges := fun _ b => [sensorStream b 0, flagBits b 2 1 1, zeroAt b 3 1] ++ eachAt 4 2 5 (fun o => u16 b o ≤ 1024) ++ [zeroAt b 14 2]
  combos := fun d c => match furrowOf d c.stream with
    | some (_, f) => comboCheck [bad (!f.cfa.isEmpty && f.cfa.all fun ch => u16 c.b (4 + 2 * ch) = 0) 4]
    | none => comboCheck [bad ((u16s c.b 4 5).all (· = 0)) 4]
  targets := fun _ b => [u16 b 0]
  against := fun d c => if !bit (u8 c.b 2) 0 && (d.stream c.stream).settings.raw.tnr.enable then some (.combination 2) else none
  settle := fun c d => onMotion c.stream (fun x => { x with enable := bit (u8 c.b 2) 0, weights := u16s c.b 4 5 }) d

/-- MOTION_SEARCH_SET (Table 7.5). -/
def specMotionSearchSet : CmdSpec where
  op := 0x0701
  stageable := fun _ => true
  length := fixed 12
  ranges := fun _ b => [sensorStream b 0, rng b 2 1 1 16, rng b 3 1 0 2, rng b 4 2 0 1023, flagBits b 8 1 2, zeroAt b 9 3]
  targets := fun _ b => [u16 b 0]
  settle := fun c d => onMotion c.stream (fun x =>
    { x with range3 := u8 c.b 2, refine := u8 c.b 3, lambda := u16 c.b 4, sadReject := u16 c.b 6, temporal := bit (u8 c.b 8) 0
             spatial := bit (u8 c.b 8) 1 }) d

/-- Bytes of a slot of a motion export ring (Table 7.6). -/
def exportSlot (w h : Nat) : Nat := roundUp (fieldBytes w h) 4096

/-- MOTION_EXPORT (Table 7.6). -/
def specMotionExport : CmdSpec where
  op := 0x0702
  stageable := fun _ => true
  length := fixed 8
  ranges := fun d b => [sensorStream b 0, flagBits b 2 1 1, rng b 3 1 2 16, handle d b 4]
  handles := fun b => [u32 b 4]
  combos := fun d c =>
    let s := (srcSize d c.stream).getD (0, 0)
    comboCheck [bad (pailSize d (u32 c.b 4) < u8 c.b 3 * exportSlot s.1 s.2) 4]
  targets := fun _ b => [u16 b 0]
  settle := fun c d =>
    let old := (d.stream c.stream).settings.motion
    let d := onMotion c.stream (fun x => { x with exportOn := bit (u8 c.b 2) 0, exportDepth := u8 c.b 3, exportPail := u32 c.b 4 }) d
    if old.exportPail = u32 c.b 4 && old.exportDepth = u8 c.b 3 then d else d.onStream c.stream fun s => { s with exportNext := 0 }

/-- The header of a motion field (Table 7.2). -/
def fieldHeader (n : Nat) (f : MotionField) : List Byte :=
  le 8 f.frame ++ le 8 f.refFrame ++ le 2 (0x2000 + n) ++ le 2 f.blocksW ++ le 2 f.blocksH ++ le 2 (boolNat f.noRef + 2 * boolNat f.anyLate
    + 4 * boolNat f.anyConcealed + 8 * boolNat f.complete) ++ le 4 f.epoch
    ++ le 4 (f.records.filter (·.valid)).length ++ le 4 f.doneStamp ++ le 1 f.domain ++ List.replicate 27 0

/-- MOTION_QUERY. -/
def specMotionQuery : CmdSpec where
  op := 0x0703
  length := fixed 4
  ranges := fun _ b => [sensorStream b 0, zeroAt b 2 2]
  act := fun c d => (d, some (.ok (fieldHeader c.stream (d.stream c.stream).lastComplete
    ++ le 4 (counterOf d (u16 c.b 0) 6) ++ le 4 (counterOf d (u16 c.b 0) 7))))

end Sys2Proof.Machine
end

