-- ==== Sys2Proof/Machine/EncodeCmd.lean ====
section
/-! DEFINITION. Area 0x08: the commands of the encoders (R249 to R252, R257, R262, R263, R267, R269, R271, R273, R274,
R276, R281, R287, R289 to R291, Tables 10.4 and 11.7 to 11.9). -/

namespace Sys2Proof.Machine

/-- An encoder session that is open and not being closed. -/
def openEncoder (d : Dev) (o : Nat) : Option Encoder :=
  if objIs 0x5 o then (mapGet d.codecs.encoders (objIndex o)).bind fun e => if e.closing then none else some e else none

/-- A field that names an open session. -/
def encSession (d : Dev) (b : List Byte) (o : Nat) : Nat × Bool := (o, (openEncoder d (u16 b o)).isSome)

/-- The session named at offset 0, or a fresh one. -/
def Ctx.encoder (c : Ctx) (d : Dev) : Encoder := (openEncoder d (u16 c.b 0)).getD {}

/-- Slots that a closed session's consumers still hold. -/
def OutRing.empty (r : OutRing) : Bool := r.holders.isEmpty && r.retiring.isEmpty

/-- An index that a new session may take: never open, or closed with nothing left of it. -/
def encoderFree (d : Dev) (i : Nat) : Bool := match mapGet d.codecs.encoders i with
  | some e => e.closing && e.frames.isEmpty && e.ring.empty && !sessionBusy d (0x5000 + i)
  | none => true

/-- The pail of a session's ring. -/
def Encoder.pail (e : Encoder) : Nat := if e.codec = 0 then e.xs.pail else e.enc.pail

/-- A closing session whose last frame has left: its demand returns, and its ring keeps what consumers hold. -/
def settleClosing (i : Nat) (d : Dev) : Dev :=
  match mapGet d.codecs.encoders i with
  | some e =>
    if e.closing && e.frames.isEmpty && !sessionBusy d (0x5000 + i) && e.configured then
      d.onEncoder i fun e => { e with configured := false, ring := e.ring.replace e.pail, consumers := [] }
    else d
  | none => d

/-- A session as ENC_OPEN leaves it (R267, R291). -/
def freshEncoder (codec : Nat) : Encoder := { codec, xs := { cls := 1 }, enc := { cls := 2 } }

/-- ENC_OPEN (R250, R273, R290). -/
def specEncOpen : CmdSpec where
  op := 0x0800
  length := fixed 4
  ranges := fun _ b => [rng b 0 1 0 2, zeroAt b 1 3]
  act := fun c d =>
    let codec := u8 c.b 0
    let ids := if codec = 0 then List.range 64 else (List.range 32).map (64 + ·)
    match ids.find? (encoderFree d) with
    | none => (d, some (.noResource 5))
    | some i =>
      let o := 0x5000 + i
      let d := d.onCodecs fun x => { x with encoders := mapSet x.encoders i (freshEncoder codec) }
      let d := giveOwner o c.session (clearCounters o d)
      (d, some (.ok (le 2 o ++ le 2 0)))

/-- ENC_CLOSE: after the frame in progress, or at once, dropping it. -/
def specEncClose : CmdSpec where
  op := 0x0801
  length := fixed 4
  ranges := fun d b => [encSession d b 0, rng b 2 1 0 1, zeroAt b 3 1]
  targets := fun _ b => [u16 b 0]
  act := fun c d =>
    let i := objIndex (u16 c.b 0)
    let d := if u8 c.b 2 = 1 then (c.encoder d).frames.foldl (fun d f => dropEncFrame i f.number d) d else d
    let d := dropOwner (u16 c.b 0) (d.onEncoder i fun e => { e with closing := true })
    let d := settleClosing i d
    (match encoderStream (c.encoder d) with
      | some n => settleReleased n d
      | none => d, some .ok)

/-! ## JPEG XS -/

/-- Reads ENC_XS_CONFIG (Table 10.4). -/
def readXs (b : List Byte) : XsConfig :=
  { sourceKind := u8 b 2, tapPoint := u8 b 3, source := u16 b 4, profile := u8 b 6, pad := bit (u8 b 7) 0, qlimitOn := bit (u8 b 7) 1
    uniform := bit (u8 b 7) 2, signPack := bit (u8 b 7) 3, nlx := u8 b 8, nly := u8 b 9, sliceRows := u16 b 10, budget := u32 b 12
    reserve := u8 b 16, draw := u8 b 17, qlimit := u8 b 18, cls := u8 b 19, depth := u8 b 20, pail := u32 b 24 }

/-- The object type of each source kind (Table 10.2). -/
def xsKindOk (kind o : Nat) : Bool := match kind with
  | 2 => objIs 0x3 o
  | 3 => objIs 0x6 o
  | _ => objIs 0x2 o && objIndex o < 16

/-- The source exists and its format belongs to the profile (R250, Table 10.1). -/
def xsProfileOk (d : Dev) (x : XsConfig) : Bool :=
  match x.sourceKind with
  | 0 => x.profile ≥ 5 && (furrowOf d (objIndex x.source)).isSome
  | 1 => x.profile ≥ 5 && (furrowOf d (objIndex x.source)).isSome
  | 2 =>
    let f := (branchSet d x.source).format
    let chroma : Option Nat := match f / 16 with
      | 1 => some 2
      | 2 => some 2
      | 3 => some 1
      | _ => none
    x.profile ≤ 4 && chroma == some (profileChroma 0 x.profile) && !(formatDepth f = 16 && x.profile ≤ 2)
  | _ => x.profile ≥ 5 && (match mapGet d.codecs.decoders (objIndex x.source) with
      | some q => q.codec = 0 && profileChroma q.codec q.profile = 3 && !q.closing
      | none => false)

/-- A CFA source's array is 2 × 2 of channels 0 to 3 (R249). -/
def xsCfaOk (d : Dev) (x : XsConfig) : Bool :=
  if x.sourceKind ≤ 1 then match furrowOf d (objIndex x.source) with
    | some (_, f) => f.cfaW = 2 && f.cfaH = 2 && f.cfa.all (· ≤ 3)
    | none => true
  else true

/-- The checks of ENC_XS_CONFIG that its source decides, in the order of their offsets. -/
def xsChecks (d : Dev) (x : XsConfig) : Option Rsp :=
  (comboCheck [bad (!xsProfileOk d x) 2, bad (!xsCfaOk d x) 4]).orElse fun _ =>
  match xsSource d x with
  | none => none
  | some s =>
    let n := xsSwaths s.h x.sliceRows
    let counted := countedTwice s.chroma (s.w * min x.sliceRows s.h)
    let unit := (if s.chroma = 3 then 2 else 1) * 2 ^ x.nly
    let floor := sumOf (xsFloor s.w s.h x.sliceRows s.chroma) (List.range n)
    comboCheck [bad (x.sliceRows % unit ≠ 0) 10, bad (counted > 2 * 524288) 12, bad (x.budget < 4096 + floor + 64 * n) 16,
      bad (x.cls < s.cls) 21]

/-- ENC_XS_CONFIG takes effect (R258, R264). -/
def xsSettle (c : Ctx) (d : Dev) : Dev :=
  let x := readXs c.b
  d.onEncoder (objIndex (u16 c.b 0)) fun e =>
    let same : Bool := e.configured && e.xs.pail = x.pail && e.xs.depth = x.depth && xsSlot e.xs.budget = xsSlot x.budget
    { e with configured := true, xs := x, restart := true, ring := if same then e.ring else e.ring.replace (if e.configured then e.xs.pail else 0) }

/-- ENC_XS_CONFIG (R267, Table 10.4). -/
def specEncXsConfig : CmdSpec where
  op := 0x0807
  stageable := fun _ => true
  length := fixed 32
  ranges := fun d b => [chk 0 (match openEncoder d (u16 b 0) with
      | some e => e.codec == 0
      | none => false), rng b 2 1 0 3, rng b 3 1 0 2,
    chk 4 (xsKindOk 0 (u16 b 4) || xsKindOk 2 (u16 b 4) || xsKindOk 3 (u16 b 4)), rng b 6 1 1 6, flagBits b 7 1 4, rng b 8 1 1 5, rng b 9 1 0 2,
    rng b 10 2 8 256, rng b 12 4 65536 (2 ^ 32 - 1), rng b 16 1 0 50, rng b 17 1 0 200, rng b 18 1 0 15, rng b 19 1 0 2, rng b 20 1 2 16,
    zeroAt b 21 3, handle d b 24, zeroAt b 28 4]
  handles := fun b => [u32 b 24]
  combos := fun d c =>
    let x := readXs c.b
    comboCheck [bad (x.tapPoint ≠ 0 && x.sourceKind ≠ 1) 3, bad (!xsKindOk x.sourceKind x.source) 4, bad (x.nly > x.nlx) 9,
      bad (x.qlimit ≠ 0 && !x.qlimitOn) 18, bad (x.depth < 2 + classB x.cls) 20, bad (pailSize d x.pail < x.depth * xsSlot x.budget) 24]
  targets := fun _ b => [u16 b 0]
  against := fun d c => xsChecks d (readXs c.b)
  settle := xsSettle

/-! ## HEVC and AVC -/

/-- A level of H.265 or H.264: level_idc, picture size, sample rate, and bit rate and CPB size in kbit for the two tiers
(PRESUMED: the tables of ITU-T H.265 Annex A and H.264 Annex A, which the manual names but does not print). -/
structure CodecLevel where
  idc : Nat
  size : Nat
  rate : Nat
  br : Nat
  cpb : Nat
  brHigh : Nat
  cpbHigh : Nat
  deriving DecidableEq, Repr, Inhabited

/-- HEVC levels; sizes in luma samples, rates in luma samples a second. -/
def hevcLevels : List CodecLevel :=
  [⟨30, 36864, 552960, 128, 350, 0, 0⟩, ⟨60, 122880, 3686400, 1500, 1500, 0, 0⟩, ⟨63, 245760, 7372800, 3000, 3000, 0, 0⟩,
   ⟨90, 552960, 16588800, 6000, 6000, 0, 0⟩, ⟨93, 983040, 33177600, 10000, 10000, 0, 0⟩,
   ⟨120, 2228224, 66846720, 12000, 12000, 30000, 30000⟩, ⟨123, 2228224, 133693440, 20000, 20000, 50000, 50000⟩,
   ⟨150, 8912896, 267386880, 25000, 25000, 100000, 100000⟩, ⟨153, 8912896, 534773760, 40000, 40000, 160000, 160000⟩,
   ⟨156, 8912896, 1069547520, 60000, 60000, 240000, 240000⟩, ⟨180, 35651584, 1069547520, 60000, 60000, 240000, 240000⟩,
   ⟨183, 35651584, 2139095040, 120000, 120000, 480000, 480000⟩, ⟨186, 35651584, 4278190080, 240000, 240000, 800000, 800000⟩]

/-- AVC levels; sizes in macroblocks, rates in macroblocks a second. -/
def avcLevels : List CodecLevel :=
  [⟨10, 99, 1485, 64, 175, 0, 0⟩, ⟨11, 396, 3000, 192, 500, 0, 0⟩, ⟨12, 396, 6000, 384, 1000, 0, 0⟩, ⟨13, 396, 11880, 768, 2000, 0, 0⟩,
   ⟨20, 396, 11880, 2000, 2000, 0, 0⟩, ⟨21, 792, 19800, 4000, 4000, 0, 0⟩, ⟨22, 1620, 20250, 4000, 4000, 0, 0⟩,
   ⟨30, 1620, 40500, 10000, 10000, 0, 0⟩, ⟨31, 3600, 108000, 14000, 14000, 0, 0⟩, ⟨32, 5120, 216000, 20000, 20000, 0, 0⟩,
   ⟨40, 8192, 245760, 20000, 25000, 0, 0⟩, ⟨41, 8192, 245760, 50000, 62500, 0, 0⟩, ⟨42, 8704, 522240, 50000, 62500, 0, 0⟩,
   ⟨50, 22080, 589824, 135000, 135000, 0, 0⟩, ⟨51, 36864, 983040, 240000, 240000, 0, 0⟩, ⟨52, 36864, 2073600, 240000, 240000, 0, 0⟩,
   ⟨60, 139264, 4177920, 240000, 240000, 0, 0⟩, ⟨61, 139264, 8355840, 480000, 480000, 0, 0⟩, ⟨62, 139264, 16711680, 800000, 800000, 0, 0⟩]

/-- Bits per second of a rate unit of a profile's level limits. -/
def levelFactor (codec profile : Nat) : Nat :=
  if codec = 1 then (match profile with
    | 3 => 1667
    | 4 => 3000
    | _ => 1000)
  else match profile with
    | 5 => 1250
    | 6 => 3000
    | 8 => 3000
    | _ => 4000

/-- A level contains a session's coded size, sample rate, peak rate and CPB (R271). -/
def levelHolds (codec : Nat) (c : EncConfig) (r : RateControl) (w h period : Nat) (l : CodecLevel) : Bool :=
  let high : Bool := codec = 1 && c.tier = 1
  let n := if codec = 1 then w * h else ceilDiv w 16 * ceilDiv h 16
  let br := if high then l.brHigh else l.br
  let cpb := if high then l.cpbHigh else l.cpb
  let f := levelFactor codec c.profile
  let side := if codec = 1 then max w h else max (ceilDiv w 16) (ceilDiv h 16)
  n ≤ l.size && side * side ≤ 8 * l.size && (period = 0 || n * 1000000000 ≤ l.rate * period)
    && r.maxKbps * 1000 ≤ br * f && r.cpbKbits * 1000 ≤ cpb * f

/-- The levels of a codec. -/
def codecLevels (codec : Nat) : List CodecLevel := if codec = 1 then hevcLevels else avcLevels

/-- The level a configuration signals; none when no level or not the given one holds it. -/
def signalledLevel (codec : Nat) (c : EncConfig) (r : RateControl) (w h period : Nat) : Option Nat :=
  ((codecLevels codec).find? fun l => (c.level = 0 || l.idc = c.level) && levelHolds codec c r w h period l).map (·.idc)

/-- Swaths of an HEVC or AVC frame of coded height `h`. -/
def encSwaths (codec : Nat) (c : EncConfig) (h : Nat) : Nat := ceilDiv h (encSwathRows codec c)

/-- Φ of a frame (R283). -/
def encFloor (codec : Nat) (c : EncConfig) (w h i : Nat) : Nat :=
  let rows := encSwathRows codec c
  128 + ceilDiv (w * min rows (h - rows * i)) 256

/-- F_min (R281). -/
def encMinBudget (codec : Nat) (c : EncConfig) (w h : Nat) : Nat :=
  let n := encSwaths codec c h
  4096 + sumOf (encFloor codec c w h) (List.range n) + 64 * n

/-- The rate control that R281 refuses, at detail 8. Nothing that needs the frame period is checked before the source's
stream has declared one. -/
def rateRefused (codec : Nat) (c : EncConfig) (r : RateControl) (size : Option (Nat × Nat)) (period : Nat) : Bool :=
  let s := r.cpb
  (r.maxKbps < r.targetKbps) || (c.gop ≥ 2 && r.iWeight ≥ 16 * c.gop)
  || (period ≠ 0 && (s < 2 * frameBytes r.maxKbps period || s * r.initFill / 100 < frameBytes r.maxKbps period
      || (match size with
        | some (w, h) => frameBytes r.targetKbps period < encMinBudget codec c w h
        | none => false)))

/-- Reads ENC_CONFIG (Table 11.8). -/
def readEnc (b : List Byte) : EncConfig :=
  let f := u8 b 7
  { profile := u8 b 2, cls := u8 b 3, source := u16 b 4, rotation := u8 b 6, hflip := bit f 0, sao := bit f 1, cavlc := bit f 2
    intraRefresh := bit f 3, liveYield := bit f 4, noSeeds := bit f 5, decX := u8 b 8, decY := u8 b 9, ctu := u8 b 10, tileCols := u8 b 11
    gop := u16 b 12, mvVRange := u16 b 14, searchRange := u8 b 16, level := u8 b 17, tier := u8 b 18, depth := u8 b 19, pail := u32 b 20
    refreshPeriod := u16 b 24 }

/-- The declared period of a branch's stream; 0 before it has one. -/
def branchPeriod (d : Dev) (o : Nat) : Nat := (d.stream (branchOf o).1).minPeriod

/-- The image of a branch's stream while it has a motion field (R287). -/
def seedField (d : Dev) (o : Nat) : Option (Nat × Nat) :=
  if (d.stream (branchOf o).1).settings.motion.enable then srcSize d (branchOf o).1 else none

/-- The coded size of a session on its source branch. -/
def encCoded (d : Dev) (c : EncConfig) : Nat × Nat := let s := branchSet d c.source; codedSize c s.outW s.outH

/-- The checks of ENC_CONFIG that its source and its rate control decide. -/
def encChecks (d : Dev) (codec : Nat) (c : EncConfig) (r : RateControl) : Option Rsp :=
  let s := branchSet d c.source
  let z := encCoded d c
  let chroma := profileChroma codec c.profile
  let fmt := match chroma with
    | 0 => 4
    | 1 => 3
    | _ => 2
  let cols := if codec = 1 then c.tileCols else 1
  let even : Bool := (chroma = 2 || z.1 % 2 = 0) && (chroma ≠ 0 || z.2 % 2 = 0)
  comboCheck [bad (!s.configured || s.format / 16 ≠ fmt) 4, bad (s.outW % 2 ^ c.decX ≠ 0) 8,
    bad (s.outH % 2 ^ c.decY ≠ 0) 9, bad (!within z.1 64 8192 || !within z.2 64 8192 || z.1 * z.2 > 35651584 || !even) 9,
    bad (rateRefused codec c r (some z) (branchPeriod d c.source)) 8,
    bad (codec = 1 && cols > 1 && (List.range cols).any fun i => segmentWidth 1 c z.1 i < 256) 11,
    bad (signalledLevel codec c r z.1 z.2 (branchPeriod d c.source)).isNone 17,
    bad (pailSize d c.pail < encPailBytes codec c r z.1 z.2 (seedField d c.source)) 20, bad (c.cls < s.cls) 21]

/-- A change that starts a new sequence (R289). -/
def idrFields (c : EncConfig) : List Nat :=
  [c.profile, c.level, c.tier, c.source, c.rotation, boolNat c.hflip, c.decX, c.decY, c.tileCols, c.ctu, c.gop, boolNat c.intraRefresh]

/-- ENC_CONFIG takes effect (R289). -/
def encSettle (c : Ctx) (d : Dev) : Dev :=
  let x := readEnc c.b
  d.onEncoder (objIndex (u16 c.b 0)) fun e =>
    let idr : Bool := !e.configured || idrFields e.enc ≠ idrFields x
    let same : Bool := e.configured && e.enc.pail = x.pail && e.enc.depth = x.depth
    { e with configured := true, enc := x, restart := e.restart || idr, levelSet := e.levelSet && !idr, forceIdr := e.forceIdr || idr
             ring := if same then e.ring else e.ring.replace (if e.configured then e.enc.pail else 0) }

/-- ENC_CONFIG (R269, R271, R273 to R276, R287, Table 11.8). -/
def specEncConfig : CmdSpec where
  op := 0x0802
  stageable := fun _ => true
  length := fixed 32
  ranges := fun d b => [encSession d b 0, rng b 2 1 1 9, rng b 3 1 0 2, obj b 4 0x3, rng b 6 1 0 3, flagBits b 7 1 6, rng b 8 1 0 2, rng b 9 1 0 2,
    rng b 10 1 0 1, rng b 11 1 1 8, rng b 12 2 0 1024, rng b 14 2 64 512, rng b 16 1 1 16,
    chk 17 (u8 b 17 = 0 || ((hevcLevels ++ avcLevels).any fun l => l.idc = u8 b 17)), rng b 18 1 0 1, rng b 19 1 2 16, handle d b 20,
    chk 24 (u16 b 24 = 0 || within (u16 b 24) 2 1024), zeroAt b 26 6]
  handles := fun b => [u32 b 20]
  combos := fun d c =>
    let e := c.encoder d
    let x := readEnc c.b
    let avc : Bool := e.codec = 2
    comboCheck [bad (e.codec = 0) 0, bad (avc != decide (x.profile ≥ 5)) 2, bad (x.rotation ≠ 0 && x.cls = 0) 6,
      bad ((avc && x.sao) || (!avc && x.cavlc) || (x.liveYield && x.cls ≠ 2)) 7, bad (avc && x.ctu ≠ 0) 10, bad (avc && x.tileCols ≠ 1) 11,
      bad (x.intraRefresh && x.gop ≠ 0) 12, bad ((x.profile = 8 || x.profile = 9) && x.gop ≠ 1) 12,
      bad (x.level ≠ 0 && !((codecLevels e.codec).any fun l => l.idc = x.level)) 17, bad (avc && x.tier ≠ 0) 18,
      bad (x.depth < 2 + classB x.cls) 19, bad (x.intraRefresh != (x.refreshPeriod != 0)) 24]
  targets := fun _ b => [u16 b 0]
  against := fun d c => encChecks d (c.encoder d).codec (readEnc c.b) (c.encoder d).rc
  settle := encSettle

/-- A signed byte lies between two numbers. -/
def qpIn (b : List Byte) (o : Nat) (lo hi : Int) : Bool := decide (lo ≤ i8 b o) && decide (i8 b o ≤ hi)

/-- Reads ENC_RC_SET (Table 11.9). -/
def readRc (b : List Byte) : RateControl :=
  { mode := u8 b 2, qlimitOn := bit (u8 b 3) 0, aq := bit (u8 b 3) 1, targetKbps := u32 b 4, maxKbps := u32 b 8, cpbKbits := u32 b 12
    initFill := u8 b 16, fillTarget := u8 b 17, reserve := u8 b 18, draw := u8 b 19, qpMin := i8 b 20, qpMax := i8 b 21, qLim := i8 b 22
    iWeight := u8 b 23, pQpOffset := u8 b 24 }

/-- The coded depth of a profile (Table 11.1); 12, the deepest, while it is unset. -/
def codedDepth (profile : Nat) : Nat := match profile with
  | 0 => 12
  | 1 => 8
  | 5 => 8
  | 4 => 12
  | _ => 10

/-- ENC_RC_SET takes effect (R289): a change of rate or CPB starts a new sequence. -/
def rcSettle (c : Ctx) (d : Dev) : Dev :=
  let r := readRc c.b
  d.onEncoder (objIndex (u16 c.b 0)) fun e =>
    let idr : Bool := [e.rc.targetKbps, e.rc.maxKbps, e.rc.cpbKbits] ≠ [r.targetKbps, r.maxKbps, r.cpbKbits]
    { e with rc := r, restart := e.restart || idr, levelSet := e.levelSet && !idr, forceIdr := e.forceIdr || idr
             ring := if e.configured && r.cpbKbits ≠ e.rc.cpbKbits then e.ring.replace e.enc.pail else e.ring }

/-- ENC_RC_SET (R281, Table 11.9). A configured session's pail and level must hold the new CPB and rate. -/
def specEncRcSet : CmdSpec where
  op := 0x0803
  stageable := fun _ => true
  length := fixed 28
  ranges := fun d b => [encSession d b 0, rng b 2 1 0 2, flagBits b 3 1 2, rng b 4 4 100 2000000, rng b 8 4 100 2000000, rng b 12 4 1000 4000000,
    rng b 16 1 10 100, rng b 17 1 10 90, rng b 18 1 0 50, rng b 19 1 0 200, chk 20 (qpIn b 20 (-24) 51), chk 21 (qpIn b 21 (-24) 51),
    chk 22 (qpIn b 22 (-24) 51), rng b 23 1 16 128, rng b 24 1 0 6, zeroAt b 25 3]
  combos := fun d c =>
    let e := c.encoder d
    let r := readRc c.b
    comboCheck [bad (e.codec = 0) 0, bad (r.qlimitOn && r.mode = 2) 3, bad (r.maxKbps < r.targetKbps) 8,
      bad (r.mode = 0 && r.maxKbps ≠ r.targetKbps) 8,
      bad (r.qpMin < -6 * ((codedDepth e.enc.profile : Int) - 8)) 20, bad (r.qpMax < r.qpMin) 21,
      bad (r.qLim < r.qpMin || r.qpMax < r.qLim) 22, bad (r.pQpOffset ≠ 0 && r.mode ≠ 2) 24]
  targets := fun _ b => [u16 b 0]
  against := fun d c =>
    let e := c.encoder d
    let r := readRc c.b
    if e.configured then
      let z := encCoded d e.enc
      let p := branchPeriod d e.enc.source
      comboCheck [bad (rateRefused e.codec e.enc r (some z) p) 8, bad (signalledLevel e.codec e.enc r z.1 z.2 p).isNone 8,
        bad (pailSize d e.enc.pail < encPailBytes e.codec e.enc r z.1 z.2 (seedField d e.enc.source)) 12]
    else comboCheck [bad (rateRefused e.codec e.enc r none 0) 8]
  settle := rcSettle

/-! ## Both codecs -/

/-- ENC_FORCE_IRAP; it has no effect on JPEG XS. -/
def specEncForceIrap : CmdSpec where
  op := 0x0804
  stageable := fun _ => true
  length := fixed 4
  ranges := fun d b => [encSession d b 0, zeroAt b 2 2]
  targets := fun _ b => [u16 b 0]
  settle := fun c d => d.onEncoder (objIndex (u16 c.b 0)) fun e => { e with forceIdr := e.codec ≠ 0 }

/-- ENC_BIND (R263, R267, R290, R291). -/
def specEncBind : CmdSpec where
  op := 0x0805
  stageable := fun _ => true
  length := fixed 8
  ranges := fun d b => [encSession d b 0, chk 2 (objIs 0xB (u16 b 2) || (objIs 0x8 (u16 b 2) && objIndex (u16 b 2) < 64)), rng b 4 1 0 1, zeroAt b 5 3]
  combos := fun d c => comboCheck [bad (objIs 0x8 (u16 c.b 2) && (c.encoder d).codec ≠ 0) 2]
  targets := fun _ b => [u16 b 0]
  against := fun d c =>
    let e := c.encoder d
    if u8 c.b 4 = 0 || u16 c.b 2 ∈ e.consumers then none
    else if !e.configured then some (.combination 0)
    else if objIs 0x8 (u16 c.b 2) && !e.xs.pad then some (.combination 2)
    else if e.consumers.length ≥ 4 then some (.noResource 0xB)
    else none
  settle := fun c d => d.onEncoder (objIndex (u16 c.b 0)) fun e =>
    let l := e.consumers.filter (· ≠ u16 c.b 2)
    { e with consumers := if u8 c.b 4 = 1 then l ++ [u16 c.b 2] else l }

/-- ENC_QUERY. -/
def specEncQuery : CmdSpec where
  op := 0x0806
  length := fixed 4
  ranges := fun d b => [encSession d b 0, zeroAt b 2 2]
  act := fun c d =>
    let e := c.encoder d
    let o := u16 c.b 0
    let state := if !e.configured then 0 else if e.frames.isEmpty then 1 else 2
    let src := if e.codec = 0 then e.xs.source else e.enc.source
    (d, some (.ok (le 1 e.codec ++ le 1 e.cls ++ le 1 state ++ le 1 e.consumers.length ++ le 2 src ++ le 2 0 ++ le 8 e.ring.lastFrame ++ le 4 e.ring.lastEpoch
      ++ (List.range 6).flatMap (fun k => le 4 (counterOf d o k)) ++ le 4 e.level)))

end Sys2Proof.Machine
end

