-- ==== Sys2Proof/Machine/XsStream.lean ====
section
/-! DEFINITION. The markers of JPEG XS codestreams (R248, Table 10.1). The manual names ISO/IEC 21122-1 and 21122-2 and does not
print them: the codes of markers, profiles and levels and the places of fields are PRESUMED to be theirs. -/

namespace Sys2Proof.Machine

abbrev xsSoc : Nat := 0xFF10
abbrev xsEoc : Nat := 0xFF11
abbrev xsPih : Nat := 0xFF12
abbrev xsCdt : Nat := 0xFF13
abbrev xsWgt : Nat := 0xFF14
abbrev xsSlh : Nat := 0xFF20

/-- Bands of a component, which is decomposed `nlx` times across and `nly` times down. -/
def xsBands (nlx nly : Nat) : Nat := 2 * min nlx nly + max nlx nly + 1

/-- Image rows of a precinct, and of a slice of some precincts: Star-Tetrix codes a CFA's rows in pairs. -/
def xsPrecinctRows (chroma nly : Nat) : Nat := (if chroma = 3 then 2 else 1) * 2 ^ nly

/-! ## Writing -/

/-- A marker segment with its length. -/
def xsSegment (marker : Nat) (body : List Byte) : List Byte := be 2 marker ++ be 2 (body.length + 2) ++ body

/-- A slice header, which counts as part of its slice (R257). -/
def xsSlice (index : Nat) : List Byte := xsSegment xsSlh (be 2 index)

/-- What a codestream's header says of it (Table 10.1). -/
structure XsHead where
  w : Nat := 0
  h : Nat := 0
  chroma : Nat := 1
  bits : Nat := 10
  profile : Nat := 1
  size : Nat := 0
  levels : Nat := 0
  precincts : Nat := 1
  fullWidth : Bool := true
  nlx : Nat := 5
  nly : Nat := 1
  cpih : Nat := 0
  qpih : Nat := 0
  signPack : Bool := false
  runMode : Nat := 0
  deriving DecidableEq, Repr, Inhabited

/-- Profile codes, in the order of Table 10.4's profiles. -/
def xsProfileCode (p : Nat) : Nat := [0, 0x3540, 0x3A40, 0x4A40, 0x4A40, 0xB340, 0xC340].getD p 0

/-- A level's code, largest width, height and samples of a frame, and samples a second. -/
def xsLevels : List (Nat × Nat × Nat × Nat × Nat) :=
  [(0x04, 1280, 5120, 2621440, 83558400), (0x10, 2048, 8192, 4194304, 133693440), (0x20, 4096, 16384, 8912896, 267386880),
   (0x24, 4096, 16384, 16777216, 534773760), (0x28, 4096, 16384, 16777216, 1069547520), (0x30, 8192, 32768, 35651584, 1069547520),
   (0x34, 8192, 32768, 67108864, 2139095040), (0x38, 8192, 32768, 67108864, 4278190080), (0x40, 10240, 40960, 104857600, 3342336000)]

/-- A sublevel's code and its bits a pixel; the last is for codestreams as large as the picture. -/
def xsSublevels (full : Nat) : List (Nat × Nat) := [(0x03, 2), (0x04, 3), (0x06, 4), (0x08, 6), (0x0c, 9), (0x10, 12), (0x80, full)]

/-- The lowest level and sublevel that contain an image, its frame period in ns and its budget; 0 and 0, unrestricted, where none
does. -/
def xsLevelCode (w h period budget full : Nat) : Nat :=
  let level := xsLevels.find? fun l => w ≤ l.2.1 && h ≤ l.2.2.1 && w * h ≤ l.2.2.2.1 && w * h * 1000000000 ≤ l.2.2.2.2 * period
  let sub := (xsSublevels full).find? fun s => budget * 8 ≤ s.2 * (w * h)
  match level, sub with
  | some l, some s => l.1 * 256 + s.1
  | _, _ => 0

/-- Colour components; a CFA has four, of half its width and height. -/
def XsHead.comps (x : XsHead) : Nat := if x.chroma = 3 then 4 else 3
def XsHead.half (x : XsHead) : Nat := if x.chroma = 3 then 2 else 1

/-- Everything before the first slice: SOC, CAP, PIH, CDT, WGT and for a CFA CTS and CRG. `open'` numbers the open values: the band
gains and the CFA's transform and registration. -/
def XsHead.bytes (x : XsHead) (open' : Nat → Nat) : List Byte :=
  let n := x.comps
  let free := fun (at1 k : Nat) => (List.range k).map fun i => byte (open' (at1 + i))
  be 2 xsSoc ++ xsSegment 0xFF50 (if x.chroma = 3 then be 2 0x4000 else [])
    ++ xsSegment xsPih (be 4 x.size ++ be 2 (xsProfileCode x.profile) ++ be 2 x.levels ++ be 2 (x.w / x.half) ++ be 2 (x.h / x.half)
      ++ be 2 (boolNat (!x.fullWidth)) ++ be 2 x.precincts ++ be 1 n ++ be 1 4 ++ be 1 8 ++ be 1 20 ++ be 1 (16 * 8 + 4) ++ be 1 x.cpih
      ++ be 1 (16 * x.nlx + x.nly) ++ be 1 (16 * x.qpih + 4 * boolNat x.signPack + x.runMode))
    ++ xsSegment xsCdt ((List.range n).flatMap fun k => be 1 x.bits ++ be 1 (if x.chroma = 1 && k ≠ 0 then 0x21 else 0x11))
    ++ xsSegment xsWgt (free 0 (2 * n * xsBands x.nlx x.nly))
    ++ (if x.chroma = 3 then xsSegment 0xFF18 (free 1000 2) ++ xsSegment 0xFF19 (free 2000 16) else [])

/-! ## Reading (R248, R301, R302) -/

/-- A header as far as it is read: what it says, whether it has a picture header and component table, whether it uses what lies outside
Table 10.1, and where its first slice starts. -/
structure XsRead where
  head : XsHead := {}
  comps : Nat := 0
  sited : List (Nat × Nat) := []
  outside : Bool := false
  body : Option Nat := none
  deriving DecidableEq, Repr, Inhabited

/-- The picture header whose segment starts at `p`. -/
def readPih (b : List Byte) (p : Nat) (r : XsRead) : XsRead :=
  let f := fun (o n : Nat) => beAt b (p + 4 + o) n
  let q := f 23 1
  let head : XsHead :=
    { r.head with size := f 0 4, levels := f 6 2, w := f 8 2, h := f 10 2, fullWidth := f 12 2 = 0, precincts := f 14 2, nlx := f 22 1 / 16
                  nly := f 22 1 % 16, cpih := f 21 1 % 16, qpih := q / 16 % 4, signPack := q / 4 % 4 ≠ 0, runMode := q % 4 }
  { r with head, comps := f 16 1 }

/-- The component table whose segment starts at `p`. -/
def readCdt (b : List Byte) (p : Nat) (r : XsRead) : XsRead :=
  { r with head := { r.head with bits := beAt b (p + 4) 1 }, sited := (List.range r.comps).map fun k => (beAt b (p + 4 + 2 * k) 1, beAt b (p + 5 + 2 * k) 1) }

/-- Marker after marker, up to the first slice. COM and NLT are skipped, and any other marker lies outside the subset. -/
def xsMarkers (b : List Byte) : Nat → Nat → XsRead → XsRead
  | 0, _, r => r
  | n + 1, p, r =>
    let m := beAt b p 2
    let next := p + 2 + max 2 (beAt b (p + 2) 2)
    if m = xsSlh then { r with body := some p }
    else if m = xsPih then xsMarkers b n next (readPih b p r)
    else if m = xsCdt then xsMarkers b n next (readCdt b p r)
    else if m ∈ [0xFF50, xsWgt, 0xFF18, 0xFF19, 0xFF15, 0xFF16] then xsMarkers b n next r
    else { r with outside := true }

/-- The sampling that a header's components have: 1 4:2:2, 2 4:4:4, 3 CFA; none outside Table 10.1. -/
def XsRead.sampling (r : XsRead) : Option Nat :=
  let s := r.sited.map (·.2)
  if s = [0x11, 0x21, 0x21] then some 1 else if s = [0x11, 0x11, 0x11] then some 2 else if s = [0x11, 0x11, 0x11, 0x11] && r.head.cpih = 3 then some 3 else none

/-- A header lies in the subset of Table 10.1. -/
def XsRead.inSubset (r : XsRead) : Bool :=
  let x := r.head
  !r.outside && r.sampling.isSome && (x.bits ∈ [10, 12, 16] || (x.bits = 14 && r.sampling = some 3)) && r.sited.all (fun s => s.1 = x.bits)
    && x.fullWidth && within x.nlx 1 5 && x.nly ≤ 2 && x.nly ≤ x.nlx && x.precincts ≥ 1 && x.qpih ≤ 1 && x.runMode ≤ 1
    && (x.cpih = 0 || (x.cpih = 1 && r.sampling = some 2) || x.cpih = 3)

/-- A codestream's header: none where it does not start with SOC or has no slice. Sizes are those of the picture, in photosites for
a CFA. -/
def readXsHead (b : List Byte) : Option XsRead :=
  if beAt b 0 2 ≠ xsSoc then none
  else
    let r := xsMarkers b b.length 2 {}
    let chroma := r.sampling.getD 1
    let k := if chroma = 3 then 2 else 1
    if r.comps = 0 then none else some { r with head := { r.head with chroma, w := k * r.head.w, h := k * r.head.h } }

/-- Rows of a slice and slices of a picture. -/
def XsHead.sliceRows (x : XsHead) : Nat := x.precincts * xsPrecinctRows x.chroma x.nly
def XsHead.slices (x : XsHead) : Nat := ceilDiv x.h (max 1 x.sliceRows)

/-- The end of some precincts, each a header and as many bytes as it says. -/
def xsPrecincts (b : List Byte) (head : Nat) : Nat → Nat → Option Nat
  | 0, p => some p
  | n + 1, p =>
    let next := p + head + beAt b p 3
    if p + head ≤ b.length && next ≤ b.length then xsPrecincts b head n next else none

/-- The next SLH or SOC marker from a byte on (R302). -/
def nextXsMarker (b : List Byte) (p : Nat) : Option Nat :=
  ((List.range (b.length - p)).map (p + ·)).find? fun i => beAt b i 2 = xsSlh || beAt b i 2 = xsSoc

/-- The slices of a codestream from a marker on: the index of each that can be decoded. A slice whose length disagrees with its content,
or whose index goes backwards or beyond the picture, is damaged, and the decoder goes on at the next SLH; at a SOC the codestream
is over. -/
def xsSlices (b : List Byte) (x : XsHead) : Nat → Nat → Nat → List Nat
  | 0, _, _ => []
  | n + 1, p, least =>
    if beAt b p 2 ≠ xsSlh then []
    else
      let i := beAt b (p + 4) 2
      let all := ceilDiv x.h (max 1 (xsPrecinctRows x.chroma x.nly))
      let ended := xsPrecincts b (5 + ceilDiv (2 * x.comps * xsBands x.nlx x.nly) 8) (min x.precincts (all - i * x.precincts)) (p + 6)
      match ended.filter fun q => beAt b (p + 2) 2 = 4 && least ≤ i && i < x.slices && (beAt b q 2 = xsSlh || beAt b q 2 = xsEoc) with
      | some q => i :: xsSlices b x n q (i + 1)
      | none => match nextXsMarker b (p + 2) with
        | some q => xsSlices b x n q least
        | none => []

end Sys2Proof.Machine
end

