-- ==== Sys2Proof/Machine/DecodePlan.lean ====
section
/-! DEFINITION. What a decoder makes of a unit before its tines decode it (R293, R295, R301, R302): its NAL units or slices, the
parameter sets that it leaves in force, what is damaged, and the jobs of its picture. -/

namespace Sys2Proof.Machine

/-! ## NAL units -/

/-- Where the bytes after each start code of a unit in Annex B form begin (R293, R302). -/
def startCodes (b : List Byte) : List Nat :=
  (List.range b.length).filterMap fun i => if i + 3 < b.length && beAt b i 3 = 1 then some (i + 3) else none

/-- The NAL units of an access unit: each runs to the next start code. -/
def nalUnits (b : List Byte) : List (List Byte) :=
  let l := startCodes b
  (l.zip (l.drop 1 ++ [b.length + 3])).map fun e => slice b e.1 (e.2 - 3 - e.1)

/-- The type of a NAL unit, and the kind that it has (PRESUMED: the type codes of ITU-T H.265 and H.264). -/
def nalType (codec : Nat) (n : List Byte) : Nat := if codec = 1 then u8 n 0 / 2 % 64 else u8 n 0 % 32
def nalKind (codec type : Nat) : NalKind :=
  if codec = 1 then
    if type = 32 then .vps else if type = 33 then .sps else if type = 34 then .pps else if type ≤ 9 || within type 16 21 then .slice else .other
  else if type = 7 then .sps else if type = 8 then .pps else if type = 1 || type = 5 then .slice else .other

/-- A parameter set in force. -/
def findSet (l : List ParamSet) (k : NalKind) (id : Nat) : Option NalIn := (l.find? fun s => s.kind = k && s.nal.id = id).map (·.nal)

/-- The set that a set of a kind names, or that a slice names, was validly received (R301). -/
def namedSet (codec : Nat) (l : List ParamSet) (k : NalKind) (x : NalIn) : Bool := match k with
  | .sps => codec ≠ 1 || (findSet l .vps x.names).isSome
  | .pps => (findSet l .sps x.names).isSome
  | .slice => ((findSet l .pps x.names).bind fun p => findSet l .sps p.names).isSome
  | _ => true

/-- A size within a decoder's declared maximum. -/
def Decoder.fits (q : Decoder) (w h : Nat) : Bool := w ≤ q.maxWidth && h ≤ q.maxHeight

/-- A unit as far as it is read: the sets in force, the sets that its picture uses, the addresses at which its decodable slices start,
whether it has slices, whether something in it is damaged, and what DEC_UNSUPPORTED reports: a kind and a NAL unit type or
marker. -/
structure UnitScan where
  sets : List ParamSet := []
  used : Option (NalIn × NalIn) := none
  starts : List Nat := []
  slices : Bool := false
  damaged : Bool := false
  unsupported : List (Nat × Nat) := []
  deriving DecidableEq, Repr, Inhabited

/-- A NAL unit is read (R301). A damaged set is ignored, and the last valid one with its ID stays in force. -/
def scanNal (q : Decoder) (s : UnitScan) (n : List Byte) : UnitScan :=
  let type := nalType q.codec n
  let kind := nalKind q.codec type
  let x := Config.readNal q.codec n
  let wrong : Bool := u8 n 0 ≥ 128
  let bad : Bool := wrong || x.outOfRange || x.otherProfile || x.otherFeature || !namedSet q.codec s.sets kind x
  let big : Bool := kind = .sps && !q.fits x.w x.h
  match kind with
  | .other => { s with damaged := s.damaged || wrong }
  | .slice =>
    let back : Bool := (s.starts.getLast?).any (x.first ≤ ·)
    if bad || back then { s with slices := true, damaged := true }
    else { s with slices := true, starts := s.starts ++ [x.first], used := (findSet s.sets .pps x.names).bind fun p => (findSet s.sets .sps p.names).map fun v => (v, p) }
  | _ =>
    if bad || big then
      { s with damaged := true
               unsupported := s.unsupported ++ (if wrong then [] else if big then [(1, type)] else if x.otherProfile then [(0, type)]
                 else if x.otherFeature then [(2, type)] else []) }
    else { s with sets := (s.sets.filter fun e => !(e.kind = kind && e.nal.id = x.id)) ++ [{ kind, nal := x }] }

/-! ## Jobs (R295) -/

/-- The first column or row of each tile, with the one after its last. -/
def tileSpans (starts : List Nat) (n : Nat) : List (Nat × Nat) :=
  let l := if starts.isEmpty then [0] else starts
  l.zip (l.drop 1 ++ [n])

/-- The jobs of an HEVC picture: the CTU rows of its tiles, in coding order. -/
def hevcJobs (chroma : Nat) (v p : NalIn) : List DecJob :=
  let c := max 1 v.ctu
  let tiles := (tileSpans p.tileRows (ceilDiv v.codedH c)).flatMap fun r => (tileSpans p.tileCols (ceilDiv v.codedW c)).map fun x => (x, r)
  ((indexed tiles).foldl (fun (acc : List DecJob × Nat) e =>
    let (x, r) := e.2
    let n := x.2 - x.1
    let rows := (List.range (r.2 - r.1)).map fun k =>
      let y := r.1 + k
      ({ tile := e.1, x := x.1, y, first := acc.2 + k * n, count := n, width := n
         ref := decodeTime 1 chroma ((min v.codedW (x.2 * c) - x.1 * c) * (min v.codedH ((y + 1) * c) - y * c)) } : DecJob)
    (acc.1 ++ rows, acc.2 + (r.2 - r.1) * n)) ([], 0)).1

/-- The jobs of an AVC picture: its macroblock-row pairs. -/
def avcJobs (chroma : Nat) (v : NalIn) : List DecJob :=
  let w := ceilDiv v.codedW 16
  let h := ceilDiv v.codedH 16
  (List.range (ceilDiv h 2)).map fun k =>
    let rows := min 2 (h - 2 * k)
    { y := 2 * k, first := 2 * k * w, count := w * rows, width := w, ref := decodeTime 2 chroma (v.codedW * 16 * rows) }

/-- The plan of an access unit. A unit whose slices are all damaged has a picture of the last one's size, all of it lost (DEDUCED: a
decoder always delivers a picture at the time it is due). -/
def nalPlan (q : Decoder) (s : UnitScan) : DecPlan :=
  let chroma := profileChroma q.codec q.profile
  match s.used with
  | some (v, p) =>
    { picture := true, codedW := v.codedW, codedH := v.codedH, cropX := v.cropX, cropY := v.cropY, w := v.w, h := v.h, bits := v.bits
      unitW := if q.codec = 1 then max 1 v.ctu else 16, unitH := if q.codec = 1 then max 1 v.ctu else 16, wpp := q.codec = 1 && p.wpp
      starts := s.starts, damaged := s.damaged, jobs := if q.codec = 1 then hevcJobs chroma v p else avcJobs chroma v }
  | none => { q.plan with picture := s.slices && q.plan.w ≠ 0, starts := [], damaged := s.damaged, jobs := [] }

/-- The plan of a JPEG XS codestream: a job for each slice that can be decoded (R252, R266). A header outside the subset, or of
another sampling than the session's profile, leaves nothing that can be. -/
def xsPlan (q : Decoder) (b : List Byte) : DecPlan × List (Nat × Nat) :=
  let lost : DecPlan := { q.plan with picture := q.plan.w ≠ 0, starts := [], damaged := true, jobs := [] }
  match readXsHead b with
  | none => (lost, [])
  | some r =>
    let x := r.head
    let other : Bool := r.sampling ≠ some (profileChroma 0 q.profile)
    if !q.fits x.w x.h then ({ lost with picture := false }, [(1, xsPih)])
    else
      let ok : Bool := r.inSubset && !other
      let starts := if ok then (r.body.elim [] fun p => xsSlices b x b.length p 0) else []
      let rows := max 1 x.sliceRows
      ({ picture := true, codedW := x.w, codedH := x.h, w := x.w, h := x.h, bits := if ok then x.bits else q.plan.bits, unitW := max 1 x.w, unitH := rows
         starts, damaged := starts.length < x.slices
         jobs := starts.map fun i => { y := i, first := i, count := 1, width := 1, ref := decodeTime 0 x.chroma (x.w * swathRows x.h rows i) } },
       if !r.inSubset then [(2, xsPih)] else if other then [(0, xsPih)] else [])

/-- The plan of a unit, the sets that it leaves in force, and what it has that is not supported. -/
def planUnit (q : Decoder) (b : List Byte) : DecPlan × List ParamSet × List (Nat × Nat) :=
  if q.codec = 0 then
    let (p, u) := xsPlan q b
    (p, q.sets, u)
  else
    let s := (nalUnits b).foldl (scanNal q) { sets := q.sets }
    (nalPlan q s, s.sets, s.unsupported)

/-- The job after which one may start; none where it may start at once: the first of its tile, one with WPP, whose queue keeps the
rows in order (DEDUCED: rows start in order, and the lag of two CTUs falls within a job), one that starts a slice, or a slice of JPEG
XS. -/
def DecPlan.after (p : DecPlan) (codec k : Nat) : Option Nat :=
  let j := tabGet p.jobs k
  if codec = 0 || p.wpp || k = 0 || (tabGet p.jobs (k - 1)).tile ≠ j.tile || j.first ∈ p.starts then none else some (k - 1)

/-! ## The area lost (R302) -/

/-- The addresses of a picture that cannot be decoded. A slice is lost from its first error to the start of the next decodable slice; a
substream loses nothing to an error in another, but that a WPP row whose context was to come from a second CTU that is lost is lost
too. -/
def DecPlan.lost (p : DecPlan) (error : Nat → Option Nat) : List Nat :=
  ((indexed p.jobs).foldl (fun (acc : List Nat × Bool) e =>
    let j := e.2
    let above := (indexed p.jobs).find? fun a => a.1 + 1 = e.1 && a.2.tile = j.tile
    let fresh : Bool := p.starts.all (j.first < ·)
    let bad : Bool := match above with
      | none => fresh
      | some a => if p.wpp then fresh || (a.2.count ≥ 2 && a.2.first + 1 ∈ acc.1) else acc.2
    (List.range j.count).foldl (fun (acc : List Nat × Bool) n =>
      let at1 := j.first + n
      let bad : Bool := (acc.2 && !p.starts.contains at1) || error e.1 = some n
      (if bad then acc.1 ++ [at1] else acc.1, bad)) (acc.1, bad)) ([], true)).1

/-- The rectangles of luma samples of a picture that are lost, as left, top, right and bottom: for JPEG XS also of the slices that have
no job. -/
def DecPlan.lostRects (p : DecPlan) (codec : Nat) (error : Nat → Option Nat) : List (Nat × Nat × Nat × Nat) :=
  let lost := p.lost error
  let rect := fun (x y : Nat) => (x * p.unitW, y * p.unitH, min p.codedW ((x + 1) * p.unitW), min p.codedH ((y + 1) * p.unitH))
  let known := p.jobs.flatMap fun j => (List.range j.count).filterMap fun n =>
    if j.first + n ∈ lost then some (if codec = 0 then rect 0 j.y else rect (j.x + n % max 1 j.width) (j.y + n / max 1 j.width)) else none
  let gone := if codec = 0 then ((List.range (ceilDiv p.codedH p.unitH)).filter fun i => i ∉ p.starts).map fun i => rect 0 i else []
  if p.starts.isEmpty then [(0, 0, p.codedW, p.codedH)] else known ++ gone

/-- The 16 × 16 luma blocks of the lost area, with the vectors of the blocks beside them that were decoded (R303). -/
def lostBlocks (p : DecPlan) (rects : List (Nat × Nat × Nat × Nat)) (vectors : List (Nat × Nat × Int × Int × Int)) : List LostBlock :=
  let isLost := fun (x y : Nat) => rects.any fun r => r.1 < 16 * x + 16 && 16 * x < r.2.2.1 && r.2.1 < 16 * y + 16 && 16 * y < r.2.2.2
  (List.range (ceilDiv p.codedH 16)).flatMap fun y => ((List.range (ceilDiv p.codedW 16)).filter (isLost · y)).map fun x =>
    let beside := fun (v : Nat × Nat × Int × Int × Int) =>
      ((v.1 + 1 = x || x + 1 = v.1) && v.2.1 = y) || ((v.2.1 + 1 = y || y + 1 = v.2.1) && v.1 = x)
    { x, y, vectors := (vectors.filter fun v => beside v && !isLost v.1 v.2.1).map fun v => (v.2.2.1, v.2.2.2.1, v.2.2.2.2) }

end Sys2Proof.Machine
end

