-- ==== Sys2Proof/Machine/DecodeCmd.lean ====
section
/-! DEFINITION. Area 0x09: the commands of the decoders (R266, R294, R296, R297, R299, R307, R309, Tables 12.4 and
12.5). -/

namespace Sys2Proof.Machine

/-- A decoder session that is open and not being closed. -/
def openDecoder (d : Dev) (o : Nat) : Option Decoder :=
  if objIs 0x6 o then (mapGet d.codecs.decoders (objIndex o)).bind fun q => if q.closing then none else some q else none

/-- A field that names an open decoder. -/
def decSession (d : Dev) (b : List Byte) (o : Nat) : Nat × Bool := (o, (openDecoder d (u16 b o)).isSome)

/-- The decoder named at offset 0. -/
def Ctx.decoder (c : Ctx) (d : Dev) : Decoder := (openDecoder d (u16 c.b 0)).getD {}

/-- A full time field, in ns. -/
def timeAt (b : List Byte) (o : Nat) : Nat := u48 b o * 1000000000 + u32 b (o + 8)

/-- A full time field: its reserved bytes are 0 and its ns are below a second. -/
def timeField (b : List Byte) (o : Nat) : List (Nat × Bool) := [zeroAt b (o + 6) 2, chk (o + 8) (u32 b (o + 8) < 1000000000)]

/-- Bytes that waiting units take of a decoder's input buffer. -/
def Decoder.inUse (q : Decoder) : Nat := sumOf (·.bytes) q.queue + (match q.decoding with
  | some u => u.bytes
  | none => 0)

/-- A decoder's slots and pictures are all let go. -/
def decoderGone (d : Dev) (i : Nat) (q : Decoder) : Bool :=
  q.closing && q.queue.isEmpty && q.decoding.isNone && q.ring.empty && !sessionBusy d (0x6000 + i)

/-- An index that a new decoder may take. -/
def decoderFree (d : Dev) (i : Nat) : Bool := match mapGet d.codecs.decoders i with
  | some q => decoderGone d i q
  | none => true

/-- The holder of the slots that wait for a playback stream or that it presents. -/
def playHold (n : Nat) : Nat := 0x14000 + n

/-- A closing decoder with nothing left to decode: its ring keeps what consumers hold, it leaves its playback streams,
and its demand returns; it leaves the table once no slot of it is held. -/
def settleDecoder (i : Nat) (d : Dev) : Dev :=
  match mapGet d.codecs.decoders i with
  | some q =>
    if q.closing && q.queue.isEmpty && q.decoding.isNone && !sessionBusy d (0x6000 + i) then
      let leave := fun (s : Stream) => if s.decoder = some i then { s with decoder := none } else s
      let d := (List.range 24).foldl (fun d n => dropAll (0x6000 + i) (playHold n) d) { d with streams := d.streams.map leave }
      let r := ((mapGet d.codecs.decoders i).getD q).ring.replace q.pail
      if r.empty then d.onCodecs fun c => { c with decoders := mapDel c.decoders i }
      else d.onDecoder i fun q => { q with pail := 0, maxKbps := 0, maxWidth := 0, maxHeight := 0, ring := r, consumers := [], pictures := [] }
    else d
  | none => d

/-- Reads DEC_OPEN (Table 12.4). -/
def readDecoder (b : List Byte) : Decoder :=
  { codec := u8 b 0, profile := u8 b 1, cls := u8 b 2, depth := u8 b 3, maxWidth := u16 b 4, maxHeight := u16 b 6, domain := u8 b 8
    dpb := u8 b 9, conceal := u8 b 10, maxKbps := u32 b 12, periodNs := u32 b 16, leadUs := if u32 b 20 = 0 then 1000 else u32 b 20
    inKib := u32 b 24, pail := u32 b 28 }

/-- The index a DEC_OPEN takes. -/
def newDecoder (d : Dev) : Option Nat := (List.range 32).find? (decoderFree d)

/-- DEC_OPEN opens its session. -/
def decOpenSettle (c : Ctx) (d : Dev) : Dev :=
  match newDecoder d with
  | some i =>
    let o := 0x6000 + i
    giveOwner o c.session (clearCounters o (d.onCodecs fun x => { x with decoders := mapSet x.decoders i (readDecoder c.b) }))
  | none => d

/-- The profile codes of each codec. -/
def decProfileOk (codec profile : Nat) : Bool := match codec with
  | 0 => profile ≤ 6
  | 1 => profile ≤ 4
  | _ => profile ≥ 5

/-- DEC_OPEN (R294, R296, R299, R309). -/
def specDecOpen : CmdSpec where
  op := 0x0900
  length := fixed 36
  ranges := fun d b => [rng b 0 1 0 2, rng b 1 1 1 9, rng b 2 1 0 2, rng b 3 1 2 16, rng b 4 2 64 8192, rng b 6 2 64 4352, rng b 8 1 0 5, rng b 9 1 1 16,
    rng b 10 1 0 2, zeroAt b 11 1, rng b 12 4 100 8000000, rng b 16 4 500000 2000000000, rng b 20 4 0 1000000, rng b 24 4 1024 262144, handle d b 28,
    zeroAt b 32 4]
  handles := fun b => [u32 b 28]
  combos := fun d c =>
    let q := readDecoder c.b
    comboCheck [bad (!decProfileOk q.codec q.profile) 1, bad (q.depth < 2 + classB q.cls) 3, bad (q.maxWidth * q.maxHeight > 35651584) 6,
      bad (q.codec = 0 && q.dpb ≠ 1) 9, bad (pailSize d q.pail < decoderPailBytes q) 28]
  against := fun d _ => if (newDecoder d).isNone then some (.noResource 6) else none
  raises := true
  settle := decOpenSettle
  act := fun c d => match newDecoder d with
    | some i => (decOpenSettle c d, some (.ok (le 2 (0x6000 + i) ++ le 2 0)))
    | none => (d, some (.noResource 6))

/-- A drained decoder completes its DEC_FLUSH. -/
def settleDrain (i : Nat) (d : Dev) : Dev := match mapGet d.codecs.decoders i with
  | some q => match q.draining with
    | some c => if q.queue.isEmpty && q.decoding.isNone then completeCmd c .ok (d.onDecoder i fun q => { q with draining := none }) else d
    | none => d
  | none => d

/-- The units of a decoder that waits or decodes are dropped. -/
def dropUnits (i : Nat) (d : Dev) : Dev := match mapGet d.codecs.decoders i with
  | some q => (withdrawTines (0x6000 + i) q.nextFrame d).onDecoder i fun q => { q with queue := [], decoding := none, results := [] }
  | none => d

/-- DEC_CLOSE: after the waiting units, or at once, dropping them. -/
def specDecClose : CmdSpec where
  op := 0x0901
  length := fixed 4
  ranges := fun d b => [decSession d b 0, rng b 2 1 0 1, zeroAt b 3 1]
  targets := fun _ b => [u16 b 0]
  act := fun c d =>
    let i := objIndex (u16 c.b 0)
    let d := dropOwner (u16 c.b 0) (d.onDecoder i fun q => { q with closing := true })
    (settleDecoder i (settleDrain i (if u8 c.b 2 = 1 then dropUnits i d else d)), some .ok)

/-- DEC_UNSUPPORTED (R297, R301). -/
def decUnsupported (i kind marker : Nat) (d : Dev) : Dev :=
  let td := match mapGet d.codecs.decoders i with
    | some q => q.domain
    | none => 5
  raise 0x0984 3 (0x6000 + i) (le 2 (0x6000 + i) ++ le 1 kind ++ le 1 0 ++ le 2 marker) d (td := td)

/-- The time in the module's clock of a time in a domain, 0 for one before the clock's start. -/
def clockAt (d : Dev) (td t : Nat) : Nat := ((d.now : Int) + ((t : Int) - (domainNow d td : Int))).toNat

/-- Job `k` of the unit that a decoder decodes is queued, with the session's class and the unit's deadline (R295, R298). -/
def queueDecode (i k : Nat) (d : Dev) : Dev :=
  match mapGet d.codecs.decoders i with
  | some q => match q.decoding with
    | some u =>
      let pts := u.ptsSeconds * 1000000000 + u.ptsNs
      queueTine { session := 0x6000 + i, frame := q.nextFrame, swath := k, cls := q.cls, deadline := clockAt d q.domain (pts - q.leadUs * 1000)
                  ref := (tabGet q.plan.jobs k).ref } d
    | none => d
  | none => d

/-- The decode of the next waiting unit begins when none is in progress: its headers are read, and the jobs that may start are queued.
A unit without any job has one of no time, which reads it. -/
def nextDecode (i : Nat) (d : Dev) : Dev :=
  match mapGet d.codecs.decoders i with
  | some q => match q.decoding, q.queue with
    | none, u :: rest =>
      let (plan, sets, unsupported) := planUnit q u.data
      let d := d.onDecoder i fun q => { q with decoding := some u, queue := rest, plan, sets, results := [] }
      let d := unsupported.foldl (fun d e => decUnsupported i e.1 e.2 d) d
      let ready := (List.range (max 1 plan.jobs.length)).filter fun k => (plan.after q.codec k).isNone
      ready.foldl (fun d k => queueDecode i k d) d
    | _, _ => d
  | none => d

/-- A unit enters a decoder's input queue (R297): one that is larger than the whole buffer is discarded. -/
def submitUnit (i : Nat) (u : DecUnit) (d : Dev) : Dev :=
  match mapGet d.codecs.decoders i with
  | some q => if u.bytes > q.inKib * 1024 then decUnsupported i 3 0 d
      else nextDecode i (d.onDecoder i fun q => { q with queue := q.queue ++ [u] })
  | none => d

/-- DEC_SUBMIT (R297). -/
def specDecSubmit : CmdSpec where
  op := 0x0902
  length := fixed 28
  ranges := fun d b => [decSession d b 0, flagBits b 2 2 2, handle d b 4, chk 12 (u32 b 12 ≥ 1)] ++ timeField b 16
  handles := fun b => [u32 b 4]
  combos := fun d c => comboCheck [bad (pailSize d (u32 c.b 4) < u32 c.b 8 + u32 c.b 12) 12]
  targets := fun _ b => [u16 b 0]
  against := fun d c =>
    let q := c.decoder d
    if u32 c.b 12 ≤ q.inKib * 1024 && (q.queue.length ≥ 64 || q.inUse + u32 c.b 12 > q.inKib * 1024) then some (.busy 3) else none
  act := fun c d =>
    let i := objIndex (u16 c.b 0)
    let u : DecUnit := { bytes := u32 c.b 12, ptsSeconds := u48 c.b 16, ptsNs := u32 c.b 24, discontinuity := bit (u16 c.b 2) 0
                         endOfStream := bit (u16 c.b 2) 1, data := pailRead d (u32 c.b 4) (u32 c.b 8) (u32 c.b 12) }
    let d := submitUnit i u d
    let q := (mapGet d.codecs.decoders i).getD {}
    (d, some (.ok (le 2 q.queue.length ++ le 4 (q.inKib * 1024 - q.inUse))))

/-- DEC_FLUSH: what is left to drain makes it PENDING; otherwise it is done at once. -/
def specDecFlush : CmdSpec where
  op := 0x0903
  length := fixed 4
  ranges := fun d b => [decSession d b 0, rng b 2 1 0 1, zeroAt b 3 1]
  targets := fun _ b => [u16 b 0]
  against := fun d c => if (c.decoder d).draining.isSome then some (.busy 3) else none
  act := fun c d =>
    let i := objIndex (u16 c.b 0)
    let d := if u8 c.b 2 = 1 then d.onDecoder i fun q => { q with
        queue := [], good := none, pictures := (q.pictures.filter (·.slot.isSome)).map fun x => { x with reference := false } } else d
    let q := (mapGet d.codecs.decoders i).getD {}
    if q.queue.isEmpty && q.decoding.isNone then (d, some .ok)
    else (d.onDecoder i fun q => { q with draining := some c.pending }, some .pending)

/-- The input chroma code that a decoder's pictures have (Table 8.13). -/
def decoderChroma (q : Decoder) : Nat := match profileChroma q.codec q.profile with
  | 0 => 2
  | 1 => 1
  | _ => 0

/-- A playback stream's object ID. -/
def playbackId (o : Nat) : Bool := objIs 0x2 o && objIndex o ≥ 16

/-- A JPEG XS encoder session's object ID. -/
def xsSessionId (o : Nat) : Bool := objIs 0x5 o && objIndex o < 64

/-- A consumer may take a decoder's output (R266, R307). A playback stream's enabled branches must fit the decoder's pictures (R217). -/
def decBindOk (d : Dev) (i : Nat) (q : Decoder) (o : Nat) : Option Rsp :=
  let cfa : Bool := profileChroma q.codec q.profile = 3
  if playbackId o then
    if cfa then some (.combination 0)
    else if (d.stream (objIndex o)).settings.colour.inChroma ≠ decoderChroma q then some (.combination 4)
    else if (d.stream (objIndex o)).settings.branches.any fun b => b.enable && (branchFitsIn q.maxWidth q.maxHeight b).isSome then some (.combination 2)
    else match (d.stream (objIndex o)).decoder with
      | some j => if j = i then none else some (.busy 3)
      | none => none
  else if xsSessionId o then
    match openEncoder d o with
    | some e => if cfa && e.configured && e.xs.sourceKind = 3 && e.xs.source = 0x6000 + i then none else some (.combination 0)
    | none => some (.combination 0)
  else none

/-- DEC_BIND takes effect. -/
def decBindSettle (c : Ctx) (d : Dev) : Dev :=
  let i := objIndex (u16 c.b 0)
  let o := u16 c.b 2
  let on : Bool := u8 c.b 4 = 1
  let d := d.onDecoder i fun q => let l := q.consumers.filter (· ≠ o); { q with consumers := if on then l ++ [o] else l }
  if playbackId o then
    (dropAll (0x6000 + i) (playHold (objIndex o)) d).onStream (objIndex o) fun s =>
      if on then { s with decoder := some i, playStart := timeAt c.b 8, frame := 0, lastSof := none } else { s with decoder := none }
  else d

/-- DEC_BIND (R266, R307, Table 12.5). -/
def specDecBind : CmdSpec where
  op := 0x0904
  stageable := fun _ => true
  length := fixed 20
  ranges := fun d b => [decSession d b 0, chk 2 (playbackId (u16 b 2) || objIs 0xB (u16 b 2) || xsSessionId (u16 b 2)), rng b 4 1 0 1, zeroAt b 5 3]
    ++ timeField b 8
  combos := fun _ c => comboCheck [bad (!playbackId (u16 c.b 2) && timeAt c.b 8 ≠ 0) 8]
  targets := fun _ b => u16 b 0 :: (if playbackId (u16 b 2) then [u16 b 2] else [])
  against := fun d c =>
    let i := objIndex (u16 c.b 0)
    let q := c.decoder d
    if u8 c.b 4 = 0 || u16 c.b 2 ∈ q.consumers then none
    else if q.consumers.length ≥ 4 then some (.noResource 6)
    else decBindOk d i q (u16 c.b 2)
  settle := decBindSettle

/-- DEC_QUERY. -/
def specDecQuery : CmdSpec where
  op := 0x0905
  length := fixed 4
  ranges := fun d b => [decSession d b 0, zeroAt b 2 2]
  act := fun c d =>
    let q := c.decoder d
    let o := u16 c.b 0
    let state := if q.draining.isSome then 2 else if q.decoding.isSome then 1 else 0
    (d, some (.ok (le 1 q.codec ++ le 1 q.cls ++ le 1 state ++ le 1 q.consumers.length ++ le 2 q.queue.length ++ le 2 0 ++ le 8 q.ring.lastFrame
      ++ leInt 4 q.lastGood ++ (List.range 8).flatMap fun k => le 4 (counterOf d o k))))

end Sys2Proof.Machine
end

