-- ==== Sys2Proof/Machine/Timelines.lean ====
section
/-! DEFINITION. Timelines and when they are locked (R94, R95). -/

namespace Sys2Proof.Machine

/-- The frame period of a timeline in ns: a stream's declared minimum, or a raster's. -/
def timelinePeriod (d : Dev) : Timeline → Rat
  | .stream n => ((d.stream n).minPeriod : Rat)
  | .raster n => (d.raster n).timing.period
  | .group g => match (indexed d.display.rasters).find? fun e => e.2.group = some g with
    | some e => e.2.timing.period
    | none => 0
  | .untimed => 0

/-- The time domain of a timeline. -/
def timelineDomain (d : Dev) : Timeline → Nat
  | .stream n => streamDomain d n
  | .raster n => (d.raster n).timing.domain
  | .group g => match (indexed d.display.rasters).find? fun e => e.2.group = some g with
    | some e => e.2.timing.domain
    | none => 5
  | .untimed => 5

/-- Periods stand in a ratio k: they differ by at most 1 part in 10,000 (DESIGN CHOICE: periods are declared in whole ns
and the manual gives no tolerance). -/
def nearRatio (k : Nat) (long short : Rat) : Bool :=
  let x := (k : Rat) * short
  (if x < long then long - x else x - long) * 10000 ≤ long

/-- Two timelines are locked (R95). -/
def locked (d : Dev) (a b : Timeline) : Bool :=
  let p := timelinePeriod d a
  let q := timelinePeriod d b
  a = b || (timelineDomain d a = timelineDomain d b && p ≠ 0 && q ≠ 0
    && (List.range 8).any fun k => nearRatio (k + 1) (max p q) (min p q))

/-- A stream is locked to a raster with ratio 1 (R314). -/
def lockedOne (d : Dev) (n : Nat) (r : Raster) : Bool :=
  streamDomain d n = r.timing.domain && (d.stream n).minPeriod ≠ 0
    && nearRatio 1 (max r.timing.period ((d.stream n).minPeriod : Rat)) (min r.timing.period ((d.stream n).minPeriod : Rat))

end Sys2Proof.Machine
end

