-- ==== Sys2Proof/Machine/RasterCmd.lean ====
section
/-! DEFINITION. Area 0x0A: the commands of the rasters and SDI inputs (R311 to R334, Tables 13.1 to 13.7). -/

namespace Sys2Proof.Machine

/-- The raster a command names at offset 0. -/
def Ctx.raster (c : Ctx) (d : Dev) : Raster := d.raster (objIndex (u16 c.b 0))

/-- Refused while the raster runs (R333). -/
def rasterIdle (d : Dev) (c : Ctx) : Option Rsp := if (c.raster d).running then some (.busy 3) else none

/-! ## Timing and cut -/

/-- The pixel rate (R311). -/
def RasterTiming.pixelRate (t : RasterTiming) : Rat := ((t.hTotal * t.vTotal * t.rateNum : Nat) : Rat) / (t.rateDen : Rat)

/-- A cut precedes the latch (R322). -/
def cutOk (t : RasterTiming) (cut : Nat) : Bool :=
  (((cut + t.vTotal - t.vActive) * t.hTotal + (t.hTotal - t.hActive) : Nat) : Rat) * 1000000000 / t.pixelRate ≥ 750000

/-- The smallest cut that precedes the latch. -/
def minCut (t : RasterTiming) : Nat := ((List.range 8192).find? (cutOk t)).getD 8192

/-- Reads RASTER_TIMING_SET (Table 13.4). -/
def readTiming (b : List Byte) : RasterTiming :=
  { domain := u8 b 2, hActive := u16 b 4, vActive := u16 b 6, hTotal := u16 b 8, vTotal := u16 b 10, hFront := u16 b 12, hSync := u16 b 14
    vFront := u16 b 16, vSync := u16 b 18, rateNum := u32 b 20, rateDen := u32 b 24, refStream := u16 b 28, phaseNs := u32 b 32 }

/-- The bits a pixel takes on an interface: 4:2:2 counts 24 (Table 13.2). -/
def OutputBind.pixelBits (o : OutputBind) : Nat := if o.sampling = 1 then 24 else 3 * o.depth

/-- A timing fits an output's lanes (Table 13.2): TMDS 600 Mcsc/s, FRL 0.85 and DSI 0.90 of the lanes' rate. -/
def outputFits (t : RasterTiming) (o : OutputBind) : Bool :=
  if o.output < 0x10 then true
  else if o.output < 0x20 then
    if o.link = 0 then t.pixelRate * (o.pixelBits : Rat) / 24 ≤ 600000000
    else t.pixelRate * (o.pixelBits : Rat) ≤ 85 / 100 * (o.lanes : Rat) * (o.laneRate : Rat) * 1000000000
  else ((t.hActive * t.vActive * 3 * o.depth : Nat) : Rat) ≤ 90 / 100 * (o.lanes : Rat) * (o.laneRate : Rat) * 1000000 * t.period / 1000000000

/-- RASTER_TIMING_SET (R311, R312, R322, R333). A bound output whose lanes could not carry the timing refuses it as a
pixel rate beyond the limit does. -/
def specRasterTimingSet : CmdSpec where
  op := 0x0A00
  length := fixed 36
  ranges := fun _ b => [obj b 0 0x4, rng b 2 1 0 5, zeroAt b 3 1, rng b 4 2 64 8192, rng b 6 2 64 4352, rng b 8 2 80 16384, rng b 10 2 72 8192,
    rng b 12 2 1 16318, rng b 14 2 1 16318, rng b 16 2 1 8126, rng b 18 2 1 8126, rng b 20 4 1000 240000, rng b 24 4 1000 1001,
    chk 28 (u16 b 28 = 0 || objIs 0x2 (u16 b 28)), zeroAt b 30 2, chk 32 (u32 b 32 < 1001000000)]
  combos := fun d c =>
    let t := readTiming c.b
    comboCheck [bad (t.hTotal < t.hActive + 16) 8, bad (t.vTotal < t.vActive + 8) 10, bad (t.hFront + 2 > t.hTotal - t.hActive) 12,
      bad (t.hSync + t.hFront + 1 > t.hTotal - t.hActive) 14, bad (t.vFront + 2 > t.vTotal - t.vActive) 16,
      bad (t.vSync + t.vFront + 1 > t.vTotal - t.vActive) 18, bad ((t.phaseNs : Rat) ≥ t.period) 32, bad (t.pixelRate > 2400000000) 4,
      bad (!((c.raster d).outputs.all (outputFits t))) 4]
  targets := fun _ b => [u16 b 0]
  against := rasterIdle
  act := fun c d =>
    let t := readTiming c.b
    let cut := max (c.raster d).cut (minCut t)
    (d.onRaster (objIndex (u16 c.b 0)) fun r => { r with timing := t, cut }, some (.ok (le 2 cut ++ le 2 0)))

/-- RASTER_COMMIT_CUT_SET (R322). A cut past the active lines names no line and is out of range too. -/
def specRasterCommitCutSet : CmdSpec where
  op := 0x0A04
  length := fixed 4
  ranges := fun d b =>
    let t := (d.raster (objIndex (u16 b 0))).timing
    [obj b 0 0x4, rng b 2 2 1 1023, chk 2 (cutOk t (u16 b 2) && u16 b 2 ≤ t.vActive)]
  targets := fun _ b => [u16 b 0]
  against := rasterIdle
  act := fun c d => (d.onRaster (objIndex (u16 c.b 0)) fun r => { r with cut := u16 c.b 2 }, some .ok)

/-! ## Planes -/

/-- Reads RASTER_PLANE_SET (Table 13.5). -/
def readPlane (b : List Byte) : PlaneSet :=
  { mode := u8 b 3, sourceKind := u8 b 4, alpha := u16 b 6, source := u16 b 8, format := u8 b 10, pail := u32 b 12, stride := u32 b 16
    srcW := u16 b 20, srcH := u16 b 22, cropX := u16 b 24, cropY := u16 b 26, cropW := u16 b 28, cropH := u16 b 30, dstX := u16 b 32, dstY := u16 b 34 }

/-- Formats a plane shows (Table 13.1). -/
def planeFormatOk (f : Nat) : Bool := f = 1 || f = 2 || (formatOk f && 1 ≤ f / 16 && f / 16 ≤ 3)

/-- The least stride of an image (Table 8.4). -/
def rowBytes (f w : Nat) : Nat := formatStride f w

/-- Bytes of an image in a pail: its planes follow one another at the given stride. -/
def PlaneSet.imageBytes (p : PlaneSet) : Nat := formatPlanes p.format * p.stride * p.srcH

/-- The ring of a branch is deep enough for fill mode 1 (R317). -/
def fillDepthOk (b : BranchSet) : Bool := b.depth ≥ 3 + classB b.cls

/-- A plane fits its raster and its source (Table 13.1, R314, R317, R318 step 3); the size of an SDI input that has
received nothing is not known yet. -/
def planeFits (d : Dev) (r : Raster) (p : PlaneSet) : Option Rsp :=
  if p.mode = 0 then none
  else
    let c := planeCrop d p
    let s := planeSource d p
    let known : Bool := s.1 ≠ 0 && s.2 ≠ 0
    let b := branchSet d p.source
    let n := (branchOf p.source).1
    let f := planeFormat d p
    let o := r.outputs.headD {}
    comboCheck [bad (p.sourceKind = 0 && (!b.configured || !planeFormatOk b.format)) 8,
      bad (p.sourceKind = 0 && !r.outputs.isEmpty && o.ycc ≠ 0 && b.ycc ≠ 0 && b.ycc ≠ o.ycc) 8,
      bad (p.mode = 1 && (b.cls ≠ 0 || !lockedOne d n r)) 8,
      bad (p.sourceKind = 1 && pailSize d p.pail < p.imageBytes) 12,
      bad (known && (c.2.2.1 = 0 || c.2.2.2 = 0 || c.1 + c.2.2.1 > s.1 || c.2.1 + c.2.2.2 > s.2)) 24,
      bad (f / 16 = 3 && (c.1 % 2 = 1 || c.2.2.1 % 2 = 1)) 24,
      bad (p.dstX + c.2.2.1 > r.timing.hActive || p.dstY + c.2.2.2 > r.timing.vActive) 32,
      bad (r.fill = 1 && p.sourceKind = 0 && !fillDepthOk b) 3]

/-- A sync plane whose stream has delivered no frame since FURROW_START is checked again at the first (R320). -/
def needsRecheck (d : Dev) (p : PlaneSet) : Bool :=
  p.mode = 1 && (match furrowOf d (branchOf p.source).1 with
    | some (i, _) => !(d.furrow i).deliveredSinceStart
    | none => false)

/-- The planes of a raster to check again. -/
def recheckPlanes (d : Dev) (r : Raster) : List Nat :=
  (List.range 4).filter fun k => needsRecheck d (tabGet r.planes k)

/-- RASTER_PLANE_SET takes effect in the shadow set. -/
def planeSettle (c : Ctx) (d : Dev) : Dev :=
  d.onRaster (objIndex (u16 c.b 0)) fun r =>
    let r := { r with planes := tabMod r.planes (u8 c.b 2) fun _ => readPlane c.b, changed := true }
    { r with lineCheck := if r.running then recheckPlanes d r else [] }

/-- RASTER_PLANE_SET (R314, R333, Table 13.5). Fields of a disabled plane are not looked at further. -/
def specRasterPlaneSet : CmdSpec where
  op := 0x0A01
  stageable := fun _ => true
  length := fixed 40
  ranges := fun d b => [obj b 0 0x4, rng b 2 1 0 3, rng b 3 1 0 2, rng b 4 1 0 2, zeroAt b 5 1, rng b 6 2 0 256,
    chk 8 (u16 b 8 ≤ 3 || objIs 0x3 (u16 b 8)), chk 10 (u8 b 10 = 0 || planeFormatOk (u8 b 10)), zeroAt b 11 1, handle0 d b 12,
    chk 16 (u32 b 16 % 256 = 0), zeroAt b 36 4]
  handles := fun b => if u8 b 3 ≠ 0 && u32 b 12 ≠ 0 then [u32 b 12] else []
  combos := fun _ c =>
    let p := readPlane c.b
    if p.mode = 0 then none
    else
      let one : Bool := p.sourceKind = 1
      comboCheck [bad (p.mode = 1 && p.sourceKind ≠ 0) 3,
        bad (match p.sourceKind with
          | 0 => !objIs 0x3 p.source
          | 1 => p.source != 0
          | _ => p.source > 3) 8,
        bad (one != (p.format != 0)) 10, bad (one != (p.pail != 0)) 12,
        bad (if one then p.stride < rowBytes p.format p.srcW else p.stride ≠ 0) 16,
        bad (if one then p.srcW = 0 || p.srcH = 0 else p.srcW ≠ 0 || p.srcH ≠ 0) 20]
  targets := fun _ b => [u16 b 0]
  against := fun d c => planeFits d (c.raster d) (readPlane c.b)
  settle := planeSettle

/-! ## Outputs -/

/-- Reads RASTER_OUTPUT_SET (Table 13.6). -/
def readOutput (b : List Byte) : OutputBind :=
  { output := u8 b 2, link := u8 b 4, lanes := u8 b 5, laneRate := u16 b 6, ycc := u8 b 8, range := u8 b 9, sampling := u8 b 10, depth := u8 b 11
    hdr := u8 b 12, te := u8 b 13, mastering := u16s b 16 4 }

/-- The transmitters an output takes: a quad link takes four (Table 13.2). -/
def OutputBind.units (o : OutputBind) : List Nat :=
  if o.output < 0x10 && o.link ≠ 0 then (List.range 4).map (o.output + ·) else [o.output]

/-- DSI command mode. -/
def OutputBind.dsiCommand (o : OutputBind) : Bool := o.output ≥ 0x20 && o.link = 2

/-- What is wrong with an output's settings (Tables 13.2 and 13.6, R324). -/
def outputChecks (o : OutputBind) : List (Bool × Nat) :=
  let sdi : Bool := o.output < 0x10
  let hdmi : Bool := 0x10 ≤ o.output && o.output < 0x20
  let dsi : Bool := o.output ≥ 0x20
  let frl : Bool := hdmi && o.link = 1
  [bad ((hdmi && o.link > 1) || (sdi && o.link ≠ 0 && o.output % 4 ≠ 0)) 4,
   bad (if frl then !within o.lanes 3 4 else if dsi then o.lanes = 0 else o.lanes ≠ 0) 5,
   bad (if frl then (if o.lanes = 3 then o.laneRate ∉ [3, 6] else o.laneRate ∉ [6, 8, 10, 12])
      else if dsi then !within o.laneRate 80 4500 else o.laneRate ≠ 0) 6,
   bad ((sdi && o.ycc = 0) || (dsi && o.ycc ≠ 0)) 8, bad ((sdi && o.sampling ≠ 1) || (dsi && o.sampling ≠ 0)) 10,
   bad ((sdi && o.depth ≠ 10) || (hdmi && o.depth = 8) || (dsi && o.depth = 12)) 11, bad (!hdmi && o.hdr ≠ 0) 12,
   bad (o.te ≠ 0 && !o.dsiCommand) 13]

/-- The format that all outputs of a raster share (R323), field by field with its offset. -/
def outputShares (o x : OutputBind) : List (Bool × Nat) :=
  [bad (o.ycc ≠ x.ycc) 8, bad (o.range ≠ x.range) 9, bad (o.sampling ≠ x.sampling) 10, bad (o.depth ≠ x.depth) 11]

/-- RASTER_OUTPUT_SET (R323, R324, R333). -/
def specRasterOutputSet : CmdSpec where
  op := 0x0A02
  length := fixed 24
  ranges := fun _ b => [obj b 0 0x4, chk 2 (u8 b 2 ≤ 0xB || within (u8 b 2) 0x10 0x11 || within (u8 b 2) 0x20 0x21), rng b 3 1 0 1, rng b 4 1 0 2,
    rng b 5 1 0 4, rng b 6 2 0 4500, rng b 8 1 0 2, rng b 9 1 0 1, rng b 10 1 0 1, chk 11 (u8 b 11 ∈ [8, 10, 12]), rng b 12 1 0 3, rng b 13 1 0 1,
    zeroAt b 14 2]
  combos := fun d c =>
    let o := readOutput c.b
    if u8 c.b 3 = 0 then none
    else comboCheck (outputChecks o ++ [bad (!outputFits (c.raster d).timing o) 6]
      ++ ((c.raster d).outputs.filter fun x => x.output ≠ o.output).flatMap (outputShares o)
      ++ [bad ((c.raster d).planes.any fun p => p.mode ≠ 0 && p.sourceKind = 0 && o.ycc ≠ 0 && (branchSet d p.source).ycc ≠ 0
        && (branchSet d p.source).ycc ≠ o.ycc) 8])
  targets := fun _ b => [u16 b 0]
  against := fun d c =>
    let o := readOutput c.b
    let i := objIndex (u16 c.b 0)
    let taken : Bool := (indexed d.display.rasters).any fun e => e.2.outputs.any fun x =>
      (e.1 ≠ i || x.output ≠ o.output) && x.units.any fun u => u ∈ o.units
    if (c.raster d).running || (u8 c.b 3 = 1 && taken) then some (.busy 3) else none
  act := fun c d =>
    let o := readOutput c.b
    (d.onRaster (objIndex (u16 c.b 0)) fun r =>
      let l := r.outputs.filter fun x => x.output ≠ o.output
      { r with outputs := if u8 c.b 3 = 1 then (l.filter fun x => x.output < o.output) ++ o :: (l.filter fun x => x.output > o.output) else l },
     some .ok)

/-! ## Groups -/

/-- The rasters a mask names. -/
def maskBits (m n : Nat) : List Nat := (List.range n).filter (bit m)

/-- What the members of a group have in common (R330). -/
def Raster.grid (r : Raster) : RasterTiming × Nat := (r.timing, r.cut)

/-- RASTER_GROUP_SET (R330). A raster of another group is refused, and joining replaces the group's members. -/
def specRasterGroupSet : CmdSpec where
  op := 0x0A03
  length := fixed 4
  ranges := fun _ b => [rng b 0 1 0 3, rng b 1 1 0 3, rng b 2 2 0 255]
  combos := fun d c =>
    let m := maskBits (u16 c.b 2) 8
    if u8 c.b 1 = 0 then none
    else comboCheck [bad (m.length < 2) 2, bad (!(m.all fun i => (d.raster i).grid = (d.raster (m.headD 0)).grid)) 2,
      bad (m.any fun i => match (d.raster i).group with
        | some g => g ≠ u8 c.b 0
        | none => false) 2]
  targets := fun d b =>
    let old := (tabGet d.display.groups (u8 b 0)).members
    (maskBits (if u8 b 1 = 0 then old else old ||| u16 b 2) 8).map (0x4000 + ·)
  against := fun d c =>
    let old := (tabGet d.display.groups (u8 c.b 0)).members
    if (maskBits (if u8 c.b 1 = 0 then old else old ||| u16 c.b 2) 8).any fun i => (d.raster i).running then some (.busy 3) else none
  act := fun c d =>
    let g := u8 c.b 0
    let m := if u8 c.b 1 = 0 then 0 else u16 c.b 2
    let join := fun (e : Nat × Raster) =>
      if bit m e.1 then { e.2 with group := some g } else if e.2.group = some g then { e.2 with group := none } else e.2
    (d.onDisplay fun p => { p with groups := tabMod p.groups g fun _ => { kind := u8 c.b 1, members := m }
                                   rasters := (indexed p.rasters).map join }, some .ok)

/-- The rasters that act together with raster `i`. -/
def rasterPeers (d : Dev) (i : Nat) : List Nat := match (d.raster i).group with
  | some g => maskBits (tabGet d.display.groups g).members 8
  | none => [i]

/-! ## Checking, refresh, underrun -/

/-- RASTER_CRC_SET (R326). -/
def specRasterCrcSet : CmdSpec where
  op := 0x0A05
  length := fixed 4
  ranges := fun _ b => [obj b 0 0x4, rng b 2 1 0 1, zeroAt b 3 1]
  targets := fun _ b => [u16 b 0]
  act := fun c d => (d.onRaster (objIndex (u16 c.b 0)) fun r => { r with crcOn := u8 c.b 2 = 1 }, some .ok)

/-- RASTER_REFRESH_SET (R328, Table 13.7). -/
def specRasterRefreshSet : CmdSpec where
  op := 0x0A06
  stageable := fun _ => true
  length := fixed 4
  ranges := fun _ b => [obj b 0 0x4, rng b 2 1 0 1, rng b 3 1 1 255]
  targets := fun _ b => [u16 b 0]
  against := fun d c => comboCheck [bad (!((c.raster d).outputs.all OutputBind.dsiCommand)) 0]
  settle := fun c d => d.onRaster (objIndex (u16 c.b 0)) fun r =>
    { r with refresh := u8 c.b 2 = 1, nUnchanged := u8 c.b 3, refreshK := 0, unchangedRun := 0, changed := true }

/-- RASTER_UNDERRUN_SET (R317, R329). -/
def specRasterUnderrunSet : CmdSpec where
  op := 0x0A07
  stageable := fun _ => true
  length := fixed 4
  ranges := fun _ b => [obj b 0 0x4, rng b 2 1 0 1, zeroAt b 3 1]
  targets := fun _ b => [u16 b 0]
  against := fun d c =>
    comboCheck [bad (u8 c.b 2 = 1 && (c.raster d).planes.any fun p => p.mode ≠ 0 && p.sourceKind = 0 && !fillDepthOk (branchSet d p.source)) 3]
  settle := fun c d => d.onRaster (objIndex (u16 c.b 0)) fun r => { r with fill := u8 c.b 2, changed := true }

/-! ## SDI inputs -/

/-- SDI_RX_CONFIG (R331, R332): an SDI input has no object ID and so no owner. -/
def specSdiRxConfig : CmdSpec where
  op := 0x0A08
  length := fixed 12
  ranges := fun d b => [rng b 0 1 0 3, rng b 1 1 0 1, rng b 2 1 2 16, rng b 3 1 0 5, handle0 d b 4, rng b 8 2 0 255, zeroAt b 10 2]
  handles := fun b => if u32 b 4 = 0 then [] else [u32 b 4]
  combos := fun d c => comboCheck [bad (u8 c.b 1 = 1 && (livePail d (u32 c.b 4)).isNone) 4]
  act := fun c d =>
    let b := c.b
    (d.onDisplay fun p => { p with sdiIn := tabMod p.sdiIn (u8 b 0) fun s =>
      let on : Bool := u8 b 1 = 1
      let same : Bool := s.enabled && on && s.pail = u32 b 4 && s.depth = u8 b 2
      { s with enabled := on, locked := s.locked && on, depth := u8 b 2, domain := u8 b 3, pail := u32 b 4, holdFrames := u16 b 8
               ring := if same then s.ring else s.ring.replace (if s.enabled then s.pail else 0) } }, some .ok)

/-! ## Query, start and stop -/

/-- RASTER_QUERY. -/
def specRasterQuery : CmdSpec where
  op := 0x0A09
  length := fixed 4
  ranges := fun _ b => [obj b 0 0x4, zeroAt b 2 2]
  act := fun c d =>
    let r := c.raster d
    let o := u16 c.b 0
    (d, some (.ok (le 1 (boolNat r.running) ++ le 1 (r.group.getD 0xFF) ++ le 1 r.refreshK ++ le 1 0 ++ le 8 (counterOf d o 8) ++ le 4 r.latchEpoch
      ++ leInt 4 r.gridError ++ (List.range 8).flatMap (fun k => le 4 (counterOf d o k))
      ++ r.outputs.flatMap fun x => x.units.flatMap fun u =>
        let k := mapGetD x.checks u {}
        le 1 u ++ le 3 0 ++ le 4 k.composited ++ le 4 k.loopback)))

/-- The source of frames that a plane takes slots of. -/
def planeRef (p : PlaneSet) : Option Nat :=
  if p.mode = 0 then none
  else match p.sourceKind with
    | 0 => some p.source
    | 2 => some (sdiRef p.source)
    | _ => none

/-- A slot as a raster holds it: its source, its place and its frame. -/
def AirPlane.key (p : AirPlane) : Option (Nat × Nat × Nat) := (planeRef p.set).map fun o => (o, p.slot, p.frame)

/-- The slots that a raster's frames hold (R317): under fill mode 1 those of the frame before too. -/
def airKeys (l : List AirFrame) : List (Nat × Nat × Nat) :=
  ((l.filter fun a => !a.closed).flatMap fun a => (a.planes ++ a.before).filterMap fun p => p.bind AirPlane.key).dedup

/-- A raster's frames change: slots that come in are taken and slots that go out are let go. -/
def setAir (i : Nat) (l : List AirFrame) (d : Dev) : Dev :=
  let old := airKeys (d.raster i).air
  let new := airKeys l
  let d := (new.filter fun k => k ∉ old).foldl (fun d k => holdSlot k.1 k.2.1 (0x4000 + i) d) d
  let d := (old.filter fun k => k ∉ new).foldl (fun d k => dropSlot k.1 k.2.1 (0x4000 + i) d) d
  d.onRaster i fun r => { r with air := l }

/-- A raster stops: its outputs stop transmitting and held slots are let go. -/
def haltRaster (i : Nat) (d : Dev) : Dev :=
  (setAir i [] d).onRaster i fun r =>
    { r with running := false, stopping := false, live := List.replicate 4 {}, shown := List.replicate 4 {}, awaitTe := []
             refreshK := 0, unchangedRun := 0, lineCheck := [] }

/-- The first frame of a raster that starts (R312, R333): the first point of its grid at least 1 ms after intake, in ns of
its domain. -/
def firstStart (d : Dev) (r : Raster) (time : Nat) : Nat :=
  let td := r.timing.domain
  let t0 := (d.domain td).timeAt (time + 1000000)
  let n := objIndex r.timing.refStream
  match (if r.timing.refStream = 0 then none else (d.stream n).lastSof) with
  | some s =>
    let a : Int := (s : Int) + (domainNow d td : Int) - (domainNow d (streamDomain d n) : Int) + (r.timing.phaseNs : Int)
    let per := r.timing.period
    let k : Int := -(-(((t0 : Int) - a : Int) : Rat) / per).floor
    let at1 := a + ((k : Rat) * per).floor
    (if at1 < (t0 : Int) then a + (((k + 1 : Int) : Rat) * per).floor else at1).toNat
  | none => gridFrom d td (t0 - r.timing.phaseNs) r.timing.rateNum r.timing.rateDen + r.timing.phaseNs

/-- A raster as it starts at a time of its domain; its frames count from there (R524). -/
def beginRaster (start : Nat) (d : Dev) (i : Nat) : Dev :=
  let lc := recheckPlanes d (d.raster i)
  setCounter (0x4000 + i) 8 0 (d.onRaster i fun r =>
    { r with running := true, stopping := false, frame := 0, latchedFrame := 0, gridBase := start, startAt := start, frameStart := start
             live := List.replicate 4 {}, shown := List.replicate 4 {}, air := [], refreshK := 0, unchangedRun := 0, refreshPhase := 0
             changed := true, awaitTe := [], gridError := 0, driftRaised := false, driftGoodSince := none, lineCheck := lc })

/-- RASTER_START as admission sees it. -/
def startSettle (c : Ctx) (d : Dev) : Dev :=
  let i := objIndex (u16 c.b 0)
  (rasterPeers d i).foldl (beginRaster (firstStart d (d.raster i) c.time)) d

/-- RASTER_START (R312, R330, R333). -/
def specRasterStart : CmdSpec where
  op := 0x0A0A
  length := fixed 4
  ranges := fun _ b => [obj b 0 0x4, zeroAt b 2 2]
  combos := fun d c => comboCheck [bad ((rasterPeers d (objIndex (u16 c.b 0))).any fun i => (d.raster i).outputs.isEmpty) 0]
  targets := fun d b => (rasterPeers d (objIndex (u16 b 0))).map (0x4000 + ·)
  against := rasterIdle
  raises := true
  settle := startSettle
  act := fun c d =>
    let start := firstStart d (c.raster d) c.time
    (startSettle c d, some (.ok (fullTimeBytes (fullTime start))))

/-- RASTER_STOP (R330): after the current frame, or at once. A raster whose first frame has not started stops at once. -/
def specRasterStop : CmdSpec where
  op := 0x0A0B
  length := fixed 4
  ranges := fun _ b => [obj b 0 0x4, rng b 2 1 0 1, zeroAt b 3 1]
  targets := fun d b => (rasterPeers d (objIndex (u16 b 0))).map (0x4000 + ·)
  act := fun c d =>
    let one := fun (d : Dev) i =>
      let r := d.raster i
      if !r.running then d
      else if u8 c.b 2 = 1 || r.frame = 0 then haltRaster i d
      else d.onRaster i fun r => { r with stopping := true }
    ((rasterPeers d (objIndex (u16 c.b 0))).foldl one d, some .ok)

end Sys2Proof.Machine
end

