-- ==== Sys2Proof/Machine/TimeCmd.lean ====
section
/-! DEFINITION. Area 0x0B: time domains and the commands of time (R336 to R355, Tables 14.1 to 14.11). LAUNCH_SCHEDULE
stands in LaunchCmd, beside the actions it starts. -/

namespace Sys2Proof.Machine

/-! ## Domains -/

/-- The object ID of a time domain. -/
def domainObj (td : Nat) : Nat := 0xE000 + td

/-- A domain's counter is counted on from this instant: what has passed goes into its base. -/
def Domain.rebase (now : Nat) (dm : Domain) : Domain :=
  { dm with base := dm.timeAt now, anchor := now, slew := dm.slew - slewDone dm (now - dm.anchor) }

/-- The code of a state (Table 14.2). -/
def DomainState.code : DomainState → Nat
  | .disabled => 0
  | .acquiring => 1
  | .locked => 2
  | .holdover => 3
  | .ratePending => 4
  | .free => 5

/-- The domain counts at a held rate (R344). -/
def DomainState.held (s : DomainState) : Bool := s = .holdover || s = .ratePending

/-- A domain's rate is what its loop settles on next: a free value within ±500 ppm (R337). -/
def steerDomain (td : Nat) (d : Dev) : Dev :=
  let (k, d) := takeFree d
  d.onDomain td fun dm => { dm.rebase d.now with rate := clampInt (Config.freeRate k) (-500000000) 500000000 }

/-- A change of state, with TD_STATE (R340). A domain that loses its reference keeps the rate it had averaged (R344). -/
def setDomain (td : Nat) (new : DomainState) (cause : Nat) (d : Dev) : Dev :=
  let dm := d.domain td
  if dm.state = new then d
  else
    let d := if new.held && !dm.state.held then steerDomain td d else d
    let d := d.onDomain td fun dm =>
      { dm.rebase d.now with state := new, heldSince := d.now, extended := false, phaseRun := if new = .acquiring then 0 else dm.phaseRun }
    raise 0x0B81 (if new.held then 2 else 1) (domainObj td) (le 1 dm.state.code ++ le 1 new.code ++ le 1 cause ++ le 1 0 ++ leInt 4 dm.error) d (td := td)

/-- A step that the domain's next grid point is to take (R341). -/
def askStep (td : Nat) (s : Int) (d : Dev) : Dev := d.onDomain td fun dm => { dm with pendingStep := some s }

/-- A domain corrects an error against its reference (R341): it steps when it has no valid time yet, or with STEP beyond
step_ns; otherwise it slews. -/
def correctDomain (td : Nat) (e : Int) (d : Dev) : Dev :=
  let dm := d.domain td
  let d := d.onDomain td fun dm => { dm with error := e }
  if !dm.hasTime || (dm.stepOn && e.natAbs > dm.stepNs) then askStep td (-e) d
  else d.onDomain td fun dm => { dm.rebase d.now with slew := -e }

/-- TIME_ANCHOR of a whole second or after a step (R351, R342). -/
def anchorEvent (td ns : Nat) (stepped : Bool) (d : Dev) : Dev :=
  raiseAt 0x0B80 0 (domainObj td) (fullTimeBytes (fullTime ns) ++ le 1 (d.domain td).state.code ++ le 1 (boolNat stepped)) ns td 0 d

/-- Something that a domain times runs (R355). -/
def domainBusy (d : Dev) (td : Nat) : Bool :=
  (d.display.rasters.any fun r => r.running && r.timing.domain = td)
  || (d.furrows.any fun f => f.runs && (match f.config with
    | some c => c.domain = td
    | none => false))
  || (d.audio.ports.any fun p => p.state ≠ .disabled && p.config.domain = td)
  || d.net.flows.any fun e => e.2.running && e.2.config.domain = td

/-! ## Launch entries -/

/-- LAUNCH_MISSED (R354), counted (Table 23.3). -/
def launchMissed (l : Launch) (reason : Nat) (d : Dev) : Dev :=
  count (domainObj l.domain) 4 1
    (raise 0x0B87 2 (domainObj l.domain) (le 2 l.id ++ le 1 l.kind ++ le 1 reason ++ le 4 l.cookie) d (td := l.domain))

/-- Disabling a domain cancels its entries (R354). -/
def cancelLaunches (td : Nat) (d : Dev) : Dev :=
  let gone := d.time.launches.filter fun l => l.domain = td
  let d := d.onTime fun t => { t with launches := t.launches.filter fun l => l.domain ≠ td }
  gone.foldl (fun d l => launchMissed l 2 d) d

/-! ## TD_CONFIG and TD_QUERY -/

/-- The domain a command names at offset 0. -/
def Ctx.td (c : Ctx) : Nat := objIndex (u16 c.b 0)

/-- The grid rate a TD_CONFIG leaves: TD4 keeps genlock's. -/
def newRate (d : Dev) (c : Ctx) : Nat × Nat :=
  if c.td = 4 then ((d.domain 4).rateNum, (d.domain 4).rateDen) else (u32 c.b 4, u32 c.b 8)

/-- TD_CONFIG takes effect (R340). A domain that is enabled with a reference starts in ACQUIRING, with no valid time and
counting from 0. -/
def tdConfigAct (c : Ctx) (d : Dev) : Dev :=
  let b := c.b
  let td := c.td
  let on := bit (u8 b 2) 0
  let was : Bool := (d.domain td).state ≠ .disabled
  let (num, den) := newRate d c
  let d := d.onDomain td fun dm =>
    { dm with stepOn := bit (u8 b 2) 1, timeSource := u8 b 3, copied := dm.copied && on && dm.timeSource = u8 b 3, rateNum := num, rateDen := den, maxSlewPpm := u16 b 12, stepNs := u32 b 16 }
  let d := if on && bit (u8 b 2) 2 then d.onDomain td fun dm => { dm with pendingTime := some (timeAt b 20) } else d
  if was && !on then
    cancelLaunches td (setDomain td .disabled 0 (d.onDomain td fun dm => { dm with pendingTime := none, pendingStep := none }))
  else if !was && on then
    if td = 5 then setDomain 5 .free 0 (d.onDomain 5 fun dm => { dm with anchor := d.now, slew := 0 })
    else
      setDomain td .acquiring 0 (d.onDomain td fun dm =>
        { dm with base := 0, anchor := d.now, rate := 0, slew := 0, hasTime := false, error := 0, phaseRun := 0, gridPulse := none
                  gridPeriod := 0, commitStep := false })
  else d

/-- TD_CONFIG (R340, R355, Table 14.7). -/
def specTdConfig : CmdSpec where
  op := 0x0B00
  length := fixed 36
  ranges := fun _ b => [obj b 0 0xE, flagBits b 2 1 3, rng b 3 1 0 5, chk 4 (u32 b 4 = 0 || within (u32 b 4) 1000 240000),
    chk 8 (u32 b 8 = 0 || within (u32 b 8) 1000 1001), rng b 12 2 1 500, zeroAt b 14 2, rng b 16 4 1000 1000000000]
    ++ timeField b 20 ++ [zeroAt b 32 4]
  combos := fun d c =>
    let b := c.b
    let td := c.td
    let on := bit (u8 b 2) 0
    let set := bit (u8 b 2) 2
    comboCheck [bad (on && td ≤ 3 && !(tabGet d.time.ptp td).configured) 0, bad (on && td = 4 && !d.time.genlock.configured) 0,
      bad (td ≠ 4 && u8 b 3 ≠ 0) 3, bad (set && td ≤ 3) 2, bad (set && td = 4 && u8 b 3 ≠ 0) 3,
      bad ((td == 4) != (u32 b 4 == 0)) 4, bad ((td == 4) != (u32 b 8 == 0)) 8]
  against := fun d c =>
    let td := c.td
    let dm := d.domain td
    let off : Bool := dm.state ≠ .disabled && !bit (u8 c.b 2) 0
    if (off || newRate d c ≠ (dm.rateNum, dm.rateDen)) && domainBusy d td then some (.busy 3) else none
  act := fun c d => (tdConfigAct c d, some .ok)

/-- An input has valid edges. -/
def RefInput.good (r : RefInput) : Bool := r.lastValid.isSome && !r.lost && !r.changed

/-- The reference inputs of a domain that are valid, by the input codes of Table 14.12. -/
def refsValid (d : Dev) (td : Nat) : Nat :=
  let p := tabGet d.time.ptp td
  if td ≤ 3 then 8 * boolNat p.validA + 16 * boolNat p.validB
  else if td = 4 then
    boolNat d.time.genlock.inputH.good + 2 * boolNat d.time.genlock.inputF.good + 4 * boolNat d.time.ltc.ref.good
  else 0

/-- The measured period of a pending rate change in ns. -/
def pendingPeriod (d : Dev) (td : Nat) : Nat :=
  let g := d.time.genlock
  if td = 4 && (d.domain 4).state = .ratePending then ((if g.inputH.changed then g.inputH.measured else g.inputF.measured) + 4) / 8 else 0

/-- TD_QUERY; the LTC words stand newest first. -/
def specTdQuery : CmdSpec where
  op := 0x0B01
  length := fixed 4
  ranges := fun _ b => [obj b 0 0xE, zeroAt b 2 2]
  act := fun c d =>
    let td := c.td
    let dm := d.domain td
    let p : Ptp := if td ≤ 3 then tabGet d.time.ptp td else {}
    let th := if dm.state.held then (d.now - dm.heldSince) / 1000000 else 0
    let leap := boolNat p.leap61 + 2 * boolNat p.leap59 + 4 * boolNat p.utcValid
    let words := (d.time.ltc.words.flatMap fun w => le 8 w.bits ++ le 4 w.stamp) ++ List.replicate 192 0
    (d, some (.ok (le 1 dm.state.code ++ le 1 (refsValid d td) ++ le 2 0 ++ fullTimeBytes (fullTime (domainNow d td)) ++ leInt 4 dm.rate
      ++ leInt 4 dm.error ++ le 4 th ++ le 8 p.grandmaster ++ le 2 p.steps ++ leInt 2 p.utcOffset ++ le 1 leap ++ le 1 p.activePort
      ++ (List.range 4).flatMap (fun k => le 4 (counterOf d (domainObj td) k)) ++ le 4 (pendingPeriod d td)
      ++ (if td = 4 then words.take 192 else []))))

/-! ## References -/

/-- PTP_CONFIG (R346, R355, Table 14.8). -/
def specPtpConfig : CmdSpec where
  op := 0x0B02
  length := fixed 16
  ranges := fun _ b => [chk 0 (within (u16 b 0) 0xE000 0xE003), rng b 2 1 0 1, rng b 3 1 0 127, rng b 4 1 0 4, chk 5 (u8 b 5 ≤ 4 || u8 b 5 = 0xFF),
    flagBits b 6 1 2, rng b 7 1 2 10, rng b 8 4 50 100000, zeroAt b 12 4]
  combos := fun _ c => comboCheck [bad (u8 c.b 5 = u8 c.b 4) 5]
  against := fun d c => if (d.domain c.td).state ≠ .disabled then some (.busy 3) else none
  act := fun c d =>
    let b := c.b
    let p : Ptp := { configured := true, profile := u8 b 2, domain := u8 b 3, portA := u8 b 4, portB := u8 b 5, ipv6 := bit (u8 b 6) 0
                     hybrid := bit (u8 b 6) 1, announceTimeout := u8 b 7, lockNs := u32 b 8, activePort := u8 b 4 }
    (d.onTime fun t => { t with ptp := tabMod t.ptp c.td fun _ => p }, some .ok)

/-- GENLOCK_CONFIG (R348, R355, Table 14.9): TD4 takes its grid rate from it. -/
def specGenlockConfig : CmdSpec where
  op := 0x0B03
  length := fixed 24
  ranges := fun _ b => [rng b 0 1 0 1, rng b 1 1 0 1, rng b 2 1 1 5, rng b 3 1 0 2, rng b 4 4 100 8192, rng b 8 4 1000 240000, rng b 12 4 1000 1001,
    chk 16 (-1000000 ≤ i32 b 16 && i32 b 16 ≤ 1000000), zeroAt b 20 4]
  against := fun d _ => if (d.domain 4).state ≠ .disabled then some (.busy 3) else none
  act := fun c d =>
    let b := c.b
    let g : Genlock := { configured := true, hPolarity := u8 b 0, fPolarity := u8 b 1, fEvery := u8 b 2, bandwidth := u8 b 3, lines := u32 b 4
                         rateNum := u32 b 8, rateDen := u32 b 12, fOffsetNs := i32 b 16 }
    ((d.onTime fun t => { t with genlock := g }).onDomain 4 fun dm => { dm with rateNum := u32 b 8, rateDen := u32 b 12 }, some .ok)

/-- Frames per second of an LTC rate code. -/
def ltcRate (code : Nat) : Rat := match code with
  | 0 => 24
  | 1 => 25
  | 4 => 30
  | _ => 30000 / 1001

/-- Reads LTC_CONFIG (Table 14.11). -/
def readLtc (b : List Byte) : LtcSide :=
  { enabled := u8 b 1 = 1, rate := u8 b 2, domain := u8 b 3, utcOffset := i32 b 4, userBits := u32 b 8, offsetNs := i32 b 12 }

/-- LTC_CONFIG (R349, R350). -/
def specLtcConfig : CmdSpec where
  op := 0x0B04
  stageable := fun _ => true
  length := fixed 16
  ranges := fun _ b => [rng b 0 1 0 1, rng b 1 1 0 1, rng b 2 1 0 4, rng b 3 1 0 5, chk 4 (-86400 ≤ i32 b 4 && i32 b 4 ≤ 86400),
    chk 12 (-1000000 ≤ i32 b 12 && i32 b 12 ≤ 1000000)]
  against := fun d c =>
    let l := readLtc c.b
    let dm := d.domain l.domain
    let f : Rat := (dm.rateNum : Rat) / (dm.rateDen : Rat)
    comboCheck [bad (u8 c.b 0 = 1 && l.enabled && f ≠ ltcRate l.rate && f ≠ 2 * ltcRate l.rate) 2]
  settle := fun c d => d.onTime fun t =>
    let l := readLtc c.b
    { t with ltc := if u8 c.b 0 = 0 then { t.ltc with input := l, ref := {}, lastFrame := none } else { t.ltc with output := l } }

/-- The frame rate that a measured frame period matches within 50 ppm (R344): a multiple of 1,000 over 1,000 or 1,001
where one does, otherwise the nearest (DEDUCED: the example of the manual commits 16.6667 ms as 60,000 ÷ 1,000). The
period is given in 1/8 ns. -/
def matchRate (period8 : Nat) : Option (Nat × Nat) :=
  let near := fun (e : Nat × Nat) =>
    let p : Rat := 8000000000 * (e.2 : Rat) / (e.1 : Rat)
    let x : Rat := (period8 : Rat)
    (if x < p then p - x else x - p) * 1000000 ≤ 50 * p
  let round := (List.range 240).flatMap fun k => [((k + 1) * 1000, 1000), ((k + 1) * 1000, 1001)]
  let exact := if period8 = 0 then [] else [1000, 1001].map fun den => ((8000000000 * den + period8 / 2) / period8, den)
  (round ++ exact).find? fun e => within e.1 1000 240000 && near e

/-- The rate that TD_RATE_COMMIT accepts: the measured line period by the lines of a frame. -/
def acceptRate (d : Dev) : Option (Nat × Nat) :=
  let g := d.time.genlock
  if g.inputH.changed then matchRate (g.inputH.measured * g.lines)
  else matchRate (g.inputF.measured / g.fEvery)

/-- TD_RATE_COMMIT (R344). -/
def specTdRateCommit : CmdSpec where
  op := 0x0B06
  stageable := fun _ => true
  length := fixed 4
  ranges := fun _ b => [chk 0 (u16 b 0 = 0xE004), rng b 2 1 0 1, zeroAt b 3 1]
  against := fun d c =>
    let accept : Bool := u8 c.b 2 = 1
    if (d.domain 4).state ≠ .ratePending then some (.combination 0)
    else if accept && (acceptRate d).isNone then some (.combination 0)
    else if accept && d.display.rasters.any fun r => r.running && r.timing.domain = 4 then some (.busy 3)
    else none
  settle := fun c d =>
    match acceptRate d with
    | some (num, den) =>
      if u8 c.b 2 = 1 && (d.domain 4).state = .ratePending then
        let clean := fun (r : RefInput) => { r with changed := false, lost := false, goodRun := 0, intervals := [], lastValid := r.lastEdge }
        let d := d.onTime fun t =>
          { t with genlock := { t.genlock with rateNum := num, rateDen := den, inputH := clean t.genlock.inputH, inputF := clean t.genlock.inputF } }
        let d := d.onDomain 4 fun dm => { dm with rateNum := num, rateDen := den, commitStep := true, phaseRun := 0 }
        setDomain 4 .acquiring 0 d
      else d
    | none => d
  own := fun _ d => le 4 (d.domain 4).rateNum ++ le 4 (d.domain 4).rateDen

/-- TIME_ANCHOR_CONFIG (R351). A PPS output belongs to the domain that named it last. -/
def specTimeAnchorConfig : CmdSpec where
  op := 0x0B07
  length := fixed 8
  ranges := fun _ b => [obj b 0 0xE, rng b 2 1 0 1, rng b 3 1 0 2, rng b 4 4 100 500000000]
  act := fun c d =>
    let pps := u8 c.b 3
    let free := fun (dm : Domain) => if pps ≠ 0 && dm.pps = pps then { dm with pps := 0 } else dm
    let d := d.onTime fun t => { t with domains := t.domains.map free }
    (d.onDomain c.td fun dm => { dm with anchorOn := u8 c.b 2 = 1, pps, ppsWidth := u32 c.b 4 }, some .ok)

end Sys2Proof.Machine
end

