-- ==== Sys2Proof/Machine/TimeEv.lean ====
section
/-! DEFINITION. What references, steps and the passing of time do to the time domains (R341 to R352, Tables 14.3 and
14.12). -/

namespace Sys2Proof.Machine

/-! ## Reference inputs (Table 14.3) -/

/-- The verdict on an edge of a checked input. -/
structure EdgeVerdict where
  valid : Bool := false
  near : Bool := false
  glitch : Bool := false
  rateChanged : Bool := false
  returned : Bool := false
  deriving DecidableEq, Repr, Inhabited

/-- |a − b| is at most `num` ÷ `den` of b. -/
def nearTo (a b : Rat) (num den : Nat) : Bool := (if a < b then b - a else a - b) * (den : Rat) ≤ b * (num : Rat)

/-- The last 8 intervals show a rate more than 500 ppm from P: their sum. -/
def newRateSum (p : Rat) (l : List Nat) : Option Nat :=
  let s := sumOf id l
  let mean : Rat := (s : Rat) / 8
  if l.length ≥ 8 && (l.all fun i => nearTo (i : Rat) mean 5 10000) && !nearTo mean p 500 1000000 then some s else none

/-- An edge at an instant of the module's clock is checked against the expected period. The first edge after reset or
after a stop starts the measurement, as does one 4 × P after the last valid edge of an input that is lost; a new rate is reported once, and again when it changes further. -/
def checkEdge (p : Rat) (now : Nat) (r : RefInput) : RefInput × EdgeVerdict :=
  let l := match r.lastEdge with
    | some t => ((now - t) :: r.intervals).take 8
    | none => []
  let iv := r.lastValid.map fun t => ((now - t : Nat) : Rat)
  let valid : Bool := match iv with
    | some x => nearTo x p 5 100 || (r.lost && x ≥ 4 * p)
    | none => true
  let near : Bool := match iv with
    | some x => nearTo x p 500 1000000
    | none => false
  let run := if near then r.goodRun + 1 else 0
  let fresh : Option Nat := match newRateSum p l with
    | some s => if r.changed && nearTo (s : Rat) (r.measured : Rat) 500 1000000 then none else some s
    | none => none
  let returned : Bool := (r.lost || r.changed) && run ≥ 8
  ({ r with lastValid := if valid then some now else r.lastValid, lastEdge := some now, intervals := l, goodRun := run
            lost := r.lost && !returned, changed := (r.changed || fresh.isSome) && !returned, measured := fresh.getD r.measured },
   { valid, near, glitch := !valid, rateChanged := fresh.isSome, returned })

/-- No valid edge for 4 × P (Table 14.3, stop). -/
def edgeStopped (p : Rat) (now : Nat) (r : RefInput) : Bool := match r.lastValid with
  | some t => ((now - t : Nat) : Rat) ≥ 4 * p && !r.lost
  | none => false

/-- An input that has stopped. -/
def stopInput (r : RefInput) : RefInput := { r with lost := true, lastValid := none, lastEdge := none, intervals := [], goodRun := 0 }

/-- REF_STATE of an input of a domain, counted as a stop when lost (Table 14.12, Table 23.3). -/
def refState (td code : Nat) (valid : Bool) (d : Dev) : Dev :=
  let d := raise 0x0B86 (if valid then 1 else 2) (domainObj td) [byte code, byte (boolNat valid)] d (td := td)
  if valid then d else count (domainObj td) 1 1 d

/-- CLOCK_RATE_CHANGED of an input; the measured period is the mean of 8. -/
def rateEvent (td code : Nat) (p : Rat) (sum8 : Nat) (d : Dev) : Dev :=
  count (domainObj td) 2 1
    (raise 0x0B82 2 (domainObj td) (le 1 code ++ le 1 0 ++ le 4 (rep32 p) ++ le 4 ((sum8 + 4) / 8)) d (td := td))

/-- What a verdict raises and counts for an input of a domain. -/
def edgeEvents (td code : Nat) (p : Rat) (sum8 : Nat) (v : EdgeVerdict) (d : Dev) : Dev :=
  let d := if v.glitch then count (domainObj td) 0 1 d else d
  let d := if v.rateChanged then rateEvent td code p sum8 d else d
  if v.returned then refState td code true d else d

/-! ## Genlock (R343, R344, R348) -/

/-- The period of a frame of genlock in ns. -/
def Genlock.frame (g : Genlock) : Rat := 1000000000 * (g.rateDen : Rat) / (g.rateNum : Rat)

/-- P of GENLOCK_H. -/
def Genlock.hPeriod (g : Genlock) : Rat := g.frame / (g.lines : Rat)

/-- P of GENLOCK_F. -/
def Genlock.fPeriod (g : Genlock) : Rat := g.frame * (g.fEvery : Rat)

/-- TD4 follows its references. -/
def following (s : DomainState) : Bool := s = .acquiring || s = .locked

/-- TD4's state after an edge: a new rate makes it pending; when both inputs are good again it acquires. -/
def genlockState (v : EdgeVerdict) (d : Dev) : Dev :=
  let s := (d.domain 4).state
  let g := d.time.genlock
  if s = .disabled then d
  else if v.rateChanged then setDomain 4 .ratePending 4 d
  else if v.returned && s.held && !g.inputH.lost && !g.inputH.changed && !g.inputF.changed then setDomain 4 .acquiring 2 d
  else d

/-- An edge of GENLOCK_H: frequency. -/
def genlockH (d : Dev) : Dev :=
  let g := d.time.genlock
  if !g.configured then d
  else
    let (r, v) := checkEdge g.hPeriod d.now g.inputH
    let d := d.onTime fun t => { t with genlock := { t.genlock with inputH := r } }
    let d := genlockState v (edgeEvents 4 0 g.hPeriod r.measured v d)
    if v.near && following (d.domain 4).state then steerDomain 4 d else d

/-- A time error of a pulse: its distance from the nearest point of the predicted grid. -/
def gridErrorOf (t base : Nat) (p : Rat) : Int :=
  let x : Rat := ((t : Int) - (base : Int) : Int)
  (roundEven (x - (roundEven (x / p) : Rat) * p))

/-- Rasters of a domain follow a step (R342): the next frame starts at the first point of the new grid that does not
shorten the frame in progress. -/
def stepRaster (s : Int) (r : Raster) : Raster :=
  let p := r.timing.period
  let oldNext : Int := (r.startOf (r.frame + 1) : Int) + s
  let k : Int := -(-((oldNext - (r.gridBase : Int) : Int) : Rat) / p).floor
  let at1 : Int := (r.gridBase : Int) + ((k : Rat) * p).floor
  let next := if at1 < oldNext then (r.gridBase : Int) + (((k + 1 : Int) : Rat) * p).floor else at1
  { r with gridBase := (next - ((r.frame : Rat) * p).floor).toNat, frameStart := ((r.frameStart : Int) + s).toNat
           startAt := ((r.startAt : Int) + s).toNat, stretch := (next - oldNext).toNat }

/-- A domain's counter steps at this instant (R341, R342): intervals that furrows and rasters measure keep their length,
TD_STEPPED and a TIME_ANCHOR follow. `moveGrid` tells that TD4's grid points keep their place and so change their time. -/
def stepNow (td : Nat) (s : Int) (moveGrid : Bool) (d : Dev) : Dev :=
  let new := ((domainNow d td : Int) + s).toNat
  let shift := fun (x : Nat) => ((x : Int) + s).toNat
  let mine := (List.range 24).filter fun n => streamDomain d n = td
  let d := mine.foldl (fun d n => d.onStream n fun st => { st with lastSof := st.lastSof.map shift }) d
  let raster := fun (r : Raster) => if r.running && r.timing.domain = td then stepRaster s r else r
  let d := d.onDisplay fun p => { p with rasters := p.rasters.map raster }
  let d := d.onDomain td fun dm =>
    { dm with base := new, anchor := d.now, slew := 0, pendingStep := none, pendingTime := none
              hasTime := dm.hasTime || td ≤ 3 || dm.pendingTime.isSome, gridPulse := if moveGrid then dm.gridPulse.map shift else dm.gridPulse }
  let d := count (domainObj td) 3 1 (raiseAt 0x0B83 1 (domainObj td) (leInt 8 s ++ le 4 (shortStamp new)) new td 0 d)
  anchorEvent td new true d

/-- The time that a domain asked to take, if any, at this instant: the step it makes. -/
def dueStep (d : Dev) (td : Nat) : Option (Int × Bool) :=
  let dm := d.domain td
  if dm.state = .disabled then none
  else match dm.pendingTime, dm.pendingStep with
    | some t, _ => some ((t : Int) - (domainNow d td : Int), true)
    | none, some s => some (s, false)
    | none, none => none

/-- A whole-second correction is asked of a domain at its next grid point. -/
def askTime (td : Nat) (s : Int) (d : Dev) : Dev :=
  let t := ((nextGrid d td (domainNow d td + 1) : Int) + s).toNat
  d.onDomain td fun dm => { dm with pendingTime := some t }

/-- TD4 copies a PTP domain's time once, at the first lock with that source (R348). -/
def copyTime (d : Dev) : Dev :=
  let dm := d.domain 4
  if 2 ≤ dm.timeSource && !dm.copied && (d.domain (dm.timeSource - 2)).state ≠ .disabled then
    (askTime 4 ((domainNow d (dm.timeSource - 2) : Int) - (domainNow d 4 : Int)) d).onDomain 4 fun dm => { dm with copied := true }
  else d

/-- A GENLOCK_F pulse: phase and grid. -/
def genlockF (d : Dev) : Dev :=
  let g := d.time.genlock
  if !g.configured then d
  else
    let since := g.inputF.lastValid.map fun t => d.now - t
    let (r, v) := checkEdge g.fPeriod d.now g.inputF
    let d := d.onTime fun t => { t with genlock := { t.genlock with inputF := r } }
    let d := genlockState v (edgeEvents 4 1 g.fPeriod r.measured v d)
    let dm := d.domain 4
    if !(v.valid && following dm.state && !r.lost && !r.changed) then d
    else
      let t := domainNow d 4
      let p := g.fPeriod
      let period := fun (dm : Domain) => match since with
        | some iv => if v.near then iv / g.fEvery else dm.gridPeriod
        | none => dm.gridPeriod
      match dm.gridPulse with
      | none => d.onDomain 4 fun dm => { dm with gridPulse := some t, phaseRun := 0 }
      | some base =>
        let e := gridErrorOf t base p
        let here := ((t : Int) - e).toNat
        let d := d.onDomain 4 fun dm => { dm with gridPulse := some here, gridPeriod := period dm, error := e }
        if dm.commitStep then
          stepNow 4 (-e) false (d.onDomain 4 fun dm => { dm with commitStep := false, phaseRun := 0 })
        else
          let d := correctDomain 4 e d
          let run := if e.natAbs ≤ 100 then dm.phaseRun + 1 else 0
          let d := d.onDomain 4 fun dm => { dm with phaseRun := run }
          if run ≥ 8 && dm.state = .acquiring then copyTime (setDomain 4 .locked 3 d) else d

/-- A genlock input has stopped: TD4 holds over when GENLOCK_H stops, and goes on counting lines when only GENLOCK_F does. -/
def genlockStop (h : Bool) (d : Dev) : Dev :=
  let g := d.time.genlock
  let p := if h then g.hPeriod else g.fPeriod
  if !g.configured || !edgeStopped p d.now (if h then g.inputH else g.inputF) then d
  else
    let d := d.onTime fun t => { t with genlock :=
      if h then { t.genlock with inputH := stopInput t.genlock.inputH } else { t.genlock with inputF := stopInput t.genlock.inputF } }
    let d := refState 4 (if h then 0 else 1) false d
    if h && following (d.domain 4).state then setDomain 4 .holdover 1 d else d

/-! ## LTC (R349, R350) -/

/-- The frame period of an LTC rate in ns. -/
def ltcPeriod (l : LtcSide) : Rat := 1000000000 / ltcRate l.rate

/-- An LTC word's edge is checked. -/
def ltcEdge (d : Dev) : Dev × EdgeVerdict :=
  let l := d.time.ltc
  let (r, v) := checkEdge (ltcPeriod l.input) d.now l.ref
  let d := d.onTime fun t => { t with ltc := { t.ltc with ref := r } }
  (edgeEvents l.input.domain 2 (ltcPeriod l.input) r.measured v d, v)

/-- LTC_IN has stopped. -/
def ltcStop (d : Dev) : Dev :=
  let l := d.time.ltc
  if l.input.enabled && edgeStopped (ltcPeriod l.input) d.now l.ref then
    refState l.input.domain 2 false (d.onTime fun t => { t with ltc := { t.ltc with ref := stopInput t.ltc.ref, lastFrame := none } })
  else d

/-- Seconds of the day that a word's timecode gives (PRESUMED: the BCD places of SMPTE ST 12-1). -/
def ltcSeconds (w : Nat) : Nat :=
  (bits w 57 56 * 10 + bits w 51 48) * 3600 + (bits w 42 40 * 10 + bits w 35 32) * 60 + bits w 26 24 * 10 + bits w 19 16

/-- The seconds of TD4 follow an LTC word at its stamp, the date kept (R348). -/
def ltcTime (w : Nat) (d : Dev) : Dev :=
  let dm := d.domain 4
  if dm.timeSource = 1 && dm.state ≠ .disabled then
    let now := domainNow d 4
    let day := now / 86400000000000 * 86400
    let e : Int := (((day + ltcSeconds w) : Nat) : Int) - ((now / 1000000000 : Nat) : Int)
    if e = 0 then d.onDomain 4 fun dm => { dm with hasTime := true }
    else if dm.pendingTime.isSome then d else askTime 4 (e * 1000000000) d
  else d

/-- Frames counted in a second of an LTC rate. -/
def ltcNominal (rate : Nat) : Nat := if rate = 0 then 24 else if rate = 1 then 25 else 30

/-- The frame label of a word: its place in a day of whole frame counts. -/
def ltcLabel (rate w : Nat) : Nat := ltcSeconds w * ltcNominal rate + bits w 9 8 * 10 + bits w 3 0

/-- The label one frame later: drop-frame counting skips two labels at each minute but every tenth. -/
def nextLabel (rate n : Nat) : Nat :=
  let k := ltcNominal rate
  let m := (n + 1) % (86400 * k)
  if rate = 2 && m % (60 * k) = 0 && m / (60 * k) % 10 ≠ 0 then m + 2 else m

/-- An LTC word arrives; `good` tells that its sync word is. One that is its predecessor plus one frame, within speed, is stamped and kept;
any other is a glitch (R349). The first word has no predecessor. -/
def ltcReceive (w : Nat) (good : Bool) (d : Dev) : Dev :=
  let l := d.time.ltc
  if !l.input.enabled then d
  else if !good then count (domainObj l.input.domain) 0 1 d
  else
    let n := ltcLabel l.input.rate w
    let next : Bool := l.lastFrame.all fun p => n = nextLabel l.input.rate p
    let d := d.onTime fun t => { t with ltc := { t.ltc with lastFrame := some n } }
    if !next then count (domainObj l.input.domain) 0 1 d
    else
    let (d, v) := ltcEdge d
    if !v.valid then d
    else
      let e : LtcWord := { bits := w, stamp := shortStamp (domainNow d l.input.domain) }
      ltcTime w (d.onTime fun t => { t with ltc := { t.ltc with words := (e :: t.ltc.words).take 16 } })

/-- A number below 100 as BCD digits at two places of a word. -/
def bcd (v units tens : Nat) : Nat := v % 10 * 2 ^ units + v / 10 * 2 ^ tens

/-- Timecode numbers skipped by drop-frame counting up to frame `n` of the day. -/
def dropFrames (n : Nat) : Nat :=
  let ten := n / 17982
  let r := n % 17982
  18 * ten + (if r < 1800 then 0 else 2 * ((r - 1800) / 1798 + 1))

/-- The timecode word of a time of day at a rate (PRESUMED: the places of ST 12-1 and the counting of ST 2059-1). -/
def ltcWord (l : LtcSide) (tod : Nat) : Nat :=
  let r := ltcRate l.rate
  let nom := if l.rate = 0 then 24 else if l.rate = 1 then 25 else 30
  let n := ((tod : Rat) * r / 1000000000).floor.toNat
  let n := if l.rate = 2 then n + dropFrames n else n
  let f := n % nom
  let s := n / nom
  let user := (List.range 8).foldl (fun a k => a + bits l.userBits (4 * k + 3) (4 * k) * 2 ^ (8 * k + 4)) 0
  bcd f 0 8 + 2 ^ 10 * boolNat (l.rate = 2) + bcd (s % 60) 16 24 + bcd (s / 60 % 60) 32 40 + bcd (s / 3600 % 24) 48 56 + user

/-- LTC_OUT sends a word at a grid point plus its offset (R350). -/
def ltcSend (d : Dev) : Dev :=
  let l := d.time.ltc.output
  if !l.enabled || (d.domain l.domain).state = .disabled then d
  else
    let ns := domainNow d l.domain
    let utc := if l.domain ≤ 3 then (tabGet d.time.ptp l.domain).utcOffset else 0
    let tod := ((((ns : Int) - l.offsetNs) + (l.utcOffset - utc) * 1000000000) % 86400000000000).toNat
    d.onTime fun t => { t with ltc := { t.ltc with lastSent := some d.now, sent := ltcWord l tod } }

/-! ## PTP (R347) -/

/-- Changes a PTP instance. -/
def onPtp (td : Nat) (f : Ptp → Ptp) (d : Dev) : Dev := d.onTime fun t => { t with ptp := tabMod t.ptp td f }

/-- The input code of a PTP port (Table 14.12). -/
def ptpInput (portB : Bool) : Nat := if portB then 4 else 3

/-- The port is the active one. -/
def Ptp.isActive (p : Ptp) (portB : Bool) : Bool := p.activePort = (if portB then p.portB else p.portA)

/-- A Sync message of a port (R347). -/
def ptpSync (td : Nat) (portB : Bool) (offset : Int) (d : Dev) : Dev :=
  let p := tabGet d.time.ptp td
  let dm := d.domain td
  if !p.configured || dm.state = .disabled || (portB && p.portB = 0xFF) then d
  else
    let known : Bool := if portB then p.lastSyncB.isSome else p.lastSyncA.isSome
    let was := if portB then p.validB else p.validA
    let run := fun (n : Nat) => if offset.natAbs ≤ p.lockNs then n + 1 else 0
    let d := onPtp td (fun p =>
      if portB then { p with validB := true, lastSyncB := some d.now, goodRunB := run p.goodRunB }
      else { p with validA := true, lastSyncA := some d.now, goodRun := run p.goodRun }) d
    let d := if known && !was then refState td (ptpInput portB) true d else d
    if !p.isActive portB then d
    else
      let d := if dm.state = .holdover then setDomain td .acquiring 2 d else d
      let d := correctDomain td offset (steerDomain td d)
      let p := tabGet d.time.ptp td
      if (if portB then p.goodRunB else p.goodRun) ≥ 16 && (d.domain td).state = .acquiring then setDomain td .locked 3 d else d

/-- An Announce message of a port; `best` tells that BMCA chooses its master (R347). -/
def ptpAnnounce (td : Nat) (portB : Bool) (gm steps : Nat) (utc : Int) (flags : Nat) (best : Bool) (d : Dev) : Dev :=
  let p := tabGet d.time.ptp td
  if !p.configured || (d.domain td).state = .disabled || (portB && p.portB = 0xFF) then d
  else
    let d := onPtp td (fun p => if portB then { p with gmB := gm } else { p with gmA := gm }) d
    if !best then d
    else
      let port := if portB then p.portB else p.portA
      let d := onPtp td (fun p =>
        { p with grandmaster := gm, steps, utcOffset := utc, leap61 := bit flags 0, leap59 := bit flags 1, utcValid := bit flags 2, activePort := port }) d
      if p.grandmaster ≠ 0 && p.grandmaster ≠ gm then
        let d := raise 0x0B84 1 (domainObj td) (le 8 gm ++ le 2 steps ++ le 1 port) d (td := td)
        let d := onPtp td (fun p => { p with goodRun := 0, goodRunB := 0 }) d
        if (d.domain td).state = .locked then setDomain td .acquiring 5 d else d
      else d

/-- A port's reference is lost: the other port takes over when it receives the same grandmaster and is locked. -/
def ptpLost (td : Nat) (portB : Bool) (d : Dev) : Dev :=
  let p := tabGet d.time.ptp td
  let was := if portB then p.validB else p.validA
  if !p.configured || (d.domain td).state = .disabled || !was then d
  else
    let d := onPtp td (fun p => if portB then { p with validB := false, goodRunB := 0 } else { p with validA := false, goodRun := 0 }) d
    let d := refState td (ptpInput portB) false d
    if !p.isActive portB then d
    else
      let other : Bool := if portB then p.validA && p.goodRun ≥ 16 else p.validB && p.goodRunB ≥ 16
      if other && p.gmA = p.gmB then onPtp td (fun p => { p with activePort := if portB then p.portA else p.portB }) d
      else if following (d.domain td).state then setDomain td .holdover 1 d
      else d

/-! ## The rows -/

/-- PTP_SYNC_RECEIVE (R347). -/
def execPtpSyncReceive (time : Nat) (td : Fin 4) (portB : Bool) (offset : Int) (s : State) : Host.Outcome State Fault Refusal :=
  after time (ptpSync td portB offset) s

/-- PTP_ANNOUNCE_RECEIVE (R347). -/
def execPtpAnnounceReceive (time : Nat) (td : Fin 4) (portB : Bool) (gm steps : Nat) (utc : Int) (flags : Nat) (best : Bool) (s : State) :
    Host.Outcome State Fault Refusal := after time (ptpAnnounce td portB gm steps utc flags best) s

/-- PTP_REFERENCE_TIMEOUT (R347). -/
def execPtpReferenceTimeout (time : Nat) (td : Fin 4) (portB : Bool) (s : State) : Host.Outcome State Fault Refusal :=
  after time (ptpLost td portB) s

/-- LTC_WORD_RECEIVE (R349). -/
def execLtcWordReceive (time word : Nat) (good : Bool) (s : State) : Host.Outcome State Fault Refusal := after time (ltcReceive word good) s

/-- LTC_WORD_SEND (R350). -/
def execLtcWordSend (time : Nat) (s : State) : Host.Outcome State Fault Refusal := after time ltcSend s

/-- A whole second of a domain (R351): the anchor, and the pulse of its PPS output. -/
def anchorNow (td : Nat) (d : Dev) : Dev :=
  let dm := d.domain td
  if dm.state = .disabled then d
  else
    let sec := (domainNow d td + 500000000) / 1000000000
    let d := if dm.pps = 0 then d else d.onTime fun t => { t with pps := t.pps.set (dm.pps - 1) (some (d.now + dm.ppsWidth)) }
    if dm.anchorOn then anchorEvent td (sec * 1000000000) false d else d

/-- TIME_ANCHOR (R351). -/
def execTimeAnchor (time : Nat) (td : Fin 6) (s : State) : Host.Outcome State Fault Refusal := after time (anchorNow td) s

/-- Holdover reaches 600 s (R345). -/
def holdoverLong (td : Nat) (d : Dev) : Dev :=
  let dm := d.domain td
  if dm.state.held && !dm.extended && d.now ≥ dm.heldSince + 600000000000 then
    let entered := dm.timeAt d.now - (d.now - dm.heldSince)
    raise 0x0B85 2 (domainObj td) (le 4 (shortStamp entered)) (d.onDomain td fun dm => { dm with extended := true }) (td := td)
  else d

/-- HOLDOVER_EXTENDED (R345). -/
def execHoldoverExtended (time : Nat) (td : Fin 6) (s : State) : Host.Outcome State Fault Refusal := after time (holdoverLong td) s

end Sys2Proof.Machine
end

