-- ==== Sys2Proof/Machine/Outputs.lean ====
section
/-! DEFINITION. How engines fill the slots of an output ring, and the frame record of a slot (R223, R224, Table 8.5). -/

namespace Sys2Proof.Machine

/-- The ring's next slot is taken when no consumer holds it; otherwise the frame is skipped and counted (R224). -/
def OutRing.take (depth : Nat) (r : OutRing) : Option Nat × OutRing :=
  if (r.held r.next).isEmpty then (some r.next, { r with next := (r.next + 1) % max 1 depth })
  else (none, { r with skippedBefore := min (r.skippedBefore + 1) (2 ^ 32 - 1), skipsSinceEvent := r.skipsSinceEvent + 1
                       skips := min (r.skips + 1) (2 ^ 32 - 1) })

/-- A slot is complete: the ring's latest. -/
def OutRing.complete (slot frame epoch : Nat) (r : OutRing) : OutRing :=
  { r with lastSlot := some slot, lastFrame := frame, lastEpoch := epoch, skippedBefore := 0 }

/-- The record of a picture slot (Table 8.5), with the SDI input's bytes 72 to 76 (R331). -/
structure SlotRecord where
  frame : Nat := 0
  branch : Nat := 0
  format : Nat := 0
  flags : Nat := 0
  epoch : Nat := 0
  domain : Nat := 5
  sofSeconds : Nat := 0
  sofNs : Nat := 0
  doneStamp : Nat := 0
  rowsComplete : Nat := 0
  concealed : Nat := 0
  skippedBefore : Nat := 0
  width : Nat := 0
  height : Nat := 0
  payloadId : Nat := 0
  input : Nat := 0
  deriving DecidableEq, Repr, Inhabited

/-- The record's bytes. -/
def SlotRecord.bytes (r : SlotRecord) : List Byte :=
  le 8 r.frame ++ le 2 r.branch ++ le 1 r.format ++ le 1 0 ++ le 4 r.flags ++ le 4 r.epoch ++ le 1 r.domain ++ le 3 0
    ++ le 6 r.sofSeconds ++ le 2 0 ++ le 4 r.sofNs ++ le 4 r.doneStamp ++ le 2 r.rowsComplete ++ le 2 0 ++ le 4 r.concealed
    ++ le 4 r.skippedBefore ++ le 2 r.width ++ le 2 r.height
    ++ (List.range 3).flatMap (fun p => le 4 (if p < formatPlanes r.format then formatOffset r.format r.width r.height p else 0))
    ++ le 4 (formatStride r.format r.width) ++ le 4 r.payloadId ++ le 1 r.input ++ List.replicate 51 0

/-- Where slot `n` of a picture ring starts. -/
def pictureSlot (format w h n : Nat) : Nat := n * formatSlot format w h

/-- Writes a slot's record. -/
def writeRecord (pail slot : Nat) (r : SlotRecord) (d : Dev) : Dev :=
  pailWrite pail (pictureSlot r.format r.width r.height slot) r.bytes d

end Sys2Proof.Machine
end

