-- ==== Sys2Proof/Machine/NetCmd.lean ====
section
/-! DEFINITION. Area 0x0C: the commands of the network engine (R358 to R372, Tables 15.1 to 15.5). -/

namespace Sys2Proof.Machine

/-- The flow an object ID names, by its key: senders 0–63, receivers 64–127. -/
def flowKey (o : Nat) : Nat := objIndex o

/-- A field that names an existing flow. -/
def flowField (d : Dev) (b : List Byte) (o : Nat) : Nat × Bool :=
  (o, objIs 0x8 (u16 b o) && (mapGet d.net.flows (flowKey (u16 b o))).isSome)

/-- The flow named at offset 0. -/
def Ctx.flow (c : Ctx) (d : Dev) : Flow := (mapGet d.net.flows (flowKey (u16 c.b 0))).getD {}

/-- A flow uses a port. -/
def Flow.onPort (f : Flow) (p : Nat) : Bool := f.config.macA = p || (f.config.dual && f.config.macB = p)

/-- LINK_STATE (Table 15.6). -/
def linkState (port : Nat) (up : Bool) (speed : Nat) (d : Dev) : Dev :=
  raise 0x0C84 (if up then 1 else 2) 0 [byte port, byte (boolNat up), byte speed] d

/-- MAC_CONFIG (R358, R359, Table 15.3). A port that changes its speed loses its link first. -/
def specMacConfig : CmdSpec where
  op := 0x0C00
  length := fixed 36
  ranges := fun _ b => [rng b 0 1 0 4, rng b 1 1 0 5, rng b 2 1 0 2, zeroAt b 3 1, rng b 4 2 1500 9000, rng b 6 2 0 4094, rng b 12 1 0 32,
    rng b 13 1 0 128, zeroAt b 14 2]
  combos := fun _ c =>
    let b := c.b
    let p := u8 b 0
    let s := u8 b 1
    comboCheck [bad (if p = 4 then s ≠ 0 && s ≠ 5 else s = 5) 1, bad ((s = 3 || s = 4) && u8 b 2 ≠ 2) 2, bad (p = 4 && u16 b 4 ≠ 1500) 4]
  against := fun d c => if d.net.flows.any fun e => e.2.running && e.2.onPort (u8 c.b 0) then some (.busy 3) else none
  act := fun c d =>
    let b := c.b
    let p := u8 b 0
    let old := tabGet d.net.ports p
    let drop : Bool := old.link && old.speed ≠ u8 b 1
    let d := d.onNet fun n => { n with ports := tabMod n.ports p fun x =>
      { x with speed := u8 b 1, fec := u8 b 2, mtu := u16 b 4, vlan := u16 b 6, ipv4 := beAt b 8 4, ipv4Prefix := u8 b 12, ipv6Prefix := u8 b 13
               ipv6 := beAt b 16 16, gateway := beAt b 32 4, link := x.link && !drop } }
    (if drop then linkState p false (u8 b 1) d else d, some .ok)

/-! ## Creation -/

/-- Reads Table 15.4. -/
def readFlow (b : List Byte) : FlowConfig :=
  let f := u8 b 1
  { essence := u8 b 0, dual := bit f 0, ipv6 := bit f 1, bpm := bit f 2, ssm := bit f 3, macA := u8 b 2, macB := u8 b 3, domain := u8 b 4
    pcpOrDepth := u8 b 5, dscp := u8 b 6, payloadType := u8 b 7, ssrc := u32 b 8, port := u16 b 12, maxPayload := u16 b 14
    addrA := beAt b 16 16, addrB := beAt b 32 16, sourceFilter := beAt b 48 16, delay := u32 b 64, ractiveNum := u16 b 68, ractiveDen := u16 b 70
    channels := u8 b 72, audioFormat := u8 b 73, videoFormat := u8 b 74, width := u16 b 76, height := u16 b 78, periodNs := u32 b 80, pail := u32 b 84 }

/-- Range checks that senders and receivers share. -/
def flowRanges (d : Dev) (b : List Byte) : List (Nat × Bool) :=
  [rng b 0 1 0 3, flagBits b 1 1 4, rng b 2 1 0 3, chk 3 (u8 b 3 ≤ 3 || u8 b 3 = 0xFF), rng b 4 1 0 5, rng b 12 2 1 65535, rng b 14 2 256 8952,
   rng b 72 1 0 16, flagBits b 73 1 3, chk 74 (u8 b 74 = 0 || u8 b 74 ∈ [0x10, 0x11, 0x30, 0x31]), zeroAt b 75 1,
   chk 80 (u32 b 80 = 0 || within (u32 b 80) 500000 2000000000), handle0 d b 84]

/-- Combination checks that senders and receivers share: the second port, and audio channels. -/
def flowCombos (c : FlowConfig) : List (Bool × Nat) :=
  [bad (if c.dual then c.macB = 0xFF || c.macB = c.macA else c.macB ≠ 0xFF) 3, bad (c.essence = 2 && c.channels = 0) 72]

/-- The first free key among 64. -/
def newFlow (d : Dev) (base : Nat) : Option Nat := ((List.range 64).map (base + ·)).find? fun k => (mapGet d.net.flows k).isNone

/-- A flow is created for a session; none is left when 64 exist. -/
def createFlow (base : Nat) (c : Ctx) (d : Dev) : Dev × Option Rsp :=
  match newFlow d base with
  | none => (d, some (.noResource 8))
  | some k =>
    let o := 0x8000 + k
    let d := d.onNet fun n => { n with flows := mapSet n.flows k { config := readFlow c.b } }
    (giveOwner o c.session (clearCounters o d), some (.ok (le 2 o ++ le 2 0)))

/-- FLOW_SEND_CREATE (R363, Table 15.4). -/
def specFlowSendCreate : CmdSpec where
  op := 0x0C01
  length := fixed 88
  ranges := fun d b => flowRanges d b ++ [rng b 5 1 0 7, rng b 6 1 0 63, rng b 7 1 96 127]
  combos := fun d c =>
    let x := readFlow c.b
    let room := fun p => (tabGet d.net.ports p).mtu - (if x.ipv6 then 68 else 48)
    comboCheck (flowCombos x ++ [bad (x.ssm || (x.bpm && x.essence ≠ 0)) 1,
      bad (x.maxPayload > room x.macA || (x.dual && x.maxPayload > room x.macB)) 14, bad (x.sourceFilter ≠ 0) 48, bad (x.ractiveNum > x.ractiveDen) 70])
  act := createFlow 0

/-- Bytes that a receiver's ring takes. -/
def recvRing (x : FlowConfig) : Nat :=
  x.pcpOrDepth * (match x.essence with
    | 0 => formatSlot x.videoFormat x.width x.height
    | 3 => 4096
    | _ => 0)

/-- FLOW_RECV_CREATE (R369, Table 15.4). -/
def specFlowRecvCreate : CmdSpec where
  op := 0x0C02
  length := fixed 88
  ranges := fun d b => flowRanges d b ++ [rng b 5 1 2 16, rng b 64 4 100 1000000]
  handles := fun b => if u32 b 84 = 0 then [] else [u32 b 84]
  combos := fun d c =>
    let x := readFlow c.b
    let ring : Bool := x.essence = 0 || x.essence = 3
    comboCheck (flowCombos x ++ [bad x.bpm 1, bad (!x.ssm && x.sourceFilter ≠ 0) 48, bad (x.essence = 0 && x.videoFormat = 0) 74,
      bad (x.essence = 0 && (x.width = 0 || x.height = 0)) 76, bad (x.essence ≠ 2 && x.periodNs = 0) 80,
      bad (ring && ((livePail d x.pail).isNone || pailSize d x.pail < recvRing x)) 84])
  act := createFlow 64

/-! ## Binding -/

/-- The domain of a stream behind an encoder session's source. -/
def encoderDomain (d : Dev) (e : Encoder) : Nat := match encoderStream e with
  | some n => streamDomain d n
  | none => match mapGet d.codecs.decoders (objIndex e.xs.source) with
    | some q => q.domain
    | none => 5

/-- The rate code of a flow's media clock. -/
def flowRateCode (x : FlowConfig) : Nat := if bit x.audioFormat 0 then 4 else 2

/-- The clock generator that clocks a port is locked to a time domain (R379, R380). -/
def scgLocked (d : Dev) (p : AudioPort) (td : Nat) : Bool :=
  let g := tabGet d.audio.scgs p.config.scg
  p.config.clockMode = 0 && g.enable && g.source = td

/-- A port's samples run at a rate and carry a media-clock index in a domain, directly or through its ASRC (R389). -/
def mediaIndexed (d : Dev) (p : AudioPort) (rate td : Nat) : Bool :=
  (p.config.rate = rate && scgLocked d p td) || (p.asrc.enable && p.asrc.outRate = rate && p.config.domain = td)

/-- A sender may take a source (Table 15.2). -/
def senderSourceOk (d : Dev) (x : FlowConfig) (kind input o : Nat) : Bool :=
  match x.essence, kind with
  | 0, 0 =>
    if objIs 0x3 o then
      let b := branchSet d o
      b.configured && b.format ∈ [0x10, 0x11, 0x30, 0x31] && streamDomain d (branchOf o).1 = x.domain
        && x.ractiveDen ≠ 0 && ((d.stream (branchOf o).1).minPeriod = 0 || x.delay < (d.stream (branchOf o).1).minPeriod)
    else if objIs 0x4 o then
      let r := d.raster (objIndex o)
      r.running && r.timing.domain = x.domain && !r.outputs.isEmpty && (r.outputs.all fun p => p.sampling = 1 && p.depth ≠ 8)
        && x.ractiveNum = 0 && x.ractiveDen = 0
    else false
  | 1, 0 => match openEncoder d o with
    | some e => e.codec = 0 && e.configured && within e.xs.profile 1 4 && e.xs.pad && encoderDomain d e = x.domain && x.ractiveDen ≠ 0
    | none => false
  | 2, 0 => objIs 0x7 o && mediaIndexed d (d.port (objIndex o)) (flowRateCode x) x.domain
  | 3, 1 => (tabGet d.display.sdiIn input).enabled && (tabGet d.display.sdiIn input).domain = x.domain
  | 3, 2 => true
  | _, _ => false

/-- A receiver may feed a consumer (R369); object 0x0000 leaves it to the host. -/
def receiverConsumerOk (d : Dev) (x : FlowConfig) (kind o : Nat) : Bool :=
  if kind ≠ 0 then false
  else match x.essence with
    | 1 => o = 0 || (match openDecoder d o with
      | some q => q.codec = 0
      | none => false)
    | 2 => o = 0 || (objIs 0x7 o && mediaIndexed d (d.port (objIndex o)) (flowRateCode x) x.domain)
    | _ => o = 0 || objIs 0xB o

/-- A sender's frame in progress is dropped: its slot is let go. -/
def dropSending (k : Nat) (d : Dev) : Dev :=
  match mapGet d.net.flows k with
  | some f =>
    let d := match f.sending.bind (·.slot) with
      | some s => dropSlot f.bindObject s (0x8000 + k) d
      | none => d
    d.onFlow k fun f => { f with sending := none }
  | none => d

/-- FLOW_BIND takes effect. -/
def flowBindSettle (c : Ctx) (d : Dev) : Dev :=
  let b := c.b
  let k := flowKey (u16 b 0)
  (dropSending k d).onFlow k fun f =>
    { f with bindKind := u8 b 2, bindInput := u8 b 3, bindObject := u16 b 4, bindPail := u32 b 8, bound := true }

/-- FLOW_BIND (R363, R368, R369). -/
def specFlowBind : CmdSpec where
  op := 0x0C04
  stageable := fun _ => true
  length := fixed 12
  ranges := fun d b => [flowField d b 0, rng b 2 1 0 2, rng b 3 1 0 3, chk 4 (objOk (u16 b 4)), zeroAt b 6 2, handle0 d b 8]
  handles := fun b => if u32 b 8 = 0 then [] else [u32 b 8]
  combos := fun d c =>
    let b := c.b
    let kind := u8 b 2
    comboCheck [bad (kind ≠ 1 && u8 b 3 ≠ 0) 3, bad (kind ≠ 0 && u16 b 4 ≠ 0) 4,
      bad (if kind = 2 then pailSize d (u32 b 8) < 4096 else u32 b 8 ≠ 0) 8]
  targets := fun _ b => [u16 b 0]
  against := fun d c =>
    let b := c.b
    let x := (c.flow d).config
    let ok := if flowKey (u16 b 0) < 64 then senderSourceOk d x (u8 b 2) (u8 b 3) (u16 b 4) else receiverConsumerOk d x (u8 b 2) (u16 b 4)
    comboCheck [bad (!ok) 2]
  settle := flowBindSettle

/-! ## Start, stop, delete, query -/

/-- The first frame of a stream after now, from its latest SOF and its declared period. -/
def nextSofTime (d : Dev) (n : Nat) : Option Nat :=
  match (d.stream n).lastSof with
  | some s =>
    let p := (d.stream n).minPeriod
    if p = 0 then none else some (s + ceilDiv (domainNow d (streamDomain d n) - s) p * p)
  | none => none

/-- When a flow's first packet leaves, in ns of its domain: a time the manual gives no way to know is a free value. A
receiver closes its first frame after a packet arrives, which none has yet. -/
def firstLaunch (d : Dev) (k : Nat) (f : Flow) : Nat :=
  let free := Config.freeTime d.free
  let x := f.config
  if k ≥ 64 then free
  else match x.essence with
    | 0 => if objType f.bindObject = 0x4 then
        let r := d.raster (objIndex f.bindObject)
        ((r.startOf (r.frame + 1) : Rat) + r.timing.out 0).floor.toNat
      else ((nextSofTime d (branchOf f.bindObject).1).map (· + x.delay)).getD free
    | 1 => match mapGet d.codecs.encoders (objIndex f.bindObject) with
      | some e => match encoderStream e with
        | some n => ((nextSofTime d n).map (· + x.delay)).getD free
        | none => free
      | none => free
    | 3 => if f.bindKind = 2 then nextGrid d x.domain (domainNow d x.domain) + x.delay else free
    | _ => free

/-- A flow starts. -/
def startFlow (k : Nat) (d : Dev) : Dev :=
  let lc : Bool := match mapGet d.net.flows k with
    | some f => k < 64 && f.config.essence = 0 && objType f.bindObject = 0x3 && (branchSet d f.bindObject).cls = 0
        && (match furrowOf d (branchOf f.bindObject).1 with
          | some (i, _) => !(d.furrow i).deliveredSinceStart
          | none => false)
    | none => false
  let newest := match mapGet d.net.flows k with
    | some f => (ringOf d f.bindObject).lastFrame
    | none => 0
  d.onFlow k fun f =>
    { f with running := true, stopping := false, startedAt := d.now, sending := none, receiving := [], lastClosed := none, seqKnown := k < 64
             held := none, seen := [], lastPathA := some d.now, lastPathB := some d.now, lostA := false, lostB := false, lineCheck := lc
             ancFrame := 0, frames := if k < 64 then newest else 0 }

/-- FLOW_START (R362). A sender that names no source, and a flow that runs, cannot start. -/
def specFlowStart : CmdSpec where
  op := 0x0C05
  stageable := fun _ => true
  length := fixed 4
  ranges := fun d b => [flowField d b 0, zeroAt b 2 2]
  targets := fun _ b => [u16 b 0]
  against := fun d c =>
    let f := c.flow d
    if f.running then some (.busy 3) else if flowKey (u16 c.b 0) < 64 && !f.bound then some (.combination 0) else none
  settle := fun c d => startFlow (flowKey (u16 c.b 0)) d
  own := fun c d => fullTimeBytes (fullTime (firstLaunch d (flowKey (u16 c.b 0)) (c.flow d)))

/-- A flow stops at once. -/
def haltFlow (k : Nat) (d : Dev) : Dev :=
  (dropSending k d).onFlow k fun f => { f with running := false, stopping := false, receiving := [], lineCheck := false }

/-- FLOW_STOP takes effect (R367): after the frame in progress, or at once. -/
def stopFlow (k mode : Nat) (d : Dev) : Dev :=
  match mapGet d.net.flows k with
  | some f => if f.running && mode = 0 && (f.sending.isSome || !f.receiving.isEmpty) then d.onFlow k fun f => { f with stopping := true }
      else haltFlow k d
  | none => d

/-- FLOW_STOP. -/
def specFlowStop : CmdSpec where
  op := 0x0C06
  stageable := fun _ => true
  length := fixed 4
  ranges := fun d b => [flowField d b 0, rng b 2 1 0 1, zeroAt b 3 1]
  targets := fun _ b => [u16 b 0]
  settle := fun c d => stopFlow (flowKey (u16 c.b 0)) (u8 c.b 2) d

/-- A flow no longer exists; slots of a receiver's ring that a consumer holds keep its pail (Table 18.3). -/
def deleteFlow (k : Nat) (d : Dev) : Dev :=
  let kept := match mapGet d.net.flows k with
    | some f => if k < 64 then [] else (f.ring.replace f.config.pail).retiring
    | none => []
  dropOwner (0x8000 + k) ((haltFlow k d).onNet fun n => { n with flows := mapDel n.flows k, gone := n.gone ++ kept })

/-- FLOW_DELETE: a running flow is stopped first. -/
def specFlowDelete : CmdSpec where
  op := 0x0C03
  length := fixed 4
  ranges := fun d b => [flowField d b 0, zeroAt b 2 2]
  targets := fun _ b => [u16 b 0]
  act := fun c d => (deleteFlow (flowKey (u16 c.b 0)) d, some .ok)

/-- FLOW_QUERY: state 0 stopped, 1 running (DESIGN CHOICE: the manual names no codes). -/
def specFlowQuery : CmdSpec where
  op := 0x0C07
  length := fixed 4
  ranges := fun d b => [flowField d b 0, zeroAt b 2 2]
  act := fun c d =>
    let f := c.flow d
    (d, some (.ok (le 1 (boolNat f.running) ++ le 3 0 ++ le 4 f.extSeq ++ (List.range 8).flatMap fun k => le 4 (counterOf d (u16 c.b 0) k))))

/-- UDP_CONTROL_SET (R360). -/
def specUdpControlSet : CmdSpec where
  op := 0x0C08
  length := fixed 24
  ranges := fun _ b => [flagBits b 0 1 5, zeroAt b 1 1, rng b 20 1 0 128, zeroAt b 21 3]
  act := fun c d =>
    (d.onUdp fun u => { u with ports := u8 c.b 0, udpPort := u16 c.b 2, filterAddr := beAt c.b 4 16, filterPrefix := u8 c.b 20 }, some .ok)

end Sys2Proof.Machine
end

