-- ==== Sys2Proof/Machine/AudioCmd.lean ====
section
/-! DEFINITION. Area 0x0D: the commands of the serial audio ports and sample clocks (R373 to R391, Tables 16.1 to 16.5). -/

namespace Sys2Proof.Machine

/-- The port a command names at offset 0. -/
def Ctx.portIx (c : Ctx) : Nat := objIndex (u16 c.b 0)

/-- An audio port's object ID. -/
def portObj (p : Nat) : Nat := 0x7000 + p

/-- A port is enabled. -/
def AudioPort.on (p : AudioPort) : Bool := p.state ≠ .disabled

/-- Reads SAP_CONFIG (Table 16.4). -/
def readSap (b : List Byte) : SapConfig :=
  let f := u8 b 9
  { direction := u8 b 2, format := u8 b 3, clockMode := u8 b 4, scg := u8 b 5, slots := u8 b 6, slotWidth := u8 b 7, sampleBits := u8 b 8
    bclkInv := bit f 0, fsInv := bit f 1, tdmDelay := bit f 2, autoRestart := bit f 3, rate := u8 b 10, domain := u8 b 11, sourceKind := u8 b 12
    sourceIndex := u8 b 13, latency := u16 b 14, pail := u32 b 16, depth := u32 b 20 }

/-- The media-clock count of a rate at a domain's time (R379). -/
def mediaCount (d : Dev) (td rate : Nat) : Nat := domainNow d td * rateHz rate / 1000000000

/-- SAP_MUTED (Table 16.6). -/
def sapMuted (p reason : Nat) (unmuted : Bool) (d : Dev) : Dev :=
  raise 0x0D83 2 (portObj p) (le 2 (portObj p) ++ le 1 reason ++ le 1 (boolNat unmuted)) d (td := (d.port p).config.domain)

/-- ASRC_STATE when an ASRC's state changes. -/
def setAsrc (p new ratio : Nat) (d : Dev) : Dev :=
  let old := (d.port p).asrc.state
  let d := d.onPort p fun x => { x with asrc := { x.asrc with state := new, ratio } }
  if old = new then d
  else raise 0x0D82 1 (portObj p) (le 2 (portObj p) ++ le 1 new ++ le 1 0 ++ le 4 ratio) d (td := (d.port p).config.domain)

/-- The nominal conversion ratio of a port in 2^−30, held in 0.5 to 2.0 (R382). -/
def nominalRatio (s : SapConfig) (out : Nat) : Nat :=
  let i := if s.direction = 1 then rateHz s.rate else rateHz out
  let o := if s.direction = 1 then rateHz out else rateHz s.rate
  clampNat ((i * 2 ^ 30 + o / 2) / o) (2 ^ 29) (2 ^ 31)

/-- SAP_CONFIG takes effect: an enabled port starts, its index from the media clock or from 0 at its first FS edge. -/
def sapConfigAct (c : Ctx) (d : Dev) : Dev :=
  let p := c.portIx
  let n := readSap c.b
  let muted : Bool := (d.port p).state = .muted
  let why := boolNat (!(d.port p).ref.lost)
  let d := d.onPort p fun x =>
    { x with config := n, state := if n.direction = 0 then .disabled else .running, sampleIndex := 0, startCount := 0, ref := {}
             leaving := if x.config.pail ≠ 0 then x.config.pail else x.leaving
             flushed := false, zeroed := 0, measuredMilliHz := 0, offsetPpb := 0, ring := [], slip := 0, slotsOut := [] }
  let d := if n.direction ≠ 0 && (d.port p).asrc.enable then setAsrc p 1 (nominalRatio n (d.port p).asrc.outRate) d else d
  if muted && n.direction ≠ 0 then sapMuted p why true d else d

/-- SAP_CONFIG (R374, R377, R379, R390, Table 16.4). -/
def specSapConfig : CmdSpec where
  op := 0x0D00
  length := fixed 24
  ranges := fun d b => [obj b 0 0x7, rng b 2 1 0 3, rng b 3 1 0 2, rng b 4 1 0 1, rng b 5 1 0 3, chk 6 (u8 b 6 ∈ [2, 4, 8, 16]),
    chk 7 (u8 b 7 ∈ [16, 24, 32]), chk 8 (u8 b 8 ∈ [16, 20, 24, 32]), flagBits b 9 1 4, rng b 10 1 0 6, rng b 11 1 0 5, rng b 12 1 0 4,
    rng b 13 1 0 15, chk 14 (u16 b 14 = 0 || within (u16 b 14) 2 4096), handle0 d b 16,
    chk 20 (u32 b 20 = 0 || u32 b 20 ∈ [1024, 2048, 4096, 8192, 16384, 32768, 65536])]
  handles := fun b => if u32 b 16 = 0 then [] else [u32 b 16]
  combos := fun d c =>
    let s := readSap c.b
    let on : Bool := s.direction ≠ 0
    comboCheck [bad (s.clockMode = 1 && s.scg ≠ 0) 5, bad (s.format ≠ 2 && s.slots ≠ 2) 6,
      bad (s.slots * s.slotWidth * rateHz s.rate > 24576000) 6, bad (s.sampleBits > s.slotWidth) 8,
      bad (on && ((s.sourceKind == 0) != (s.direction == 1))) 12,
      bad ((s.sourceKind = 2 && s.sourceIndex > 3) || (s.sourceKind ∉ [1, 2] && s.sourceIndex ≠ 0)) 13,
      bad (on && ((s.latency == 0) != (s.direction == 1))) 14,
      bad ((s.sourceKind = 4 && s.pail = 0) || (s.pail ≠ 0 && s.sourceKind ≠ 4 && s.direction ≠ 1)) 16,
      bad (((s.pail == 0) != (s.depth == 0)) || (s.pail ≠ 0 && pailSize d s.pail < s.depth * 64)) 20]
  targets := fun _ b => [u16 b 0]
  against := fun d c => if (d.port c.portIx).group.isSome && u8 c.b 2 ≠ 0 then some (.busy 3) else none
  act := fun c d => (sapConfigAct c d, some .ok)

/-- SAP_SLOT_MAP (R378): it applies at the port's next FS edge. -/
def specSapSlotMap : CmdSpec where
  op := 0x0D01
  stageable := fun _ => true
  length := counted 3 fun b => 4 + 2 * u8 b 2
  ranges := fun _ b => [obj b 0 0x7, rng b 2 1 1 16, zeroAt b 3 1] ++ eachRec 4 2 (u8 b 2) fun o =>
    [rng b o 1 0 15, chk (o + 1) (u8 b (o + 1) ≤ 15 || u8 b (o + 1) = 0xFF)]
  targets := fun _ b => [u16 b 0]
  settle := fun c d => d.onPort c.portIx fun p =>
    { p with pendingMap := some ((List.range (u8 c.b 2)).foldl (fun m i => m.set (u8 c.b (4 + 2 * i)) (u8 c.b (5 + 2 * i)))
        (p.pendingMap.getD p.slotMap)) }

/-- What the members of a frame-clock group have in common (R384). -/
def SapConfig.frameClock (s : SapConfig) : List Nat := [s.format, s.rate, s.slots, s.slotWidth, s.domain]

/-- The members share their frame clock in one of the two ways of R384. -/
def clocksShared (d : Dev) (leader : Nat) (m : List Nat) : Bool :=
  let cfg := fun i => (d.port i).config
  (m.all fun i => (cfg i).clockMode = 0 && (cfg i).scg = (cfg leader).scg) || (m.all fun i => i = leader || (cfg i).clockMode = 1)

/-- SAP_GROUP_SET (R384, R390). -/
def specSapGroupSet : CmdSpec where
  op := 0x0D02
  length := fixed 4
  ranges := fun _ b => [rng b 0 1 0 7, rng b 1 1 0 15]
  combos := fun d c =>
    let m := maskBits (u16 c.b 2) 16
    let l := u8 c.b 1
    if m.isEmpty then none
    else comboCheck [bad (m.length < 2 || l ∉ m) 2, bad (m.any fun i => (d.port i).config.frameClock ≠ (d.port l).config.frameClock) 2,
      bad (!clocksShared d l m) 2, bad (m.any fun i => match (d.port i).group with
        | some g => g ≠ u8 c.b 0
        | none => false) 2]
  targets := fun d b => (maskBits (u16 b 2 ||| (tabGet d.audio.groups (u8 b 0)).members) 16).map portObj
  against := fun d c => if (maskBits (u16 c.b 2) 16).any fun i => (d.port i).on then some (.busy 3) else none
  act := fun c d =>
    let g := u8 c.b 0
    let m := u16 c.b 2
    let join := fun (e : Nat × AudioPort) =>
      if bit m e.1 then { e.2 with group := some g } else if e.2.group = some g then { e.2 with group := none } else e.2
    (d.onAudio fun a => { a with groups := tabMod a.groups g fun _ => { leader := u8 c.b 1, members := m }, ports := (indexed a.ports).map join },
     some .ok)

/-- The frequency in mHz that a divider of TIME_REFCLK with a resolution of 2^−32 makes for a nominal one (R380). -/
def dividerMilliHz (hz : Nat) : Nat :=
  let q := (hz * 2 ^ 32 + 12500000) / 25000000
  (q * 25000000 * 1000 + 2 ^ 31) / 2 ^ 32

/-- SAP_CLOCK_SET (R380, R390). -/
def specSapClockSet : CmdSpec where
  op := 0x0D03
  length := fixed 8
  ranges := fun _ b => [rng b 0 1 0 3, rng b 1 1 0 1, chk 2 (u8 b 2 ≤ 5 || within (u8 b 2) 0x10 0x1F), rng b 3 1 0 6, chk 4 (u16 b 4 ∈ [0, 256, 512]),
    zeroAt b 6 2]
  against := fun d c => if d.audio.ports.any fun p => p.on && p.config.clockMode = 0 && p.config.scg = u8 c.b 0 then some (.busy 3) else none
  act := fun c d =>
    let b := c.b
    let on : Bool := u8 b 1 = 1
    (d.onAudio fun a => { a with scgs := tabMod a.scgs (u8 b 0) fun _ => { enable := on, source := u8 b 2, rate := u8 b 3, mclk := u16 b 4 } },
     some (.ok (le 8 (if on then dividerMilliHz (u16 b 4 * rateHz (u8 b 3)) else 0))))

/-- ASRC_CONFIG (R382). -/
def specAsrcConfig : CmdSpec where
  op := 0x0D04
  length := fixed 8
  ranges := fun _ b => [obj b 0 0x7, rng b 2 1 0 1, rng b 3 1 0 2, rng b 4 1 0 6, zeroAt b 5 3]
  targets := fun _ b => [u16 b 0]
  act := fun c d =>
    let p := c.portIx
    let on : Bool := u8 c.b 2 = 1
    let d := d.onPort p fun x => { x with asrc := { x.asrc with enable := on, bandwidth := u8 c.b 3, outRate := u8 c.b 4 } }
    (setAsrc p (boolNat on) (nominalRatio (d.port p).config (u8 c.b 4)) d, some .ok)

/-- The time domain of the raster that drives an SDI transmitter. -/
def outputDomain (d : Dev) (o : Nat) : Option Nat :=
  (d.display.rasters.find? fun r => r.outputs.any fun x => o ∈ x.units).map fun r => r.timing.domain

/-- AUDIO_EMBED_SET (R387). -/
def specAudioEmbedSet : CmdSpec where
  op := 0x0D05
  stageable := fun _ => true
  length := fixed 16
  ranges := fun _ b => [rng b 0 1 0 0xB, rng b 1 1 0 3, rng b 2 1 0 1, zeroAt b 3 1, obj b 4 0x7, rng b 6 1 0 15, rng b 7 1 1 16, rng b 8 1 0 15,
    zeroAt b 9 3, rng b 12 4 0 100000]
  combos := fun _ c => comboCheck [bad (u8 c.b 6 + u8 c.b 7 > 16) 7, bad (u8 c.b 8 + u8 c.b 7 > 16) 8]
  targets := fun _ b => [u16 b 4]
  against := fun d c =>
    let ok : Bool := match outputDomain d (u8 c.b 0) with
      | some td => mediaIndexed d (d.port (objIndex (u16 c.b 4))) 2 td
      | none => false
    comboCheck [bad (u8 c.b 2 = 1 && !ok) 2]
  settle := fun c d =>
    let b := c.b
    let e : Embed := { output := u8 b 0, link := u8 b 1, port := objIndex (u16 b 4), first := u8 b 6, count := u8 b 7, sdiFirst := u8 b 8, delayUs := u32 b 12 }
    d.onAudio fun a =>
      let l := a.embeds.filter fun x => !(x.output = e.output && x.link = e.link && x.port = e.port && x.sdiFirst = e.sdiFirst)
      { a with embeds := if u8 b 2 = 1 then l ++ [e] else l }

/-- SAP_RESTART (R386): a running port restarts from its next FS edge. -/
def specSapRestart : CmdSpec where
  op := 0x0D06
  length := fixed 4
  ranges := fun _ b => [obj b 0 0x7, zeroAt b 2 2]
  targets := fun _ b => [u16 b 0]
  act := fun c d =>
    let again := fun (x : AudioPort) =>
      if x.state = .running then { x with state := .restarting, restartReason := 1, flushed := false, zeroed := 0 } else x
    (d.onPort c.portIx again, some .ok)

/-- The code of a port's state. -/
def PortState.code : PortState → Nat
  | .disabled => 0
  | .running => 1
  | .restarting => 2
  | .muted => 3

/-- SAP_QUERY (R379, R381, R382). -/
def specSapQuery : CmdSpec where
  op := 0x0D07
  length := fixed 4
  ranges := fun _ b => [obj b 0 0x7, zeroAt b 2 2]
  act := fun c d =>
    let p := d.port c.portIx
    (d, some (.ok (le 1 p.state.code ++ le 1 (p.group.getD 0xFF) ++ le 1 p.asrc.state ++ le 1 0 ++ le 4 p.measuredMilliHz ++ leInt 4 p.offsetPpb
      ++ le 8 p.sampleIndex ++ le 4 p.edgeStamp ++ le 4 p.asrc.ratio ++ (List.range 5).flatMap fun k => le 4 (counterOf d (u16 c.b 0) k))))

end Sys2Proof.Machine
end

