-- ==== Sys2Proof/Machine/AudioEv.lean ====
section
/-! DEFINITION. FS edges, clock checks, xruns and restarts of the audio ports (R376 to R388, Tables 16.2 and 16.6), and the
edges and stops of every checked reference input (R343). -/

namespace Sys2Proof.Machine

/-! ## Sample sources -/

/-- Sixteen channels of silence. -/
abbrev silence : List Int := List.replicate 16 0

/-- An entry of a port's channel ring (R376); a muted port gives zeros from its last valid edge on (Table 16.2). -/
def ringEntry (p : AudioPort) (n : Nat) : List Int :=
  if p.state = .muted && n > p.sampleIndex then silence else mapGetD p.ring (n % 8192) silence

/-- Where sample `n` of an embedder goes: into the first line of the raster that starts after n ÷ 48,000 + delay, as 24-bit words
(R387). -/
def embedAt (d : Dev) (e : Embed) (n : Nat) (x : List Int) : Option EmbedSent :=
  (d.display.rasters.find? fun r => r.running && r.outputs.any fun o => (e.output + e.link) ∈ o.units).map fun r =>
    let t := r.timing
    let at1 : Rat := (n : Rat) * 1000000000 / 48000 + (e.delayUs * 1000 : Nat) - (r.gridBase : Rat)
    let k := (at1 * (t.vTotal : Rat) / t.period).floor.toNat + 1
    { index := n, frame := k / max 1 t.vTotal + 1, line := k % max 1 t.vTotal
      words := (List.range e.count).map fun c => ((x.getD (e.first + c) 0 / 256) % 2 ^ 24).toNat }

/-- Stores a sample frame in a port's channel ring; the port's embedders take it. -/
def storeEntry (p n : Nat) (x : List Int) (d : Dev) : Dev :=
  let embed := fun (e : Embed) => if e.port = p then { e with sent := (embedAt d e n x).orElse fun _ => e.sent } else e
  (d.onPort p fun a => { a with ring := mapSet a.ring (n % 8192) x }).onAudio fun a => { a with embeds := a.embeds.map embed }

/-- A word of a slot as a sample: the top `bits` bits, zeros below (R375). -/
def topBits (bits : Nat) (v : Int) : Int := v / 2 ^ (32 - bits) * 2 ^ (32 - bits)

/-- The slot whose word stands in a port's slot: its own, or after an xrun without a restart another (R385). -/
def AudioPort.wordSlot (p : AudioPort) (s : Nat) : Nat := (s + p.slip) % max 1 p.config.slots

/-- Samples by slot put on the channels the slot map gives them (R378); the last slot of a channel stands. -/
def mapSlots (p : AudioPort) (samples : List Int) : List Int :=
  (List.range 16).map fun ch =>
    match (List.range p.config.slots).reverse.find? fun s => p.slotMap.getD s 0xFF = ch with
    | some s => topBits p.config.sampleBits (samples.getD (p.wordSlot s) 0)
    | none => 0

/-- What a transmit port sends in its slots for a sample frame: the assigned channels' top bits, and 0 in a slot that has none (R375,
R378). -/
def sendSlots (p : AudioPort) (frame : List Int) : List Int :=
  (List.range p.config.slots).map fun s => match p.slotMap.getD (p.wordSlot s) 0xFF with
    | 0xFF => 0
    | ch => topBits p.config.sampleBits (frame.getD ch 0)

/-- A sample frame of a host ring (R379). -/
def hostFrame (d : Dev) (s : SapConfig) (n : Nat) : List Int :=
  let bs := pailRead d s.pail (n % max 1 s.depth * 64) 64
  (List.range 16).map fun c => sfieldAt bs (4 * c) 4

/-- A sample frame as it stands in a host ring. -/
def frameBytes16 (x : List Int) : List Byte := (List.range 16).flatMap fun c => leInt 4 (x.getD c 0)

/-- A running receiver feeds a port (R377). -/
def portFed (d : Dev) (i : Nat) : Bool := d.net.flows.any fun e => e.1 ≥ 64 && e.2.running && e.2.config.essence = 2 && e.2.bindObject = portObj i

/-- What the source of transmit or internal port `i` gives for its sample `n`: the source's sample n − latency (R377, R379);
a source that does not deliver gives zeros. -/
def sourceFrame (d : Dev) (i n : Nat) (samples : List Int) : List Int :=
  let p := d.port i
  let s := p.config
  let m := n - s.latency
  match s.sourceKind with
  | 1 => if (d.port s.sourceIndex).on then ringEntry (d.port s.sourceIndex) m else silence
  | 2 => if (tabGet d.display.sdiIn s.sourceIndex).locked then (List.range 16).map fun c => samples.getD c 0 else silence
  | 3 => if portFed d i then ringEntry p m else silence
  | 4 => hostFrame d s m
  | _ => silence

/-- A converted sample frame: free values of 32 bits (R383). -/
def convertedFrame (d : Dev) : List Int × Dev :=
  let (k, d) := takeFree d
  ((List.range 16).map fun c => signed 32 ((Config.freeSample k c) % 2 ^ 32).toNat, d)

/-! ## FS edges -/

/-- The leader of a port's frame-clock group, if another port is. -/
def leaderOf (d : Dev) (i : Nat) : Option Nat := match (d.port i).group with
  | some g => let l := (tabGet d.audio.groups g).leader; if l = i then none else some l
  | none => none

/-- The index that an FS edge of a port on its own carries (R379): the media-clock count on a clock locked to a domain or through an ASRC on
a receive port, otherwise a count of edges from the start. -/
def ownIndex (d : Dev) (p : AudioPort) : Nat :=
  let g := tabGet d.audio.scgs p.config.scg
  if p.asrc.enable && p.config.direction = 1 then mediaCount d p.config.domain p.asrc.outRate
  else if p.config.clockMode = 0 && g.enable && g.source ≤ 5 then mediaCount d g.source p.config.rate
  else if p.startCount = 0 then 0 else p.sampleIndex + 1

/-- The index that an FS edge of port `i` carries: a member of a group shares its leader's, whose row comes first (R384). -/
def edgeIndex (d : Dev) (i : Nat) : Nat := match leaderOf d i with
  | some l => (d.port l).sampleIndex
  | none => ownIndex d (d.port i)

/-- SAP_XRUN, at most one a second for a port (R385). -/
def sapXrun (p cause : Nat) (d : Dev) : Dev :=
  let x := d.port p
  let d := count (portObj p) cause 1 (d.onPort p fun x => { x with xrunSince := x.xrunSince + 1 })
  let quiet : Bool := match x.xrunEvent with
    | some t => d.now < t + 1000000000
    | none => false
  if quiet then d
  else
    let n := (d.port p).xrunSince
    let d := d.onPort p fun x => { x with xrunEvent := some d.now, xrunSince := 0 }
    raise 0x0D80 2 (portObj p) (le 2 (portObj p) ++ le 1 cause ++ le 1 (boolNat x.config.autoRestart) ++ le 4 x.sampleIndex ++ le 4 n) d
      (td := x.config.domain)

/-- SAP_RESTARTED: the port resumes (R386). -/
def sapResume (p : Nat) (d : Dev) : Dev :=
  let x := d.port p
  let d := d.onPort p fun x => { x with state := .running, flushed := false, zeroed := 0, slip := 0 }
  count (portObj p) 3 1
    (raise 0x0D81 0 (portObj p) (le 2 (portObj p) ++ le 1 x.restartReason ++ le 1 0 ++ le 4 x.zeroed) d (td := x.config.domain))

/-- The restart steps that fall on an FS edge: an xrun of the sample that ends here asks for one with AUTO_RESTART; the first
edge flushes and the next resumes. Without it the port's words may from here on stand in wrong slots, by how many is a free value (R385,
R386). -/
def restartStep (p : Nat) (xrun : Option Nat) (d : Dev) : Dev :=
  let x := d.port p
  match xrun with
  | some cause =>
    let d := sapXrun p cause d
    if x.config.autoRestart && x.state = .running then
      d.onPort p fun x => { x with state := .restarting, restartReason := 0, flushed := true, zeroed := 2 }
    else
      let (k, d) := takeFree d
      d.onPort p fun x => { x with slip := Config.freeNat k 0x385 % max 1 x.config.slots }
  | none =>
    if x.state = .restarting then
      if x.flushed then sapResume p d else d.onPort p fun x => { x with flushed := true, zeroed := x.zeroed + 1 }
    else d

/-- The frame that a port puts into its channel ring for a sample, silence while muted or restarting. -/
def portFrame (p n : Nat) (samples : List Int) (d : Dev) : List Int × Dev :=
  let x := d.port p
  if x.state ≠ .running then (silence, d)
  else if x.asrc.enable && x.config.direction ≠ 3 then convertedFrame d
  else if x.config.direction = 1 then (mapSlots x samples, d)
  else (sourceFrame d p n samples, d)

/-- A sample of a port enters its channel ring, and the host ring of a receive port (R376, R379). -/
def putFrame (p n : Nat) (samples : List Int) (d : Dev) : Dev :=
  let s := (d.port p).config
  let (f, d) := portFrame p n samples d
  let d := storeEntry p n f d
  if s.direction = 1 && s.pail ≠ 0 then pailWrite s.pail (n % max 1 s.depth * 64) (frameBytes16 f) d else d

/-- The samples that an FS edge of a port completes, whose own index the edge gives as `n`: the one that ends here on a receive port, or
as many as its ASRC's rate gives since the last edge (R382), and the one that starts here on another. -/
def edgeSamples (x : AudioPort) (n : Nat) : List Nat :=
  if x.config.direction ≠ 1 then [n]
  else if x.asrc.enable then (List.range (min 8192 (n - x.sampleIndex))).map (x.sampleIndex + ·)
  else [x.sampleIndex]

/-- An FS edge of a port starts its next sample: the received sample that ends here, or the one to be sent from here, enters
the channel ring. A receiver that feeds the port fills the ring itself. -/
def fsEdge (p : Nat) (xrun : Option Nat) (samples : List Int) (d : Dev) : Dev :=
  let d := d.onPort p fun x => { x with leaving := 0 }
  let x := d.port p
  if !x.on then d
  else
    let n := edgeIndex d p
    let d := restartStep p xrun d
    let fill : Bool := !(x.config.direction = 1 && x.startCount = 0) && x.config.sourceKind ≠ 3
    let d := if fill then (edgeSamples x n).foldl (fun d j => putFrame p j samples d) d else d
    let d := d.onPort p fun x => { x with slotMap := x.pendingMap.getD x.slotMap, pendingMap := none }
    let y := d.port p
    let sent := if y.config.sourceKind = 3 then (if y.state = .running then sourceFrame d p n [] else silence) else ringEntry y n
    d.onPort p fun x =>
      { x with sampleIndex := n, startCount := x.startCount + 1, slotsOut := if x.config.direction = 2 then sendSlots x sent else []
               edgeStamp := if n % 64 = 0 then shortStamp (domainNow d x.config.domain) else x.edgeStamp }

/-- SAP_FS_EDGE (R379). -/
def execSapFsEdge (time : Nat) (port : Fin 16) (xrun : Option Nat) (samples : List Int) (s : State) : Host.Outcome State Fault Refusal :=
  after time (fsEdge port xrun samples) s

/-- A 1 s window of a port ends (R381, R382). The ASRC is locked while its ratio stays within 1 ppm. -/
def fsMeasure (p milliHz : Nat) (d : Dev) : Dev :=
  let x := d.port p
  if !x.on then d
  else
    let nom := rateHz x.config.rate * 1000
    let d := d.onPort p fun x =>
      { x with measuredMilliHz := milliHz, offsetPpb := ((milliHz : Int) - (nom : Int)) * 1000000000 / (nom : Int) }
    if !x.asrc.enable || x.ref.lost then d
    else
      let o : Nat := rateHz x.asrc.outRate * 1000
      let ratio : Nat := if x.config.direction = 1 then (milliHz * 2 ^ 30 + o / 2) / o else (o * 2 ^ 30 + milliHz / 2) / max 1 milliHz
      setAsrc p (if nearTo (ratio : Rat) (x.asrc.ratio : Rat) 1 1000000 then 2 else 1) (clampNat ratio (2 ^ 29) (2 ^ 31)) d

/-- SAP_FS_MEASURE (R381). -/
def execSapFsMeasure (time : Nat) (port : Fin 16) (milliHz : Nat) (s : State) : Host.Outcome State Fault Refusal :=
  after time (fsMeasure port milliHz) s

/-! ## Clock findings (Table 16.2) -/

/-- REF_STATE of a port's clock input. -/
def portRef (p : Nat) (valid : Bool) (d : Dev) : Dev :=
  raise 0x0B86 (if valid then 1 else 2) (portObj p) [byte (0x10 + p), byte (boolNat valid)] d (td := (d.port p).config.domain)

/-- A port is muted for a reason. -/
def mutePort (p reason : Nat) (d : Dev) : Dev :=
  if (d.port p).state = .muted then d else sapMuted p reason false (d.onPort p fun x => { x with state := .muted })

/-- The conversion ratio of a measured FS period stays in 0.5 to 2.0 (Table 16.2); `sum8` is the sum of 8 periods in ns. -/
def ratioInRange (x : AudioPort) (sum8 : Nat) : Bool :=
  let f : Rat := 8000000000 / ((max 1 sum8 : Nat) : Rat)
  let o : Rat := (rateHz x.asrc.outRate : Rat)
  let r := if x.config.direction = 1 then f / o else o / f
  1 / 2 ≤ r && r ≤ 2

/-- An FS edge of a target-mode port is checked. -/
def portEdge (p : Nat) (d : Dev) : Dev :=
  let x := d.port p
  if !x.on || x.config.clockMode = 0 then d
  else
    let per : Rat := 1000000000 / (rateHz x.config.rate : Rat)
    let (r, v) := checkEdge per d.now x.ref
    let d := d.onPort p fun x => { x with ref := r }
    let d := if v.glitch then count (portObj p) 4 1 d else d
    let d := if v.rateChanged then
        let d := raise 0x0B82 2 (portObj p) (le 1 (0x10 + p) ++ le 1 0 ++ le 4 (rep32 per) ++ le 4 ((r.measured + 4) / 8)) d (td := x.config.domain)
        if x.asrc.enable && ratioInRange x r.measured then setAsrc p 1 x.asrc.ratio d else mutePort p 1 d
      else d
    if v.returned then
      let muted : Bool := x.state = .muted
      let d := (portRef p true d).onPort p fun x => { x with state := .restarting, restartReason := 2, flushed := false, zeroed := 0 }
      let d := if x.asrc.state = 3 then setAsrc p 1 x.asrc.ratio d else d
      if muted then sapMuted p (boolNat (!x.ref.lost)) true d else d
    else d

/-- A port's clock has stopped. -/
def portStop (p : Nat) (d : Dev) : Dev :=
  let x := d.port p
  let per : Rat := 1000000000 / (rateHz x.config.rate : Rat)
  if !x.on || x.config.clockMode = 0 || !edgeStopped per d.now x.ref then d
  else
    let d := portRef p false (d.onPort p fun x => { x with ref := stopInput x.ref })
    let d := if x.asrc.enable then setAsrc p 3 x.asrc.ratio d else d
    mutePort p 0 d

/-- No valid edge for 4 × P (R343). -/
def referenceStop (i : RefIn) (d : Dev) : Dev :=
  match i with
  | .genlockH => genlockStop true d
  | .genlockF => genlockStop false d
  | .ltcIn => ltcStop d
  | .audio p => portStop p d

/-- REFERENCE_STOP_TIMEOUT (R343). -/
def execReferenceStopTimeout (time : Nat) (input : RefIn) (s : State) : Host.Outcome State Fault Refusal := after time (referenceStop input) s

end Sys2Proof.Machine
end

