-- ==== Sys2Proof/Machine/PailCmd.lean ====
section
/-! DEFINITION. Area 0x0E: the commands of pails (R416 to R430, Tables 18.4, 18.5, 18.8 and 18.9),
and the events that finish an import, a free and zeroing. -/

namespace Sys2Proof.Machine

/-- POOL's demand as pages of internal pails (R38, R423). -/
def syncInternal (d : Dev) : Dev := let n := (loadOf d).dem.pool; d.onPails fun t => { t with internal := n }

/-- A well-formed handle whose index has held a pail (R416, R430). -/
def knownHandle (d : Dev) (h : Nat) : Bool :=
  1 ≤ h % 2 ^ 24 && h % 2 ^ 24 ≤ 0xFFFF && 1 ≤ h / 2 ^ 24 && (mapGet d.pails.generations (h % 2 ^ 24)).isSome

/-- The reply of a pail that was made (Table 18.4). -/
def pailReply (d : Dev) (i : Nat) : List Byte :=
  let p := (mapGet d.pails.table i).getD {}
  le 4 (pailHandle i p.gen) ++ le 4 0 ++ le 8 p.dva ++ le 8 p.size

/-- NO_RESOURCE with the parameters of Table 18.4. -/
def pailNoResource (required free zeroing : Nat) : Rsp := .noResource 9 (le 8 required ++ le 8 free ++ le 8 zeroing)

/-- A new pail for a session. -/
def makePail (i session : Nat) (p : Pail) (d : Dev) : Dev := giveOwner (pailKey i) session (addPail i p d)

/-- PAIL_ALLOC (R417, R420, R423, Table 18.8). -/
def specPailAlloc : CmdSpec where
  op := 0x0E00
  length := fixed 16
  ranges := fun _ b => [rng b 0 8 65536 73014444032, flagBits b 8 2 1, zeroAt b 10 6]
  act := fun c d =>
    let large := bit (u16 c.b 8) 0
    let size := roundUp (u64 c.b 0) (if large then 0x200000 else 0x10000)
    match newPailIndex d, allocPages d size large with
    | some i, some l =>
      let d := makePail i c.session { large, size, pages := l } d
      (d, some (.ok (pailReply d i)))
    | _, _ => (d, some (pailNoResource size (poolFree d) (zeroingPending d)))

/-- The page list of an import in host memory. -/
def pageList (d : Dev) (addr n : Nat) : List Nat := (List.range n).map fun k => unle (memRead d.pails.hostMem (addr + 8 * k) 8)

/-- Every page is 64 KiB-aligned. -/
def pagesOk (l : List Nat) : Bool := l.all fun a => a % 0x10000 = 0

/-- Bytes that host pails may map in all (R424). -/
abbrev hostLimit : Nat := 2 ^ 40

/-- PAIL_IMPORT_HOST (R424, Table 18.9): above 4,096 entries the list is read after a PENDING reply. -/
def specPailImportHost : CmdSpec where
  op := 0x0E01
  length := fixed 24
  ranges := fun _ b => [chk 0 (within (u64 b 0) 65536 68719476736 && u64 b 0 % 65536 = 0), chk 8 (u64 b 8 % 8 = 0), flagBits b 16 2 3, zeroAt b 18 6]
  against := fun d c =>
    let size := u64 c.b 0
    let n := size / 65536
    if (newPailIndex d).isNone || hostMapped d + size > hostLimit then some (pailNoResource size (hostLimit - hostMapped d) 0)
    else if n ≤ 4096 && (c.listFailed || !pagesOk (pageList d (u64 c.b 8) n)) then some (.combination 8)
    else none
  act := fun c d =>
    let size := u64 c.b 0
    let n := size / 65536
    let f := u16 c.b 16
    match newPailIndex d with
    | none => (d, some (pailNoResource size (hostLimit - hostMapped d) 0))
    | some i =>
      let p : Pail := { host := true, size, readOnly := bit f 0, noSnoop := bit f 1, relaxed := bit f 2, writable := !bit f 0 }
      if n ≤ 4096 then
        let d := makePail i c.session { p with pages := pageList d (u64 c.b 8) n } d
        (d, some (.ok (pailReply d i)))
      else
        let d := makePail i c.session { p with importing := some (c.pending, u64 c.b 8) } d
        (d, some (.pending (pailReply d i)))

/-- PAIL_FREE (R427). -/
def specPailFree : CmdSpec where
  op := 0x0E02
  length := fixed 4
  ranges := fun d b => [handle d b 0]
  handles := fun b => [u32 b 0]
  targets := fun _ b => [pailKey (u32 b 0 % 2 ^ 24)]
  act := fun c d =>
    let h := u32 c.b 0
    let refs := pailRefs d h
    (freePail (h % 2 ^ 24) d, some (.ok (le 1 (boolNat (refs ≠ 0)) ++ le 3 0 ++ le 4 refs)))

/-- PAIL_QUERY of the device. -/
def pailDeviceQuery (d : Dev) : List Byte :=
  le 4 d.pails.table.length ++ le 4 (d.pails.table.countP fun e => e.2.withering) ++ le 8 (poolFree d) ++ le 8 (zeroingPending d) ++ le 8 (hostMapped d)
    ++ le 4 d.pails.faults

/-- PAIL_QUERY of a handle; a retired one is withering or gone (R430). -/
def pailHandleQuery (d : Dev) (h : Nat) : List Byte :=
  match mappedPail d h with
  | some (i, p) =>
    le 1 (boolNat p.withering) ++ le 1 (boolNat p.host) ++ le 1 (boolNat p.large) ++ le 1 0 ++ le 2 (ownerObj (keyOwner d (pailKey i))) ++ le 2 0
      ++ le 8 p.dva ++ le 8 p.size ++ le 4 (pailRefs d h) ++ le 4 (counterOf d (pailKey i) 0)
  | none => le 1 2 ++ le 3 0 ++ le 2 noSession ++ le 2 0 ++ le 8 0 ++ le 8 0 ++ le 4 0 ++ le 4 0

/-- PAIL_QUERY. -/
def specPailQuery : CmdSpec where
  op := 0x0E03
  length := fixed 4
  ranges := fun d b => [chk 0 (u32 b 0 = 0 || knownHandle d (u32 b 0))]
  handles := fun b => if u32 b 0 = 0 then [] else [u32 b 0]
  act := fun c d => (d, some (.ok (if u32 c.b 0 = 0 then pailDeviceQuery d else pailHandleQuery d (u32 c.b 0))))

/-- PAIL_MAP (R422); withering handles are accepted. -/
def specPailMap : CmdSpec where
  op := 0x0E04
  length := fixed 12
  ranges := fun d b => [chk 0 (mappedPail d (u32 b 0)).isSome, chk 4 (match mappedPail d (u32 b 0) with
      | some (_, p) => u64 b 4 < p.size
      | none => true)]
  handles := fun b => [u32 b 0]
  act := fun c d =>
    let (_, p) := (mappedPail d (u32 c.b 0)).getD (0, {})
    let off := u64 c.b 4
    let entry := (pageEntry d (p.dva + off)).getD 0
    (d, some (.ok (le 8 (p.dva + off) ++ le 8 (entryAddr entry + off % p.pageSize) ++ le 1 (boolNat p.large) ++ le 1 (boolNat (bit entry 3)) ++ le 2 0)))

/-! ## Events -/

/-- PAIL_UNMAP: a withering pail whose last reference has dropped is unmapped and freed (R429). -/
def pailUnmap (h : Nat) (d : Dev) : Dev :=
  match mappedPail d h with
  | some (i, p) => if p.withering && pailRefs d h = 0 then unmapPail i d else d
  | none => d

/-- PAIL_UNMAP. -/
def execPailUnmap (time handle : Nat) (s : State) : Host.Outcome State Fault Refusal := after time (pailUnmap handle) s

/-- A pending import finishes: its list is read and checked (R424). A failure retires the handle and leaves no pail. -/
def importListRead (h : Nat) (failed : Bool) (d : Dev) : Dev :=
  match mappedPail d h with
  | some (i, p) => match p.importing with
    | some (cmd, addr) =>
      let l := pageList d addr (p.size / 65536)
      if failed || !pagesOk l then
        let d := dropOwner (pailKey i) (d.onPails fun t => { t with table := mapDel t.table i, freed := t.freed ++ [i] })
        completeCmd cmd (.combination 8) d
      else completeCmd cmd .ok (d.onPails fun t => { t with table := mapSet t.table i { p with pages := l, importing := none } })
    | none => d
  | none => d

/-- PAIL_IMPORT_LIST_READ: the host may have written memory meanwhile. -/
def execPailImportListRead (time handle : Nat) (failed : Bool) (host : List (Nat × Byte)) (s : State) : Host.Outcome State Fault Refusal :=
  after time (fun d => importListRead handle failed (hostWrites host d)) s

/-- Runs of freed pages whose zeroing is complete after `n` more bytes: what is left, and how far its first run is zeroed. -/
def zeroRuns : Nat → List (Nat × Nat) → Nat × List (Nat × Nat) × List (Nat × Nat)
  | n, [] => (n, [], [])
  | n, (a, k) :: l =>
    if k ≤ n then
      let r := zeroRuns (n - k) l
      (r.1, r.2.1, (a, k) :: r.2.2)
    else (n, (a, k) :: l, [])

/-- A chunk of a gleaner task is done (Table 23.1, R533). -/
def gleanChunk (t : Nat) (d : Dev) : Dev := d.onTask t fun x => { x with chunks := min (x.chunks + 1) (2 ^ 32 - 1) }

/-- The gleaner zeroes 2 MiB of freed pages; pages that are done rejoin the pool (R429). -/
def zeroingStep (d : Dev) : Dev :=
  let r := zeroRuns (d.pails.zeroed + 0x200000) d.pails.zeroing
  let d := r.2.2.foldl (fun d e => d.onHbm fun m =>
    { m with mem := memClear m.mem e.1 e.2, poison := unpoison e.1 e.2 m.poison }) d
  let d := if d.pails.zeroing.isEmpty then d else gleanChunk 4 d
  d.onPails fun t => { t with zeroing := r.2.1, zeroed := if r.2.1.isEmpty then 0 else r.1 }

/-- PAIL_ZEROING_STEP. -/
def execPailZeroingStep (time : Nat) (s : State) : Host.Outcome State Fault Refusal := after time zeroingStep s

end Sys2Proof.Machine
end

