-- ==== Sys2Proof/Machine/MagStore.lean ====
section
/-! DEFINITION. The store of the magazine (chapter 20): reels as extents of logical acres (R455), acres and stripes (R456), the map
and its journal (R458, R459), free acres and churn (R461), retired blocks (R463). The codewords of R457 are read back as they were
written. -/

namespace Sys2Proof.Machine

/-- Bytes of an acre (R455). -/
abbrev acreBytes : Nat := 262144

/-- Bytes of a logical block. -/
abbrev blockBytes : Nat := 4096

/-- Changes the pack. -/
def Dev.onPack (f : Pack → Pack) (d : Dev) : Dev := d.onMag fun m => { m with pack := f m.pack }

/-- Changes a reel. -/
def Dev.onReel (n : Nat) (f : Reel → Reel) (d : Dev) : Dev :=
  d.onPack fun p => match mapGet p.reels n with
    | some r => { p with reels := mapSet p.reels n (f r) }
    | none => p

/-- The object ID of a reel (R484). -/
def reelObj (n : Nat) : Nat := 0xB000 + n

/-- The magazine's contents can be used: it is mounted, or an eject is in progress. -/
def magUsable (d : Dev) : Bool := d.mag.state = .mounted || d.mag.state = .ejecting

/-- The reel of an NSID while its magazine is in use. -/
def reelOf (d : Dev) (n : Nat) : Option Reel := if magUsable d then mapGet d.mag.pack.reels n else none

/-- The k-th acre of a list of extents. -/
def extentAcre : List (Nat × Nat) → Nat → Nat
  | [], _ => 0
  | (a, n) :: l, k => if k < n then a + k else extentAcre l (k - n)

/-- The magazine logical acre that holds a block of a reel (R455). -/
def Reel.acreOf (r : Reel) (lba : Nat) : Nat := extentAcre r.extents (lba / 64)

/-- The part of a memory in a window, with addresses counted from its start. -/
def memWindow (m : Mem) (base n : Nat) : Mem :=
  (m.filter fun c => base ≤ c.1 && c.1 < base + n).map fun c => (c.1 - base, c.2)

/-- A memory with the contents of a window replaced. -/
def memReplace (m : Mem) (base n : Nat) (w : Mem) : Mem :=
  m.filter (fun c => c.1 < base) ++ w.map (fun c => (base + c.1, c.2)) ++ m.filter (fun c => base + n ≤ c.1)

/-- The newest write of an acre that is not yet durable. -/
def newestWrite (d : Dev) (acre : Nat) : Option AcreWrite := (d.mag.writes.filter fun w => w.logical = acre).getLast?

/-- The current content of an acre: the newest write of it, or what the media hold (R455, R482). -/
def acreImage (d : Dev) (acre : Nat) : Mem := match newestWrite d acre with
  | some w => w.bytes
  | none => memWindow d.mag.pack.data (acre * acreBytes) acreBytes

/-- `n` blocks of a reel from an LBA on. -/
def readBlocks (d : Dev) (r : Reel) (lba n : Nat) : List Byte :=
  (List.range n).flatMap fun k => memRead (acreImage d (r.acreOf (lba + k))) ((lba + k) % 64 * blockBytes) blockBytes

/-! ## Placement (R456) -/

/-- Blocks of a die that the system area takes (R458). -/
def Pack.systemBlocks (p : Pack) : Nat := ceilDiv (p.blocksPerDie * 4) 1000

/-- The key of a block. -/
def blockKey (die block : Nat) : Nat := die * 2 ^ 20 + block

/-- A physical acre: die in bits [8:0], acre index on the die, block-major, in bits [28:9] (R458). -/
def physicalAcre (die index : Nat) : Nat := die + 512 * index

/-- The die of a physical acre. -/
def acreDie (physical : Nat) : Nat := physical % 512

/-- The block of a physical acre on its die. -/
def Pack.acreBlock (p : Pack) (physical : Nat) : Nat := physical / 512 / p.acresPerBlock

/-- The key of a physical acre's block. -/
def Pack.acreKey (p : Pack) (physical : Nat) : Nat := blockKey (acreDie physical) (p.acreBlock physical)

/-- The 32-bit map entry of R458: bit 31 is MAPPED. -/
def mapEntry (dest : Option Nat) : Nat := dest.elim 0 (2 ^ 31 + ·)

/-- A block of a die that can take an acre: the one being filled, or else the first erased one. -/
def Pack.openBlock (p : Pack) (die : Nat) : Option Nat :=
  let usable := fun (b : Nat) => let x := mapGetD p.blocks (blockKey die b) {}; !x.retired && x.programmed < p.acresPerBlock
  let filling := p.blocks.find? fun e => e.1 / 2 ^ 20 = die && usable (e.1 % 2 ^ 20) && e.2.programmed ≠ 0
  match filling with
  | some e => some (e.1 % 2 ^ 20)
  | none => ((List.range (p.blocksPerDie - p.systemBlocks)).find? fun b => usable (p.systemBlocks + b)).map (p.systemBlocks + ·)

/-- The next acre of a channel for a stripe: its dies take turns. -/
def Pack.place (p : Pack) (stripe channel : Nat) : Option (Nat × Pack) :=
  let dies := p.dies.getD channel 0
  let tries := (List.range dies).map fun t => 16 * channel + (stripe + t) % dies
  firstSome (fun die => (p.openBlock die).map fun b =>
    let k := blockKey die b
    let x := mapGetD p.blocks k {}
    (physicalAcre die (b * p.acresPerBlock + x.programmed),
     { p with blocks := mapSet p.blocks k { x with programmed := x.programmed + 1 }, free := p.free - 1 })) tries

/-- A placed acre that holds no data: parity or padding. -/
def Pack.placeIdle (stripe channel : Nat) (p : Pack) : Pack := match p.place stripe channel with
  | some (_, p) => p
  | none => p

/-- The channel of a stripe's j-th data acre; parity stands on channel s mod 32. -/
def stripeChannel (s j : Nat) : Nat := if j < s % 32 then j else j + 1

/-- MAG_FREE_LOW below 8 % free, and its clearing above 9 % (R461). -/
def checkFree (d : Dev) : Dev :=
  let share := freeShare d.mag.pack
  if magUsable d && share < 800 && !d.mag.freeLow then
    raise 0x1082 2 0 (le 2 share ++ le 1 0 ++ le 1 0) (d.onMag fun m => { m with freeLow := true })
  else if magUsable d && share > 900 && d.mag.freeLow then
    raise 0x1082 0 0 (le 2 share ++ le 1 1 ++ le 1 0) (d.onMag fun m => { m with freeLow := false })
  else d

/-- MAG_WORN when retired blocks hold more than 2 % of G, once a mount; device counter 8 is their count (R463). -/
def checkWorn (d : Dev) : Dev :=
  let p := d.mag.pack
  let held := p.retired * p.acresPerBlock
  let d := setCounter 0 8 p.retired d
  if magUsable d && !d.mag.worn && held * 50 > p.good then
    raise 0x1083 3 0 (le 4 p.retired ++ le 2 (min 10000 (held * 10000 / max 1 p.good))) (d.onMag fun m => { m with worn := true })
  else d

/-! ## Service of the dies (R462) -/

/-- The operations that a die has to serve: programs of the acres placed on it, and erases. -/
def dieTasks (d : Dev) (die : Nat) : List NandTask :=
  let programs := (d.mag.writes.filter fun w => !w.programmed && w.physical.any (acreDie · = die)).map fun w =>
    ({ write := some w.id, block := d.mag.pack.acreBlock (w.physical.getD 0), rank := w.rank } : NandTask)
  programs ++ (d.mag.erases.filter fun e => e.1 = die).map fun e => { block := e.2 }

/-- Two entries stand for one operation. -/
def NandTask.same (a b : NandTask) : Bool := a.write = b.write && a.block = b.block

/-- The operation that a die serves next: records, then the host, then churn, whose suspended operation comes first; but churn comes
first of all while its share of the die's time is below 2 % (DESIGN CHOICE, log 100: the floor is judged when the die takes an operation). -/
def NandDie.next (s : NandDie) (waiting : List NandTask) : Option NandTask :=
  let churn := s.suspended.orElse fun _ => waiting.find? fun t => t.rank = 2
  let higher := (waiting.find? fun t => t.rank = 0).orElse fun _ => waiting.find? fun t => t.rank = 1
  if s.churn * 50 < s.busy then churn.orElse fun _ => higher else higher.orElse fun _ => churn

/-- The time of the operation served is charged, and the die is free. -/
def NandDie.release (s : NandDie) (now : Nat) : NandDie := match s.serving with
  | none => s
  | some t => { s with serving := none, busy := s.busy + (now - s.since), churn := s.churn + (if t.rank = 2 then now - s.since else 0) }

/-- Churn's operation on a die gives way to higher work: it serves one that has been suspended fewer than eight times, and churn's share is
not below its floor. -/
def NandDie.yields (s : NandDie) (now : Nat) : Bool := match s.serving with
  | some t => t.rank = 2 && t.suspensions < 8 && !((s.release now).churn * 50 < (s.release now).busy)
  | none => false

/-- The operation served is suspended. -/
def NandDie.suspend (s : NandDie) (now : Nat) : NandDie :=
  { s.release now with suspended := s.serving.map fun t => { t with suspensions := t.suspensions + 1 } }

/-- A free die takes its next operation. -/
def NandDie.take (s : NandDie) (now : Nat) (waiting : List NandTask) : NandDie := match s.serving, s.next waiting with
  | none, some t => { s with serving := some t, since := now, suspended := s.suspended.filter fun x => !x.same t }
  | _, _ => s

/-- A die serves its operations in the order of R462: an operation that is over leaves, churn gives way to higher work, and a free die takes
the next. Device counter 7 counts suspensions. -/
def serveDie (die : Nat) (d : Dev) : Dev :=
  let tasks := dieTasks d die
  let live := fun (t : NandTask) => tasks.any t.same
  let s := mapGetD d.mag.dies die {}
  let s := if s.serving.any fun t => !live t then s.release d.now else s
  let s := { s with suspended := s.suspended.filter live }
  let waiting := tasks.filter fun t => !(s.serving.any t.same) && !(s.suspended.any t.same)
  if s.yields d.now && waiting.any (·.rank < 2) then
    let s := s.suspend d.now
    count 0 7 1 (d.onMag fun m => { m with dies := mapSet m.dies die (s.take d.now waiting) })
  else d.onMag fun m => { m with dies := mapSet m.dies die (s.take d.now waiting) }

/-- Every die that has or had work serves it. -/
def serveDies (d : Dev) : Dev :=
  let busy := d.mag.dies.map (·.1) ++ (d.mag.writes.filterMap fun w => if w.programmed then none else w.physical.map acreDie) ++ d.mag.erases.map (·.1)
  busy.dedup.foldl (fun d k => serveDie k d) d

/-- The die serves the program of an acre write. -/
def servesWrite (m : Magazine) (w : AcreWrite) : Bool :=
  w.physical.any fun a => (mapGetD m.dies (acreDie a) {}).serving.any fun t => t.write = some w.id

/-- The die serves the erase of a block. -/
def servesErase (m : Magazine) (die block : Nat) : Bool :=
  (mapGetD m.dies die {}).serving.any fun t => t.write = none && t.block = block

/-- Higher work that is over at once, a host read or a journal page, passes on a die: a churn operation on it is suspended and resumes. -/
def passDie (die : Nat) (d : Dev) : Dev :=
  let s := mapGetD d.mag.dies die {}
  if s.yields d.now then
    count 0 7 1 (d.onMag fun m => { m with dies := mapSet m.dies die { s with serving := s.serving.map fun t => { t with suspensions := t.suspensions + 1 } } })
  else d

/-! ## Stripes -/

/-- The oldest full acre that has no place, and may go to the current stripe, is placed in it. -/
def placeNext (d : Dev) : Dev :=
  match d.mag.writes.find? fun w => w.full && w.stripe.isNone && !w.gone && w.notBefore ≤ d.mag.stripe with
  | none => d
  | some w =>
    let m := d.mag
    match m.pack.place m.stripe (stripeChannel m.stripe m.stripeAcres) with
    | none => d
    | some (a, p) =>
      let p := if m.stripeAcres = 0 then p.placeIdle m.stripe (m.stripe % 32) else p
      let last : Bool := m.stripeAcres = 30
      let d := if last then count 0 6 acreBytes d else d
      d.onMag fun m =>
        { m with pack := p, stripeSince := if m.stripeAcres = 0 then d.now else m.stripeSince
                 writes := m.writes.map fun x => if x.id = w.id then { x with stripe := some m.stripe, physical := some a } else x
                 stripe := if last then m.stripe + 1 else m.stripe, stripeAcres := if last then 0 else m.stripeAcres + 1 }

/-- Full acres are placed, oldest first, and the dies serve them. -/
def placeFull (d : Dev) : Dev := serveDies (checkFree ((List.range d.mag.writes.length).foldl (fun d _ => placeNext d) d))

/-- A partly filled stripe is closed with padding acres, which are programmed, as its parity is. -/
def padStripe (d : Dev) : Dev :=
  if d.mag.stripeAcres = 0 then d
  else checkFree ((count 0 6 ((32 - d.mag.stripeAcres) * acreBytes) d).onMag fun m =>
    { m with pack := (List.range (31 - m.stripeAcres)).foldl (fun p j => p.placeIdle m.stripe (stripeChannel m.stripe (m.stripeAcres + j))) m.pack
             stripe := m.stripe + 1, stripeAcres := 0 })

/-! ## Writing -/

/-- Bytes are written at an offset of an acre that starts on a block: into the write of it that is still open, or into a new one
over its current content. The second value names the write, whose rank in the service order is the highest of its writers'. -/
def stageAcre (rank acre off : Nat) (bs : List Byte) (d : Dev) : Dev × Nat :=
  let blocks := (List.range (ceilDiv bs.length blockBytes)).map fun k => off / blockBytes + k
  match d.mag.writes.find? fun w => w.logical = acre && !w.full && !w.gone with
  | some w =>
    let all := (w.blocks ++ blocks).dedup
    let new := { w with bytes := memWrite w.bytes off bs, blocks := all, full := all.length ≥ 64, rank := min w.rank rank }
    (d.onMag fun m => { m with writes := m.writes.map fun x => if x.id = w.id then new else x }, w.id)
  | none =>
    let id := d.mag.nextWrite
    let new : AcreWrite := { id, logical := acre, bytes := memWrite (acreImage d acre) off bs, blocks, since := d.now, full := blocks.length ≥ 64, rank }
    (d.onMag fun m => { m with writes := m.writes ++ [new], nextWrite := id + 1 }, id)

/-- A whole acre is written again with given content. -/
def stageWhole (rank acre : Nat) (img : Mem) (d : Dev) : Dev × Nat :=
  let id := d.mag.nextWrite
  let new : AcreWrite := { id, logical := acre, bytes := img, blocks := List.range 64, since := d.now, full := true, rank }
  (d.onMag fun m => { m with writes := m.writes ++ [new], nextWrite := id + 1 }, id)

/-- Bytes are written from an LBA of a reel on; the second value names the acre writes that carry them. -/
def stageBlocks (rank : Nat) (r : Reel) (lba : Nat) (bs : List Byte) (d : Dev) : Dev × List Nat :=
  let n := ceilDiv bs.length blockBytes
  let acres := ((List.range n).map fun k => (lba + k) / 64).dedup
  acres.foldl (fun (x : Dev × List Nat) a =>
    let from0 := max lba (64 * a)
    let upto := min (lba + n) (64 * a + 64)
    let part := (bs.drop ((from0 - lba) * blockBytes)).take ((upto - from0) * blockBytes)
    let (d, id) := stageAcre rank (extentAcre r.extents a) (from0 % 64 * blockBytes) part x.1
    (d, x.2 ++ [id])) (d, [])

/-- A block of a die holds one valid acre more or less. -/
def countValid (physical : Nat) (add : Bool) (p : Pack) : Pack :=
  let k := p.acreKey physical
  let x := mapGetD p.blocks k {}
  { p with blocks := mapSet p.blocks k { x with valid := if add then x.valid + 1 else x.valid - 1 } }

/-- A logical acre's map entry changes, and the journal tells of it (R459); none unmaps it. -/
def remap (acre : Nat) (dest : Option Nat) (p : Pack) : Pack :=
  let p := match mapGet p.map acre with
    | some old => countValid old false p
    | none => p
  let p := match dest with
    | some new => countValid new true { p with map := mapSet p.map acre new }
    | none => { p with map := mapDel p.map acre }
  { p with journal := p.journal ++ [(acre, mapEntry dest, p.journalSeq + 1)], journalSeq := p.journalSeq + 1 }

/-- An acre is deallocated: it reads as zero and uses no physical acre, which is durable with the journal page of its entry (R455, R459). The
second value names the change, if there is anything to deallocate. -/
def deallocAcre (acre : Nat) (d : Dev) : Dev × List Nat :=
  if (mapGet d.mag.pack.map acre).isNone && (newestWrite d acre).isNone then (d, [])
  else
    let id := d.mag.nextWrite
    (d.onMag fun m =>
      { m with writes := m.writes ++ [{ id, logical := acre, since := d.now, full := true, programmed := true, gone := true }]
               nextWrite := id + 1, pack := remap acre none m.pack }, [id])

/-! ## Durability (R459) -/

/-- A write is durable once its stripe is closed and programmed and its journal page is programmed. -/
def durableWrite (m : Magazine) (w : AcreWrite) : Bool :=
  w.programmed && w.journaled && (w.gone || match w.stripe with
    | some s => s < m.stripe && m.writes.all fun x => x.stripe ≠ some s || x.programmed
    | none => false)

/-- A durable write becomes the media's content; it supersedes older writes of its acre. -/
def commitWrite (d : Dev) (w : AcreWrite) : Dev :=
  d.onMag fun m =>
    { m with writes := m.writes.filter fun x => !(x.logical = w.logical && x.id ≤ w.id)
             pack := { m.pack with data := memReplace m.pack.data (w.logical * acreBytes) acreBytes w.bytes } }

/-- Every write that is durable reaches the media's content. -/
def mergeDurable (d : Dev) : Dev := (d.mag.writes.filter (durableWrite d.mag)).foldl commitWrite d

/-- Some acre write of a list is not durable yet. -/
def stillPending (d : Dev) (ids : List Nat) : Bool := d.mag.writes.any fun w => w.id ∈ ids

/-- The program of an acre ends well: the map and the journal take its new place, unless a later write of the acre already has. -/
def programOk (w : AcreWrite) (d : Dev) : Dev :=
  let d := count 0 6 acreBytes d
  d.onMag fun m =>
    { m with writes := m.writes.map fun x => if x.id = w.id then { x with programmed := true } else x
             sinceCheckpoint := m.sinceCheckpoint + 1
             pack := match w.physical with
               | some a => if m.writes.any fun x => x.logical = w.logical && x.id > w.id && x.programmed then m.pack else remap w.logical (some a) m.pack
               | none => m.pack }

/-- A block is retired; the acres mapped into it are written again elsewhere (R463). -/
def retireBlock (die block : Nat) (d : Dev) : Dev :=
  let p := d.mag.pack
  let k := blockKey die block
  let x := mapGetD p.blocks k {}
  if x.retired then d
  else
    let mine := p.map.filter fun e => p.acreKey e.2 = k
    let d := d.onPack fun p =>
      { p with blocks := mapSet p.blocks k { x with retired := true, programmed := p.acresPerBlock }, retired := p.retired + 1
               free := p.free - (p.acresPerBlock - x.programmed) }
    let d := mine.foldl (fun d e => if (newestWrite d e.1).isSome then d else (stageWhole 2 e.1 (acreImage d e.1) d).1) d
    checkWorn d

/-- A die has no good block left to program. -/
def dieSpent (p : Pack) (die : Nat) : Bool :=
  (List.range (p.blocksPerDie - p.systemBlocks)).all fun b => (mapGetD p.blocks (blockKey die (p.systemBlocks + b)) {}).retired

/-- The program of an acre fails: its block is retired and the acre is programmed again in a later stripe. A host write is given up
when no good block is left on the die (Table 21.4); the second value tells so. -/
def programFailed (w : AcreWrite) (host : Bool) (d : Dev) : Dev × Bool :=
  match w.physical with
  | none => (d, false)
  | some a =>
    let die := acreDie a
    let d := retireBlock die (d.mag.pack.acreBlock a) d
    if host && dieSpent d.mag.pack die then
      (d.onMag fun m => { m with writes := m.writes.filter fun x => x.id ≠ w.id }, true)
    else
      (placeFull (d.onMag fun m => { m with writes := m.writes.map fun x =>
        if x.id = w.id then { x with stripe := none, physical := none, notBefore := w.stripe.elim 0 (· + 1) } else x }), false)

/-- A block is erased: its acres are free again. -/
def eraseDone (die block : Nat) (ok : Bool) (d : Dev) : Dev :=
  let d := d.onMag fun m => { m with erases := m.erases.filter (· ≠ (die, block)) }
  if ok then
    let k := blockKey die block
    let x := mapGetD d.mag.pack.blocks k {}
    if x.retired then d
    else placeFull (checkFree (d.onPack fun p =>
      { p with blocks := mapSet p.blocks k { x with programmed := 0, valid := 0, erases := min (x.erases + 1) (2 ^ 24 - 1) }, free := p.free + x.programmed }))
  else placeFull (retireBlock die block d)

/-- The dies that hold the journal take its pages in turn (DESIGN CHOICE, log 100: R458 spreads the system area over every die). -/
def journalDie (p : Pack) : Nat := match (indexed p.dies).flatMap fun e => (List.range e.2).map (16 * e.1 + ·) with
  | [] => 0
  | l => l.getD (p.journalPages % l.length) 0

/-! ## The magazine map region (R458, R513)

The region holds the forward map from its start, the block counts after it, and at its end a copy of the journal since the last checkpoint,
the two staged copies of a journal page, and the staging buffer (DESIGN CHOICE, log 101: the manual gives their sizes, not their places). -/

/-- Where the region starts (Table 17.2). -/
abbrev mapBase : Nat := 0x20000000
/-- Offset of the journal copy: 4 MiB, an entry of 16 bytes for each journal entry since the last checkpoint. -/
abbrev journalCopy : Nat := 0x6FBE0000
/-- Offsets of the two staged copies of a journal page, of 64 KiB each. -/
abbrev stagedPage (k : Nat) : Nat := 0x6FFE0000 + 0x10000 * k
/-- Offset of the staging buffer, which ends the region. -/
abbrev stagingBuffer : Nat := 0x70000000

/-- The lines of a run of the map region are written again. -/
def healRun (off n : Nat) (d : Dev) : Dev := d.onHbm fun h => { h with poison := unpoison (mapBase + off) n h.poison }

/-- A journal page is programmed: the entries of every map change so far are (R459). -/
def journalPage (d : Dev) : Dev :=
  (healRun (stagedPage 0) 0x20000 (passDie (journalDie d.mag.pack) d)).onMag fun m =>
    { m with writes := m.writes.map (fun w => if w.programmed then { w with journaled := true } else w)
             pack := { m.pack with journaledSeq := m.pack.journalSeq, journalPages := m.pack.journalPages + 1 } }

/-- The map that the newest checkpoint and the programmed journal pages give (R460). -/
def Pack.replayed (p : Pack) : NMap Nat :=
  (p.journal.filter fun e => e.2.2 ≤ p.journaledSeq).foldl (fun m e => if e.2.1 < 2 ^ 31 then mapDel m e.1 else mapSet m e.1 (e.2.1 % 2 ^ 29)) p.checkpointMap

/-- A full checkpoint of the map, in the other of the two areas (R459). -/
def checkpoint (d : Dev) : Dev :=
  (healRun journalCopy 0x400000 d).onMag fun m =>
    { m with sinceCheckpoint := 0
             pack := { m.pack with checkpointMap := m.pack.replayed, checkpointSeq := m.pack.journaledSeq, checkpointArea := 1 - m.pack.checkpointArea
                                   journal := m.pack.journal.filter fun e => e.2.2 > m.pack.journaledSeq } }

/-- Mounting finds the map again: from the newest checkpoint and the journal entries after it, or, where they cannot be used, from the
metadata of the programmed acres (R460). The blocks' valid acres are counted again. -/
def recoverMap (scan : Bool) (p : Pack) : Pack :=
  let map := if scan then p.map else p.replayed
  let p := { p with map, journal := if scan then [] else p.journal.filter fun e => e.2.2 ≤ p.journaledSeq
                    checkpointMap := if scan then map else p.checkpointMap, blocks := p.blocks.map fun e => (e.1, { e.2 with valid := 0 }) }
  map.foldl (fun p e => countValid e.2 true p) p

/-- Partly filled acres and a partly filled stripe that have waited 10 ms go to the dies (R456). -/
def partialProgram (d : Dev) : Dev :=
  let d := placeFull (d.onMag fun m => { m with writes := m.writes.map fun w => if w.since + 10000000 ≤ d.now then { w with full := true } else w })
  if d.mag.stripeSince + 10000000 ≤ d.now then padStripe d else d

/-! ## Room for reels -/

/-- The runs of logical acres that no extent of a sorted list takes, below a limit. -/
def gapsFrom : List (Nat × Nat) → Nat → Nat → List (Nat × Nat)
  | [], at0, limit => if at0 < limit then [(at0, limit - at0)] else []
  | (a, n) :: l, at0, limit => (if at0 < a then [(at0, a - at0)] else []) ++ gapsFrom l (max at0 (a + n)) limit

/-- An extent put into a list by its start. -/
def insertExtent (e : Nat × Nat) : List (Nat × Nat) → List (Nat × Nat)
  | [] => [e]
  | x :: l => if e.1 ≤ x.1 then e :: x :: l else x :: insertExtent e l

/-- Extents of `n` acres out of free runs, lowest first. -/
def takeExtents : Nat → List (Nat × Nat) → List (Nat × Nat)
  | 0, _ => []
  | _, [] => []
  | n + 1, (a, k) :: l => if k ≥ n + 1 then [(a, n + 1)] else (a, k) :: takeExtents (n + 1 - k) l

/-- The extents a new reel of `n` acres takes: at most 256, of the lowest free acres. -/
def allocAcres (p : Pack) (n : Nat) : Option (List (Nat × Nat)) :=
  let used := (p.reels.flatMap fun e => e.2.extents).foldl (fun l e => insertExtent e l) []
  let got := takeExtents n (gapsFrom used 0 p.exported)
  if sumOf (·.2) got = n && got.length ≤ 256 then some got else none

end Sys2Proof.Machine
end

