-- ==== Sys2Proof/Machine/Recorders.lean ====
section
/-! DEFINITION. Recordings (R464 to R467, R474, R475): tracks and their slots, records and what they hold, the reel layout (R471 to
R473, R476), and closing a clip. -/

namespace Sys2Proof.Machine

/-! ## Tracks -/

/-- The place of a source's slot: its pail and the slot's first byte. -/
def slotPlace (d : Dev) (o slot : Nat) : Nat × Nat :=
  if o ≥ 0x12000 then
    let i := tabGet d.display.sdiIn (o - 0x12000)
    (i.pail, slot * formatSlot 0x31 i.width i.height)
  else if o ≥ 0x11000 then ((d.stream (o - 0x11000)).settings.stats.pail, slot * statsSlot)
  else if o ≥ 0x10000 then
    let n := (o - 0x10000) / 8
    let point := (o - 0x10000) % 8
    let t := tabGet (d.stream n).settings.taps point
    let (w, h) := (srcSize d n).getD (0, 0)
    let (_, _, cw, ch) := t.crop w h
    let planes := if point ≤ 2 && streamDual d n then 2 else 1
    (t.pail, slot * tapSlot t.format cw ch (match furrowOf d n with
      | some (_, c) => c.depthBits
      | none => 16) planes)
  else match objType o with
    | 0x2 => match furrowOf d (objIndex o) with
      | some (_, c) => (c.pail, slot * c.slotSize)
      | none => (0, 0)
    | 0x3 => let b := branchSet d o; (b.pail, slot * b.slotSize)
    | 0x5 => match mapGet d.codecs.encoders (objIndex o) with
      | some e => if e.codec = 0 then (e.xs.pail, slot * xsSlot e.xs.budget) else (e.enc.pail, slot * encSlot e.rc)
      | none => (0, 0)
    | 0x6 => match mapGet d.codecs.decoders (objIndex o) with
      | some q => (q.pail, decoderSlotBase q + slot * decoderSlot q)
      | none => (0, 0)
    | _ => (0, 0)

/-- A track takes pictures; the other kind is audio. -/
def Track.picture (t : Track) : Bool := t.kind ≠ 6

/-- The source reference of a picture track. -/
def Track.ref (t : Track) : Nat := if t.kind = 2 then tapRef (objIndex t.source) t.tap else t.source

/-- The stream whose frames a picture track follows; none when it follows a decoder. -/
def trackStream (d : Dev) (t : Track) : Option Nat := match t.kind with
  | 1 | 2 => some (objIndex t.source)
  | 3 | 4 => (mapGet d.codecs.encoders (objIndex t.source)).bind encoderStream
  | _ => none

/-- The decoder whose pictures a track follows. -/
def trackDecoder (d : Dev) (t : Track) : Option Nat := match t.kind with
  | 3 => match mapGet d.codecs.encoders (objIndex t.source) with
    | some e => if e.xs.sourceKind = 3 then some (objIndex e.xs.source) else none
    | none => none
  | 5 => some (objIndex t.source)
  | _ => none

/-- The time domain of a track's stamps. -/
def trackDomain (d : Dev) (t : Track) : Nat := match trackStream d t with
  | some n => streamDomain d n
  | none => match (trackDecoder d t).bind (mapGet d.codecs.decoders) with
    | some q => q.domain
    | none => 5

/-- The declared minimum period of a track's source. -/
def trackPeriod (d : Dev) (t : Track) : Nat := match trackStream d t with
  | some n => (d.stream n).minPeriod
  | none => match (trackDecoder d t).bind (mapGet d.codecs.decoders) with
    | some q => q.periodNs
    | none => 0

/-- The domain whose media-clock count indexes a port's samples (R379), and the rate; none when they count from the port's start. -/
def portMedia (d : Dev) (p : AudioPort) : Option (Nat × Nat) :=
  let g := tabGet d.audio.scgs p.config.scg
  if p.asrc.enable && p.config.direction = 1 then some (p.config.domain, p.asrc.outRate)
  else if p.config.clockMode = 0 && g.enable && g.source ≤ 5 then some (g.source, p.config.rate)
  else none

/-- A source delivers to a reel: an encoder or decoder track needs an enabled binding (R464). -/
def trackBound (d : Dev) (reel : Nat) (t : Track) : Bool := match t.kind with
  | 3 | 4 => match mapGet d.codecs.encoders (objIndex t.source) with
    | some e => reelObj reel ∈ e.consumers
    | none => false
  | 5 => match mapGet d.codecs.decoders (objIndex t.source) with
    | some q => reelObj reel ∈ q.consumers
    | none => false
  | _ => true

/-- Format, width, height and largest bytes of a track (Table 20.6). -/
def describeTrack (d : Dev) (t : Track) : Track :=
  let period := trackPeriod d t
  match t.kind with
  | 1 => match furrowOf d (objIndex t.source) with
    | some (_, c) => { t with format := c.depthBits, width := c.width, height := c.height
                              maxBytes := roundUp (c.planes * (rawRowBytes c.width c.depthBits * c.height)) 4096 }
    | none => t
  | 2 =>
    let n := objIndex t.source
    let x := tabGet (d.stream n).settings.taps t.tap
    let (w, h) := (srcSize d n).getD (0, 0)
    let (_, _, cw, ch) := x.crop w h
    let bits := match furrowOf d n with
      | some (_, c) => c.depthBits
      | none => 16
    let planes := if t.tap ≤ 2 && streamDual d n then 2 else 1
    { t with format := t.tap * 16 + x.format, width := cw, height := ch, maxBytes := roundUp (planes * (tapStride x.format cw bits * ch)) 4096 }
  | 3 => match mapGet d.codecs.encoders (objIndex t.source) with
    | some e =>
      let (w, h) := match xsSource d e.xs with
        | some s => (s.w, s.h)
        | none => (0, 0)
      { t with format := e.xs.profile, width := w, height := h, maxBytes := roundUp e.xs.budget 4096 }
    | none => t
  | 4 => match mapGet d.codecs.encoders (objIndex t.source) with
    | some e =>
      let b := branchSet d e.enc.source
      let (w, h) := codedSize e.enc b.outW b.outH
      { t with format := e.enc.profile, width := w, height := h, maxBytes := roundUp (frameBytes e.rc.maxKbps period) 4096 }
    | none => t
  | 5 => match mapGet d.codecs.decoders (objIndex t.source) with
    | some q => { t with format := 16, width := q.maxWidth, height := q.maxHeight, maxBytes := roundUp (rawRowBytes q.maxWidth 16 * q.maxHeight) 4096 }
    | none => t
  | _ => t

/-- An audio track's description needs the record period of track 0. -/
def describeAudio (d : Dev) (period : Nat) (t : Track) : Track :=
  let p := d.port (objIndex t.source)
  let rate := match portMedia d p with
    | some (_, r) => r
    | none => p.config.rate
  { t with format := rate, width := p.config.slots, height := 32, maxBytes := roundUp (p.config.slots * 4 * ceilDiv (rateHz rate * period) 1000000000) 4096 }

/-- The bytes of a track descriptor (Table 20.6). -/
def Track.bytes (t : Track) : List Byte :=
  le 1 t.kind ++ le 1 t.format ++ le 2 t.source ++ le 2 t.width ++ le 2 t.height ++ le 4 t.maxBytes ++ le 4 0

/-! ## Reel layout (R471 to R473) -/

/-- Bytes with their CRC-32C after them. -/
def withCrc (bs : List Byte) : List Byte := bs ++ le 4 (crc32c bs)

/-- The superblock of a reel (Table 20.3). -/
def Reel.superblock (d : Dev) (n : Nat) (r : Reel) : List Byte :=
  withCrc ((le 4 0x4C454552 ++ le 2 1 ++ le 2 (boolNat r.opened) ++ le 16 r.uuid ++ le 16 d.mag.pack.uuid ++ le 2 n ++ le 2 0 ++ le 4 4096
    ++ le 8 r.blocks ++ le 8 64 ++ le 4 r.maxClips ++ le 4 r.clips.length ++ le 8 r.dataLba ++ le 8 r.nextLba ++ le 8 r.writeSeq
    ++ fullTimeBytes r.created ++ le 1 r.domain ++ le 3 0 ++ le 8 d.boot.serial ++ (r.name ++ List.replicate 32 0).take 32) ++ List.replicate 3940 0)

/-- A clip directory entry (Table 20.4). -/
def Clip.bytes (c : Clip) : List Byte :=
  withCrc (le 4 c.clip ++ le 1 c.state ++ le 1 c.tracks.length ++ le 1 c.domain ++ le 1 c.endReason ++ le 8 c.startLba ++ le 8 c.endLba ++ le 8 c.records
    ++ le 8 c.firstFrame ++ fullTimeBytes c.startTime ++ le 4 c.periodNs ++ le 4 c.flags ++ le 4 c.firstEpoch
    ++ (List.range 8).flatMap (fun i => match c.tracks[i]? with
      | some t => t.bytes
      | none => List.replicate 16 0)
    ++ (c.name ++ List.replicate 32 0).take 32 ++ List.replicate 28 0)

/-- A clip directory entry read back. -/
def readClip (b : List Byte) : Clip :=
  { clip := u32 b 0, state := u8 b 4, domain := u8 b 6, endReason := u8 b 7, startLba := u64 b 8, endLba := u64 b 16, records := u64 b 24
    firstFrame := u64 b 32, startTime := { seconds := u48 b 40, ns := u32 b 48 }, periodNs := u32 b 52, flags := u32 b 56, firstEpoch := u32 b 60
    tracks := (List.range (min 8 (u8 b 5))).map fun i =>
      let o := 64 + 16 * i
      { kind := u8 b o, format := u8 b (o + 1), source := u16 b (o + 2), width := u16 b (o + 4), height := u16 b (o + 6), maxBytes := u32 b (o + 8)
        tap := if u8 b o = 2 then u8 b (o + 1) / 16 else 0 }
    name := slice b 192 32 }

/-- A block of 4 KiB whose CRC checks. -/
def crcOk (b : List Byte) : Bool := u32 b (b.length - 4) = crc32c (b.take (b.length - 4))

/-- The superblock that a reader takes (R472). -/
def goodSuperblock (d : Dev) (r : Reel) : Option (List Byte) :=
  let a := readBlocks d r 0 1
  let b := readBlocks d r 1 1
  if crcOk a then some a else if crcOk b then some b else none

/-- A whole acre of a reel is rewritten with some bytes changed (R476); the second value names the write. -/
def rewriteAcre (r : Reel) (lba off : Nat) (bs : List Byte) (d : Dev) : Dev × Nat :=
  let a := r.acreOf lba
  stageWhole 0 a (memWrite (acreImage d a) (lba % 64 * blockBytes + off) bs) d

/-- Both copies of a reel's superblock are written in one rewrite of acre 0 (R472). -/
def writeSuperblock (n : Nat) (d : Dev) : Dev × List Nat :=
  let d := d.onReel n fun r => { r with writeSeq := r.writeSeq + 1 }
  match mapGet d.mag.pack.reels n with
  | none => (d, [])
  | some r =>
    let b := r.superblock d n
    let (d, id) := rewriteAcre r 0 0 (b ++ b) d
    (d, [id])

/-- A clip's directory entry is written. -/
def writeEntry (n clip : Nat) (d : Dev) : Dev × List Nat :=
  match mapGet d.mag.pack.reels n with
  | none => (d, [])
  | some r => match r.clips.find? fun c => c.clip = clip with
    | none => (d, [])
    | some c =>
      let (d, id) := rewriteAcre r (64 + (clip - 1) / 16) (256 * ((clip - 1) % 16)) c.bytes d
      (d, [id])

/-- Changes a clip of a reel. -/
def Dev.onClip (n clip : Nat) (f : Clip → Clip) (d : Dev) : Dev :=
  d.onReel n fun r => { r with clips := r.clips.map fun c => if c.clip = clip then f c else c }

/-- Changes the recording of a reel. -/
def Dev.onRecording (n : Nat) (f : Recording → Recording) (d : Dev) : Dev :=
  d.onMag fun m => { m with recordings := m.recordings.map fun r => if r.reel = n then f r else r }

/-- The recording of a reel. -/
def recordingOf (d : Dev) (n : Nat) : Option Recording := d.mag.recordings.find? fun r => r.reel = n

/-! ## Slots that recorders hold (R224, R465) -/

/-- A recording takes frames of a source from its first frame on until its stop. -/
def Recording.takes (r : Recording) (o frame : Nat) : Bool :=
  !r.ending && (r.tracks.any fun t => t.picture && t.ref = o)
  && (match r.fromFrame with
    | some f => f ≤ frame
    | none => false)
  && (match r.stopAt with
    | some f => frame < f
    | none => true)

/-- Recordings that wait for the first frame of a stream or decoder start with this one. -/
def recordersBegin (follows : Track → Bool) (frame : Nat) (d : Dev) : Dev :=
  d.onMag fun m => { m with recordings := m.recordings.map fun r =>
    if r.fromFrame.isNone && (r.tracks.head?.any follows) then { r with fromFrame := some frame } else r }

/-- The SOF of a frame of a stream: recordings of it that have no first frame yet begin with it (R477). -/
def recordersAtSof (n frame : Nat) (d : Dev) : Dev := recordersBegin (fun t => trackStream d t = some n) frame d

/-- A slot of a source is complete: each recording of the source holds it (R465). -/
def recorderTake (o slot frame : Nat) (d : Dev) : Dev :=
  let d := if o < 0x10000 && objType o = 0x6 then recordersBegin (fun t => trackDecoder d t = some (objIndex o)) frame d else d
  let (pail, base) := slotPlace d o slot
  (d.mag.recordings.filter fun r => r.takes o frame).foldl (fun d r =>
    let d := holdSlot o slot (reelObj r.reel) d
    d.onRecording r.reel fun r => { r with waiting := r.waiting ++ [{ source := o, slot, frame, pail, base }] }) d

/-- A frame of a stream was delivered: recordings of the stream keep its record (R475). -/
def recorderSource (n : Nat) (rec0 : FrameRecord) (d : Dev) : Dev :=
  d.onMag fun m => { m with recordings := m.recordings.map fun r =>
    if ((r.tracks.head?).any fun t => trackStream d t = some n) then { r with sources := (r.sources ++ [rec0]).drop (r.sources.length - 63) } else r }

/-- The slots of a recording that no record took are let go. -/
def releaseWaiting (n : Nat) (d : Dev) : Dev := match recordingOf d n with
  | none => d
  | some r =>
    let d := r.waiting.foldl (fun d h => dropSlot h.source h.slot (reelObj n) d) d
    d.onRecording n fun r => { r with waiting := [] }

/-! ## Forming a record -/

/-- The bytes of a track's essence in its slot, as runs of the pail (R475). -/
def essenceRuns (d : Dev) (t : Track) (h : HeldSlot) : List (Nat × Nat) :=
  let b := pailRead d h.pail h.base 128
  match t.kind with
  | 1 => match furrowOf d (objIndex t.source) with
    | some (_, c) =>
      let n := rawRowBytes c.width c.depthBits * c.height
      (List.range c.planes).map fun p => (h.base + 0x20000 + p * rawPlaneSize c.width c.height c.depthBits, n)
    | none => []
  | 2 => (List.range (u8 b 48)).map fun p => (h.base + u32 b (52 + 4 * p), u32 b 60 * u16 b 46)
  | 5 => [(h.base + 0x20000, rawRowBytes (u16 b 52) 16 * u16 b 54)]
  | _ => [(h.base + 0x1000, u32 b 40)]

/-- A run of a pail with poisoned 4 KiB blocks as zeros, and those whose read faulted twice (`bad`, by pail and offset); the second
value tells whether there were any (R468). -/
def readClean (d : Dev) (bad : List (Nat × Nat)) (pail : Nat) (run : Nat × Nat) : List Byte × Bool :=
  (List.range (ceilDiv run.2 blockBytes)).foldl (fun (acc : List Byte × Bool) k =>
    let off := run.1 + k * blockBytes
    let n := min blockBytes (run.2 - k * blockBytes)
    if pailPoisoned d pail off n || bad.any (fun e => e.1 = pail && off ≤ e.2 && e.2 < off + n) then (acc.1 ++ List.replicate n 0, true) else (acc.1 ++ pailRead d pail off n, acc.2)) ([], false)

/-- A picture track's essence. -/
def pictureEssence (d : Dev) (bad : List (Nat × Nat)) (t : Track) (h : HeldSlot) : List Byte × Bool :=
  (essenceRuns d t h).foldl (fun acc r => let x := readClean d bad h.pail r; (acc.1 ++ x.1, acc.2 || x.2)) ([], false)

/-- The samples of an audio track between two instants of track 0's domain, and how many there are (R475). -/
def audioEssence (d : Dev) (t : Track) (t0 t1 : Nat) : List Byte × Nat :=
  let p := d.port (objIndex t.source)
  let hz := rateHz (match portMedia d p with
    | some (_, r) => r
    | none => p.config.rate)
  let a := ceilDiv (t0 * hz) 1000000000
  let b := ceilDiv (t1 * hz) 1000000000
  ((List.range (b - a)).flatMap fun k => (List.range t.width).flatMap fun c => leInt 4 ((ringEntry p (a + k)).getD c 0), b - a)

/-- A list of bytes padded to a whole LBA. -/
def padBlock (bs : List Byte) : List Byte := bs ++ List.replicate (roundUp bs.length blockBytes - bs.length) 0

/-- An entry of a record's metadata (R475). -/
def metaEntry (tag : Nat) (v : List Byte) : List Byte := le 2 tag ++ le 2 v.length ++ v ++ List.replicate (roundUp v.length 4 - v.length) 0

/-- The last LTC word stamped before an instant; 0 while LTC_IN is off (Table 20.5). -/
def timecodeAt (d : Dev) (sof : Nat) : Nat :=
  if !d.time.ltc.input.enabled then 0
  else match d.time.ltc.words.find? fun w => (shortStamp sof + 2 ^ 32 - w.stamp) % 2 ^ 32 < 2 ^ 31 with
    | some w => w.bits % 2 ^ 64
    | none => 0

/-- The frame time in a slot's record: sof_time, or pts of a picture. -/
def slotTime (d : Dev) (h : HeldSlot) : Nat := let b := pailRead d h.pail (h.base + 24) 12; u48 b 0 * 1000000000 + u32 b 8

/-- A source can no longer complete a slot for a frame: it has completed a later one (R465). -/
def sourcePast (d : Dev) (r : Recording) (o frame : Nat) : Bool :=
  (r.waiting.any fun h => h.source = o && h.frame > frame)
  || (if o < 0x10000 && objType o = 0x2 then match furrowOf d (objIndex o) with
        | some (i, _) => (d.furrow i).lastRecord.number > frame
        | none => true
      else (ringOf d o).lastFrame > frame)

/-- The waiting slot of a track for a frame. -/
def trackSlot (r : Recording) (t : Track) (frame : Nat) : Option HeldSlot := r.waiting.find? fun h => h.source = t.ref && h.frame = frame

/-- The oldest waiting frame of track 0. -/
def nextFrameOf (r : Recording) : Option HeldSlot := (r.tracks.head?).bind fun t => r.waiting.find? fun h => h.source = t.ref

/-- When the frame after a record's starts: from its own slot, from the stream, or a period later for a last record; none while
it is not known. -/
def nextSof (d : Dev) (r : Recording) (h : HeldSlot) : Option Nat :=
  match r.waiting.find? fun x => x.source = h.source && x.frame = h.frame + 1 with
  | some x => some (slotTime d x)
  | none => match (r.tracks.head?).bind (trackStream d) with
    | some n =>
      let s := d.stream n
      if s.frame = h.frame + 1 then s.lastSof
      else if s.frame > h.frame || r.stopAt = some (h.frame + 1) then some (slotTime d h + r.periodNs)
      else none
    | none => some (slotTime d h + r.periodNs)

/-- The record of a frame can be formed now. -/
def recordReady (d : Dev) (r : Recording) (h : HeldSlot) : Bool :=
  (r.tracks.all fun t => !t.picture || (trackSlot r t h.frame).isSome || sourcePast d r t.ref h.frame)
  && (r.tracks.all Track.picture || (nextSof d r h).isSome)

/-- Frames that were not recorded before a record of a frame: since the previous record, or since the recording's first frame (R465). -/
def Recording.droppedBefore (r : Recording) (frame : Nat) : Nat :=
  if r.formed = 0 then frame - r.fromFrame.getD frame else frame - r.lastFrame - 1

/-- A record as it is formed: its bytes, where each held slot's bytes lie in it, and its flags. -/
structure Formed where
  bytes : List Byte := []
  spans : List (HeldSlot × Nat × Nat) := []
  flags : Nat := 0
  epoch : Nat := 0
  sof : Nat := 0
  deriving Repr, Inhabited

/-- Forms the record of a frame (R474, R475, Table 20.5). -/
def formBytes (d : Dev) (r : Recording) (h : HeldSlot) : Formed :=
  let sof := slotTime d h
  let t1 := (nextSof d r h).getD (sof + r.periodNs)
  let src := r.sources.find? fun x => x.number = h.frame
  let parts := r.tracks.map fun t =>
    if t.picture then match trackSlot r t h.frame with
      | some s => let e := pictureEssence d r.zeroAt t s; (t, some s, e.1, 0, e.2)
      | none => (t, none, [], 0, false)
    else let e := audioEssence d t sof t1; (t, none, e.1, e.2, false)
  let body := parts.foldl (fun (acc : List Byte × List (Nat × Nat)) p => (acc.1 ++ padBlock p.2.2.1, acc.2 ++ [(1 + acc.1.length / blockBytes, p.2.2.1.length)])) ([], [])
  let rows := (parts.zip body.2).flatMap fun e => le 4 e.2.1 ++ le 4 e.2.2 ++ le 4 e.1.2.2.2.1 ++ le 4 (crc32c e.1.2.2.1)
  let slotFlags := fun (s : HeldSlot) => u32 (pailRead d s.pail s.base 128) 12
  let concealed := parts.any fun p => match p.2.1 with
    | some s => (p.1.kind ∈ [2, 3, 4] && bit (slotFlags s) 3) || (p.1.kind = 5 && bit (slotFlags s) 0)
    | none => false
  let exhausted := parts.any fun p => match p.2.1 with
    | some s => p.1.kind ∈ [3, 4] && bit (slotFlags s) 6
    | none => false
  let missing := parts.any fun p => p.1.picture && p.2.1.isNone
  let f := match src with
    | some x => boolNat (bit x.flags 0) + 2 * boolNat (bit x.flags 5) + 4 * boolNat (bit x.flags 7) + 0x80 * boolNat (bit x.flags 8)
    | none => 0
  let flags := f + 8 * boolNat concealed + 0x10 * boolNat exhausted + 0x20 * boolNat (parts.any fun p => p.2.2.2.2) + 0x40 * boolNat missing
  let epoch := match src with
    | some x => x.epoch
    | none => u32 (pailRead d h.pail h.base 128) 16
  let dropped := r.droppedBefore h.frame
  let notes := (match src with
      | some x => metaEntry 1 x.bytes
      | none => [])
    ++ (indexed parts).flatMap fun e => match e.2.2.1 with
      | some s => if e.2.1.kind = 1 then [] else metaEntry 2 (le 1 e.1 ++ le 3 0 ++ pailRead d s.pail s.base 128)
      | none => []
  let domain := (r.tracks.head?).elim 5 (trackDomain d)
  let head := le 4 0x4D415246 ++ le 4 r.clip ++ le 8 r.formed ++ le 8 h.frame ++ le 4 flags ++ le 4 epoch ++ fullTimeBytes (fullTime sof) ++ le 1 domain ++ le 3 0
    ++ le 8 (timecodeAt d sof) ++ le 4 dropped ++ le 4 (1 + body.1.length / blockBytes) ++ (rows ++ List.replicate 128 0).take 128
    ++ (notes ++ List.replicate 3900 0).take 3900
  { bytes := withCrc head ++ body.1, flags, epoch, sof
    spans := (parts.zip body.2).filterMap fun e => e.1.2.1.map fun s => (s, e.2.1, ceilDiv e.2.2 blockBytes) }

/-- RECORD_FRAME_DROPPED, at most one a second for a recording (R467). -/
def recordDropped (n dropped : Nat) (d : Dev) : Dev :=
  let d := d.onRecording n fun r => { r with droppedSince := r.droppedSince + dropped }
  match recordingOf d n with
  | none => d
  | some r =>
    let quiet : Bool := match r.dropEvent with
      | some t => d.now < t + 1000000000
      | none => false
    if r.droppedSince = 0 || quiet then d
    else raise 0x1087 3 (reelObj n) (le 2 (reelObj n) ++ le 4 r.clip ++ le 4 r.droppedSince)
      (d.onRecording n fun r => { r with dropEvent := some d.now, droppedSince := 0 })

/-- A recording forms no more records: what waits is discarded (R467, R469, Table 20.9). -/
def endRecording (n reason : Nat) (d : Dev) : Dev :=
  let d := releaseWaiting n d
  d.onRecording n fun r => { r with ending := true, endReason := if r.ending then r.endReason else reason }

/-- The record of the oldest waiting frame of track 0 is formed, when it can be (R465, R467). -/
def formRecord (n : Nat) (d : Dev) : Dev :=
  match recordingOf d n, mapGet d.mag.pack.reels n with
  | some r, some reel => match nextFrameOf r with
    | none => d
    | some h =>
      if r.ending || !recordReady d r h then d
      else
        let f := formBytes d r h
        let blocks := f.bytes.length / blockBytes
        if r.endLba + blocks > reel.blocks then
          raise 0x1086 2 (reelObj n) (le 2 (reelObj n) ++ le 4 r.clip ++ le 4 r.formed)
            (endRecording n 1 (d.onRecording n fun r => { r with full := true }))
        else
          let dropped := r.droppedBefore h.frame
          let (d, ids) := stageBlocks 0 reel r.endLba f.bytes d
          let acreId := fun (k : Nat) => ids.getD ((r.endLba + k) / 64 - r.endLba / 64) 0
          let taken := r.waiting.filter fun x => x.frame ≤ h.frame
          let holds := taken.map fun x => (x, match f.spans.find? fun s => s.1 = x with
            | some (_, off, len) => ((List.range len).map fun k => acreId (off + k)).dedup
            | none => [])
          let clipBits := boolNat (dropped ≠ 0) + 2 * boolNat (bit f.flags 0) + 4 * boolNat (bit f.flags 3) + 8 * boolNat (bit f.flags 5) + 16 * boolNat (bit f.flags 4)
          let d := d.onRecording n fun r =>
            { r with endLba := r.endLba + blocks, formed := r.formed + 1, lastFrame := h.frame, pending := r.pending ++ [{ index := r.formed, acres := ids, holds }]
                     waiting := r.waiting.filter fun x => x.frame > h.frame, sources := r.sources.filter fun x => x.number > h.frame
                     faultAt := [], zeroAt := [] }
          let d := d.onClip n r.clip fun c =>
            { c with records := c.records + 1, endLba := c.endLba + blocks, flags := c.flags ||| clipBits
                     firstFrame := if r.formed = 0 then h.frame else c.firstFrame, firstEpoch := if r.formed = 0 then f.epoch else c.firstEpoch
                     startTime := if r.formed = 0 then fullTime f.sof else c.startTime }
          placeFull (recordDropped n dropped d)
  | _, _ => d

/-! ## Starting, stopping, closing -/

/-- A recording starts a clip (R464, R471, R476): its directory entry and the superblock are written. -/
def startRecording (n session : Nat) (tracks : List Track) (name : List Byte) (fromFrame : Option Nat) (d : Dev) : Dev :=
  match mapGet d.mag.pack.reels n with
  | none => d
  | some r => match goodSuperblock d r with
    | none => d
    | some sb =>
      let period := (tracks.head?).elim 0 (trackPeriod d)
      let full := tracks.map fun t => if t.picture then describeTrack d t else describeAudio d period t
      let clip := u32 sb 68 + 1
      let start := roundUp (u64 sb 80) 64
      let c : Clip := { clip, state := 1, domain := (tracks.head?).elim 5 (trackDomain d), startLba := start, endLba := start, periodNs := period, tracks := full, name }
      let d := d.onReel n fun r => { r with clips := r.clips.filter (fun x => x.clip < clip) ++ [c], opened := true }
      let d := d.onMag fun m => { m with recordings := m.recordings ++
        [{ reel := n, clip, tracks := full, session, fromFrame, endLba := start, periodNs := period, lastDirectory := d.now }] }
      placeFull (writeSuperblock n (writeEntry n clip d).1).1

/-- Some frame of a recording's source before its stop is still on its way. -/
def stopPending (d : Dev) (r : Recording) (s : Nat) : Bool :=
  (r.waiting.any fun h => h.frame < s)
  || (match r.tracks.head? with
    | none => false
    | some t =>
      (match trackStream d t with
        | some n => (match furrowOf d n with
            | some (i, _) => ((d.furrow i).current.toList ++ (d.furrow i).ending).any fun f => f.number < s
            | none => false)
          || (t.kind ≠ 1 && (d.stream n).work.any fun w => w.number < s)
        | none => false)
      || (match t.kind with
        | 3 | 4 => match mapGet d.codecs.encoders (objIndex t.source) with
          | some e => e.frames.any fun f => f.number < s
          | none => false
        | _ => false)
      || (match trackDecoder d t with
        | some q => match mapGet d.codecs.decoders q with
          | some x => x.decoding.isSome
          | none => false
        | none => false))

/-- The source of track 0 has been released: its stream is not admitted any more, or its session is closed. -/
def sourceGone (d : Dev) (r : Recording) : Bool := match r.tracks.head? with
  | none => false
  | some t => match trackStream d t, trackDecoder d t with
    | some n, _ => (d.stream n).admission ≠ .admitted
    | none, some q => match mapGet d.codecs.decoders q with
      | some x => x.closing
      | none => true
    | none, none => true

/-- A recording's records that became durable let their slots go (R465). -/
def releaseDurable (n : Nat) (d : Dev) : Dev := match recordingOf d n with
  | none => d
  | some r =>
    let free := fun (ids : List Nat) => !stillPending d ids
    let gone := r.pending.flatMap fun p => p.holds.filter fun h => free h.2
    let left := r.pending.map fun p => { p with holds := p.holds.filter fun h => !free h.2 }
    let done := left.takeWhile fun p => free p.acres
    let d := gone.foldl (fun d h => dropSlot h.1.source h.1.slot (reelObj n) d) d
    d.onRecording n fun r => { r with pending := left.drop done.length, durable := r.durable + done.length }

/-- A clip closes: its directory entry and the superblock are written (R476). -/
def closeClip (n : Nat) (d : Dev) : Dev := match recordingOf d n with
  | none => d
  | some r =>
    let d := d.onClip n r.clip fun c => { c with state := 2, endReason := r.endReason }
    let d := d.onReel n fun x => { x with opened := false, nextLba := r.endLba }
    let (d, a) := writeEntry n r.clip d
    let (d, b) := writeSuperblock n d
    placeFull (d.onRecording n fun r => { r with closing := a ++ b })

/-- CLIP_CLOSED once a closed clip is durable; REEL_RECORD_STOP completes (R478, Table 20.7). -/
def clipClosed (n : Nat) (d : Dev) : Dev := match recordingOf d n with
  | none => d
  | some r =>
    let d := d.onMag fun m => { m with recordings := m.recordings.filter fun x => x.reel ≠ n }
    let d := raise 0x1088 0 (reelObj n) (le 2 (reelObj n) ++ le 4 r.clip ++ le 1 r.endReason ++ le 1 0 ++ le 4 r.formed) d
    match r.stopCmd with
    | some c => completeCmd c .ok d
    | none => d

/-- What has come due for a recording: its last frame, its durable records, its closing. -/
def settleRecording (d : Dev) (n : Nat) : Dev :=
  let d := releaseDurable n d
  match recordingOf d n with
  | none => d
  | some r =>
    let done : Bool := match r.stopAt with
      | some s => !r.ending && !stopPending d r s
      | none => false
    let d := if done then endRecording n r.endReason d
      else if !r.ending && sourceGone d r && !stopPending d r (2 ^ 64) then endRecording n 4 d else d
    match recordingOf d n with
    | none => d
    | some r =>
      if !r.ending || !r.pending.isEmpty then d
      else if r.closing.isEmpty then closeClip n d
      else if stillPending d r.closing then d
      else clipClosed n d

/-- Every recording settles. -/
def settleRecordings (d : Dev) : Dev := (d.mag.recordings.map (·.reel)).foldl settleRecording d

/-- The first frame that a stop keeps out: the frame E of a staged stop, or the frame after the current one (Table 20.7). -/
def stopFrame (d : Dev) (r : Recording) (txn : Nat) : Nat :=
  match (r.tracks.head?).bind (trackStream d) with
  | some n =>
    let timed : Bool := d.ctl.commits.any fun c => c.txn = txn && c.anchorLine = .stream n
    (d.stream n).frame + (if timed then 0 else 1)
  | none => match ((r.tracks.head?).bind (trackDecoder d)).bind (mapGet d.codecs.decoders) with
    | some q => q.nextFrame
    | none => 0

/-- A recording stops: mode 0 after its current record, mode 1 at once. -/
def stopRecording (n mode reason txn : Nat) (cmd : Option PendingCmd) (d : Dev) : Dev := match recordingOf d n with
  | none => d
  | some r =>
    let d := d.onRecording n fun r => { r with stopCmd := cmd.orElse fun _ => r.stopCmd }
    let d := if mode = 1 then endRecording n reason d
      else if r.ending || r.stopAt.isSome then d
      else d.onRecording n fun r => { r with stopAt := some (stopFrame d r txn), endReason := reason }
    settleRecording d n

end Sys2Proof.Machine
end

