-- ==== Sys2Proof/Machine/Nvme.lean ====
section
/-! DEFINITION. The NVMe host interface (chapter 21): exposure of reels, admin and I/O commands, staged writes and deferred write
errors, and the settling of everything that waits for the magazine. Status codes and data layouts that R479 to R494 name by NVMe's
terms take NVMe 2.0's numbers (PRESUMED). -/

namespace Sys2Proof.Machine

/-- NVMe status: type, code, do not retry. -/
structure NvmeStatus where
  sct : Nat := 0
  sc : Nat := 0
  dnr : Bool := false
  deriving DecidableEq, Repr, Inhabited

/-- A generic status with DNR set. -/
abbrev NvmeStatus.generic (sc : Nat) : NvmeStatus := { sc, dnr := true }
/-- Success. -/
abbrev nvmeOk : NvmeStatus := {}
/-- Invalid Field in Command. -/
abbrev invalidField : NvmeStatus := .generic 0x02
/-- Invalid Namespace or Format. -/
abbrev invalidNamespace : NvmeStatus := .generic 0x0B
/-- Namespace is Write Protected. -/
abbrev writeProtected : NvmeStatus := .generic 0x20
/-- Namespace Not Ready, DNR clear (R493). -/
abbrev notReady : NvmeStatus := { sc := 0x82 }
/-- DEFERRED_WRITE_ERROR, DNR clear (R490). -/
abbrev deferredWriteError : NvmeStatus := { sct := 7, sc := 0x80 }

/-- A command completes. -/
def nvmeComplete (sqid cid : Nat) (st : NvmeStatus) (d : Dev) (dw0 : Nat := 0) (data : List Byte := []) : Dev :=
  d.onNvme fun n => { n with completions := { sqid, cid, sct := st.sct, sc := st.sc, dnr := st.dnr, dw0, data } :: n.completions }

/-- An asynchronous event completes the oldest outstanding request, or waits for one. -/
def nvmeEvent (type info page : Nat) (d : Dev) : Dev := match d.nvme.aers with
  | cid :: rest => nvmeComplete 0 cid nvmeOk (d.onNvme fun n => { n with aers := rest }) (dw0 := type + info * 256 + page * 65536)
  | [] => d.onNvme fun n => { n with aerPending := n.aerPending ++ [(type, info, page)] }

/-! ## Exposure (R485, R493) -/

/-- The exposure mode of a reel (Table 21.3): kept by its UUID. -/
def modeOf (d : Dev) (r : Reel) : Nat := mapGetD d.mag.exposure r.uuid 0

/-- The exposure mode of an NSID while the magazine is in use. -/
def nsMode (d : Dev) (n : Nat) : Nat := (reelOf d n).elim 0 (modeOf d)

/-- REEL_EXPOSURE_CHANGED, with the Changed Namespace List and its event (R485). -/
def exposureChanged (n old new source : Nat) (d : Dev) : Dev :=
  if old = new then d
  else
    let d := d.onMag fun m => { m with attached := if new = 0 then mapDel m.attached n else mapSet m.attached n new }
    let d := d.onNvme fun x => { x with changed := if n ∈ x.changed then x.changed else x.changed ++ [n] }
    raise 0x108A 1 (reelObj n) (le 2 (reelObj n) ++ le 1 old ++ le 1 new ++ le 1 source ++ le 3 0) (nvmeEvent 2 0 4 d)

/-- A reel's exposure mode is set. -/
def setExposure (n mode source : Nat) (d : Dev) : Dev := match mapGet d.mag.pack.reels n with
  | none => d
  | some r => exposureChanged n (modeOf d r) mode source (d.onMag fun m => { m with exposure := mapSet m.exposure r.uuid mode })

/-- The namespaces a host sees follow the reels at a mount, or are all detached at the end of an eject (R493). -/
def reattach (d : Dev) : Dev :=
  let old := d.mag.attached
  let new := if magUsable d then (d.mag.pack.reels.map fun e => (e.1, modeOf d e.2)).filter fun e => e.2 ≠ 0 else []
  let ids := ((old ++ new).map (·.1)).dedup
  ids.foldl (fun d n => exposureChanged n (mapGetD old n 0) (mapGetD new n 0) 2 d) d

/-! ## Reels -/

/-- The lowest NSID that no reel has. -/
def freeNsid (d : Dev) : Option Nat := ((List.range 256).map (· + 1)).find? fun n => (mapGet d.mag.pack.reels n).isNone

/-- The first LBA after a directory of `n` entries, in whole acres (R471). -/
def dataLbaOf (maxClips : Nat) : Nat := roundUp (64 + ceilDiv maxClips 16) 64

/-- A reel is made (R471, R484). Its UUID is a free value. -/
def createReel (n blocks maxClips : Nat) (extents : List (Nat × Nat)) (name : List Byte) (d : Dev) : Dev :=
  let (k, d) := takeFree d
  let r : Reel := { uuid := Config.freeNat k 0 % 2 ^ 128, name, blocks, extents, maxClips, dataLba := dataLbaOf maxClips, nextLba := dataLbaOf maxClips
                    created := fullTime (domainNow d 5), domain := 5 }
  let d := clearCounters (reelObj n) (d.onPack fun p => { p with reels := mapSet p.reels n r })
  placeFull (writeSuperblock n d).1

/-- A reel goes: its acres are deallocated, and what is listed of its blocks (R477, R492). An exposed one leaves its mode first; `source`
is 0 for REEL_DELETE and 1 for Namespace Management. -/
def deleteReel (source n : Nat) (d : Dev) : Dev := match mapGet d.mag.pack.reels n with
  | none => d
  | some r =>
    let d := setExposure n 0 source d
    let acres := r.extents.flatMap fun e => (List.range e.2).map (e.1 + ·)
    let live := acres.filter fun a => (mapGet d.mag.pack.map a).isSome || (newestWrite d a).isSome
    let d := live.foldl (fun d a => (deallocAcre a d).1) d
    let d := d.onPack fun p => { p with reels := mapDel p.reels n }
    let d := d.onMag fun m => { m with exposure := mapDel m.exposure r.uuid }
    dropOwner (reelObj n) (d.onNvme fun x => { x with unrecovered := x.unrecovered.filter fun e => e.1 ≠ n })

/-! ## Deferred write errors (R489 to R491) -/

/-- A further entry of log C0h: a full log first displaces its oldest entry that carries REPORTED_FLUSH. -/
def logDeferred (e : DeferredError) (d : Dev) : Dev :=
  let l := d.nvme.errors
  let room := if l.length < 256 then some l else match l.find? (·.reportedFlush) with
    | some old => some (l.filter fun x => x.seq ≠ old.seq)
    | none => none
  match room with
  | some l => d.onNvme fun n => { n with errors := l ++ [{ e with seq := n.nextErrorSeq }], nextErrorSeq := n.nextErrorSeq + 1 }
  | none => count (reelObj e.nsid) 2 1 (d.onNvme fun n => { n with errorsLost := min (n.errorsLost + 1) (2 ^ 32 - 1), nextErrorSeq := n.nextErrorSeq + 1 })

/-- An acknowledged write can never become durable (R490). -/
def deferWrite (w : StagedWrite) (cause : Nat) (d : Dev) : Dev :=
  let d := logDeferred { nsid := w.nsid, sqid := w.sqid, cid := w.cid, slba := w.slba, blocks := w.blocks, cause } d
  let d := d.onNvme fun n => { n with latched := if w.nsid ∈ n.latched then n.latched else w.nsid :: n.latched }
  let d := nvmeEvent 7 0x80 0xC0 (count (reelObj w.nsid) 0 1 d)
  raise 0x1089 3 (reelObj w.nsid) (le 2 (reelObj w.nsid) ++ le 1 cause ++ le 1 0 ++ le 8 w.slba ++ le 4 w.blocks) d

/-- The namespaces a Flush flushes. -/
def flushes (nsid target : Nat) : Bool := nsid = 0xFFFFFFFF || nsid = target

/-- A Flush completes: with DEFERRED_WRITE_ERROR while some entry of its namespaces lacks REPORTED_FLUSH, or entries were lost. -/
def finishFlush (sqid cid nsid : Nat) (d : Dev) : Dev :=
  let open0 := d.nvme.errors.any fun e => flushes nsid e.nsid && !e.reportedFlush
  if open0 || d.nvme.errorsLost ≠ 0 then
    nvmeComplete sqid cid deferredWriteError (d.onNvme fun n =>
      { n with errors := n.errors.map fun e => if flushes nsid e.nsid then { e with reportedFlush := true } else e })
  else nvmeComplete sqid cid nvmeOk d

/-- Staged writes that became durable leave; one that waited for it completes. Flushes with nothing left to wait for complete
(R487, R490). -/
def settleHostWrites (d : Dev) : Dev :=
  let done := d.nvme.staged.filter fun w => !stillPending d w.acres
  let d := done.foldl (fun d w => if w.acked || w.orphan then d else nvmeComplete w.sqid w.cid nvmeOk d) d
  let d := d.onNvme fun n => { n with staged := n.staged.filter fun w => stillPending d w.acres }
  let ready := d.nvme.flushes.filter fun f => f.writes.all fun o => d.nvme.staged.all fun w => w.order ≠ o
  let d := d.onNvme fun n => { n with flushes := n.flushes.filter fun f => f ∉ ready }
  ready.foldl (fun d f => finishFlush f.sqid f.cid f.nsid d) d

/-- Host writes that an acre write carried are given up (R489). -/
def giveUp (ids : List Nat) (cause : Nat) (st : NvmeStatus) (d : Dev) : Dev :=
  let lost := d.nvme.staged.filter fun w => w.acres.any (· ∈ ids)
  let d := d.onNvme fun n => { n with staged := n.staged.filter fun w => !w.acres.any (· ∈ ids) }
  lost.foldl (fun d w => if w.acked then deferWrite w cause d else if w.orphan then d else nvmeComplete w.sqid w.cid st d) d

/-! ## Settling of the magazine -/

/-- An eject ends once everything is durable (R469, R493). -/
def settleEject (d : Dev) : Dev :=
  if d.mag.state = .ejecting && d.mag.recordings.isEmpty && d.mag.writes.isEmpty && d.nvme.staged.isEmpty && d.nvme.flushes.isEmpty then
    let cmd := d.mag.eject
    let d := checkpoint d
    let d := d.onMag fun m => { m with state := .absent, powerOn := false, eject := none, worn := false, freeLow := false, pack := { m.pack with clean := true } }
    let d := setCounter 0 8 0 (reattach d)
    match cmd with
    | some c => completeCmd c .ok d
    | none => d
  else d

/-- What became durable reaches the media, records, host writes and an eject (R459, R465, R469, R487); the dies go on (R462). -/
def settleMag (d : Dev) : Dev := syncInternal (settleEject (settleHostWrites (settleRecordings (serveDies (mergeDurable d)))))

/-! ## Admin commands (R480, Table 21.2) -/

/-- CAP.MQES: queues have up to one entry more (Table 21.1). -/
abbrev capMqes : Nat := 4095

/-- The CAP property (Table 21.1): MQES, CQR, AMS, TO, DSTRD, MPSMIN and MPSMAX, with the NVM command set. -/
def capProperty : Nat := capMqes + 2 ^ 16 + 2 ^ 17 + 4 * 2 ^ 24 + 0 * 2 ^ 32 + 2 ^ 37 + 0 * 2 ^ 48 + 4 * 2 ^ 52

/-- A queue's size is one that the controller supports. -/
def queueSizeOk (size : Nat) : Bool := within size 2 (capProperty % 2 ^ 16 + 1)

/-- A new completion queue. -/
def createCq (cid qid size : Nat) (d : Dev) : Dev :=
  if !within qid 1 64 || (mapGet d.nvme.cqs qid).isSome then nvmeComplete 0 cid { sct := 1, sc := 1, dnr := true } d
  else if !queueSizeOk size then nvmeComplete 0 cid { sct := 1, sc := 2, dnr := true } d
  else nvmeComplete 0 cid nvmeOk (d.onNvme fun n => { n with cqs := mapSet n.cqs qid size })

/-- A new submission queue on an existing completion queue. -/
def createSq (cid qid size cqid prio : Nat) (d : Dev) : Dev :=
  if !within qid 1 64 || (mapGet d.nvme.sqs qid).isSome then nvmeComplete 0 cid { sct := 1, sc := 1, dnr := true } d
  else if (mapGet d.nvme.cqs cqid).isNone then nvmeComplete 0 cid { sct := 1, sc := 0, dnr := true } d
  else if !queueSizeOk size then nvmeComplete 0 cid { sct := 1, sc := 2, dnr := true } d
  else if prio > 3 then nvmeComplete 0 cid invalidField d
  else nvmeComplete 0 cid nvmeOk (d.onNvme fun n => { n with sqs := mapSet n.sqs qid { cq := cqid, prio, size } })

/-- A submission queue goes; its flushes and unacknowledged writes complete no more. -/
def deleteSq (cid qid : Nat) (d : Dev) : Dev :=
  if (mapGet d.nvme.sqs qid).isNone then nvmeComplete 0 cid { sct := 1, sc := 1, dnr := true } d
  else nvmeComplete 0 cid nvmeOk (d.onNvme fun n => { n with sqs := mapDel n.sqs qid, flushes := n.flushes.filter fun f => f.sqid ≠ qid, blocked := n.blocked.filter fun e => e.1 ≠ qid
                                                             staged := n.staged.map fun w => if w.sqid = qid then { w with orphan := !w.acked } else w })

/-- A completion queue goes once no submission queue uses it. -/
def deleteCq (cid qid : Nat) (d : Dev) : Dev :=
  if (mapGet d.nvme.cqs qid).isNone then nvmeComplete 0 cid { sct := 1, sc := 1, dnr := true } d
  else if d.nvme.sqs.any fun e => e.2.cq = qid then nvmeComplete 0 cid { sct := 1, sc := 0x0C, dnr := true } d
  else nvmeComplete 0 cid nvmeOk (d.onNvme fun n => { n with cqs := mapDel n.cqs qid })

/-- A page with some fields given; every other byte is a free value, named by its offset. -/
def freePage (k n : Nat) (fields : List (Nat × List Byte)) : List Byte :=
  (List.range n).map fun o => match fields.find? fun f => f.1 ≤ o && o < f.1 + f.2.length with
    | some f => f.2.getD (o - f.1) 0
    | none => byte (Config.freeNat k o)

/-- An entry of log C0h (Table 21.4). -/
def DeferredError.bytes (e : DeferredError) : List Byte :=
  le 8 e.seq ++ le 4 e.nsid ++ le 2 e.sqid ++ le 2 e.cid ++ le 8 e.slba ++ le 4 e.blocks ++ le 1 e.cause
    ++ le 1 (boolNat e.reportedCmd + 2 * boolNat e.reportedFlush) ++ le 2 0

/-- A list of NSIDs as a 4 KiB page. -/
def nsidList (l : List Nat) : List Byte := ((l.flatMap (le 4)) ++ List.replicate 4096 0).take 4096

/-- The Error Information log, newest first. -/
def errorPage (d : Dev) : List Byte :=
  (List.range 64).flatMap fun i => match d.nvme.errorLog[i]? with
    | some (qc, nsid, lba) => le 8 (d.nvme.errorCount - i) ++ le 2 (qc / 65536) ++ le 2 (qc % 65536) ++ le 2 (0x281 * 2) ++ le 2 0 ++ le 8 lba ++ le 4 nsid ++ List.replicate 36 0
    | none => List.replicate 64 0

/-- Get Log Page (R480, R490, R492). -/
def getLogPage (cid lid bytes : Nat) (rae : Bool) (d : Dev) : Dev :=
  let n := d.nvme
  let done := fun (data : List Byte) (d : Dev) => nvmeComplete 0 cid nvmeOk d (data := data.take bytes)
  match lid with
  | 0x01 => done (errorPage d) d
  | 0x02 => let (k, d) := takeFree d; done (freePage k 512 []) d
  | 0x04 => done (nsidList n.changed) (if rae then d else d.onNvme fun n => { n with changed := [] })
  | 0xC0 =>
    let page := le 4 n.errors.length ++ le 4 n.errorsLost ++ le 8 0 ++ n.errors.flatMap DeferredError.bytes
    let returned := (bytes - 16) / 32
    let d := if rae then d else d.onNvme fun n =>
      { n with errors := (n.errors.take returned).filter (fun e => !e.reportedFlush) ++ n.errors.drop returned, errorsLost := 0 }
    done page d
  | 0xC1 => done (le 4 n.unrecovered.length ++ le 4 n.unrecoveredLost ++ le 8 0 ++ n.unrecovered.flatMap fun e => le 4 e.1 ++ le 4 0 ++ le 8 e.2) d
  | _ => nvmeComplete 0 cid invalidField d

/-- Identify of the controller (Table 21.1). -/
def identifyController (k : Nat) : List Byte :=
  freePage k 4096 [(77, [8]), (80, le 4 0x20000), (256, le 2 8), (259, [3]), (516, le 4 256), (520, le 2 0x0C), (525, [1]), (526, le 2 0), (528, le 2 0), (536, le 4 0)]

/-- Identify of a namespace (Table 21.1, R484, R485). -/
def identifyNamespace (k : Nat) (mode : Nat) (r : Reel) : List Byte :=
  freePage k 4096 [(0, le 8 r.blocks), (8, le 8 r.blocks), (25, [0]), (26, [0]), (29, [0]), (34, le 2 0), (36, le 2 0), (64, le 2 63), (66, le 2 63), (68, le 2 63), (70, le 2 63)
    , (72, le 2 63), (99, [byte (boolNat (mode = 1))]), (128, le 4 (12 * 65536))]

/-- NSIDs of reels above one, with a property of their mode. -/
def nsidsAbove (d : Dev) (n : Nat) (p : Nat → Bool) : List Nat :=
  if magUsable d then (d.mag.pack.reels.filter fun e => e.1 > n && p (modeOf d e.2)).map (·.1) else []

/-- Identify (R480). -/
def identify (cid cns nsid : Nat) (d : Dev) : Dev :=
  let (k, d) := takeFree d
  let done := fun (data : List Byte) => nvmeComplete 0 cid nvmeOk d (data := data)
  let zeros := List.replicate 4096 (0 : Byte)
  match cns with
  | 0x00 => match reelOf d nsid with
    | some r => done (if modeOf d r = 0 then zeros else identifyNamespace k (modeOf d r) r)
    | none => if within nsid 1 256 then done zeros else nvmeComplete 0 cid invalidNamespace d
  | 0x01 => done (identifyController k)
  | 0x02 => done (nsidList (nsidsAbove d nsid (· ≠ 0)))
  | 0x03 => match reelOf d nsid with
    | some r => if modeOf d r = 0 then nvmeComplete 0 cid invalidNamespace d
      else done ((([3, 16, 0, 0] : List Byte) ++ le 16 r.uuid ++ zeros).take 4096)
    | none => nvmeComplete 0 cid invalidNamespace d
  | 0x10 => done (nsidList (nsidsAbove d nsid fun _ => true))
  | 0x11 => match reelOf d nsid with
    | some r => done (identifyNamespace k (modeOf d r) r)
    | none => if within nsid 1 256 then done zeros else nvmeComplete 0 cid invalidNamespace d
  | 0x12 => done ((le 2 (boolNat (nsMode d nsid ≠ 0)) ++ zeros).take 4096)
  | _ => nvmeComplete 0 cid invalidField d

/-- Abort (R480): a request that waits completes as aborted. -/
def nvmeAbort (cid sqid target : Nat) (d : Dev) : Dev :=
  let n := d.nvme
  let gone : NvmeStatus := { sc := 7 }
  if sqid = 0 && target ∈ n.aers then
    nvmeComplete 0 cid nvmeOk (nvmeComplete 0 target gone (d.onNvme fun n => { n with aers := n.aers.filter (· ≠ target) }))
  else if n.flushes.any fun f => f.sqid = sqid && f.cid = target then
    nvmeComplete 0 cid nvmeOk (nvmeComplete sqid target gone (d.onNvme fun n => { n with flushes := n.flushes.filter fun f => !(f.sqid = sqid && f.cid = target) }))
  else nvmeComplete 0 cid nvmeOk d (dw0 := 1)

/-- The features kept (R480). -/
def featureIds : List Nat := [0x01, 0x04, 0x07, 0x08, 0x0B]

/-- Set Features. Number of Queues answers the 64 and 64 that the controller has. -/
def setFeatures (cid fid value : Nat) (d : Dev) : Dev :=
  if fid ∉ featureIds then nvmeComplete 0 cid invalidField d
  else if fid = 7 then nvmeComplete 0 cid nvmeOk d (dw0 := 63 * 65536 + 63)
  else nvmeComplete 0 cid nvmeOk (d.onNvme fun n => { n with features := mapSet n.features fid (value % 2 ^ 32) })

/-- Get Features. -/
def getFeatures (cid fid : Nat) (d : Dev) : Dev :=
  if fid ∉ featureIds then nvmeComplete 0 cid invalidField d
  else nvmeComplete 0 cid nvmeOk d (dw0 := if fid = 7 then 63 * 65536 + 63 else mapGetD d.nvme.features fid 0)

/-- Asynchronous Event Request: at most four are outstanding (Table 21.1). -/
def asyncRequest (cid : Nat) (d : Dev) : Dev :=
  if d.nvme.aers.length ≥ 4 then nvmeComplete 0 cid { sct := 1, sc := 5, dnr := true } d
  else
    let d := d.onNvme fun n => { n with aers := n.aers ++ [cid] }
    match d.nvme.aerPending with
    | (t, i, p) :: rest => nvmeEvent t i p (d.onNvme fun n => { n with aerPending := rest })
    | [] => d

/-- Namespace Management, create (R484). -/
def namespaceCreate (cid nsze ncap flbas : Nat) (d : Dev) : Dev :=
  if nsze ≠ ncap || nsze % 64 ≠ 0 || nsze = 0 || flbas ≠ 0 then nvmeComplete 0 cid invalidField d
  else if d.mag.state ≠ .mounted || !d.mag.pack.formatted then nvmeComplete 0 cid notReady d
  else match freeNsid d, allocAcres d.mag.pack (nsze / 64) with
    | none, _ => nvmeComplete 0 cid { sct := 1, sc := 0x16, dnr := true } d
    | _, none => nvmeComplete 0 cid { sct := 1, sc := 0x15, dnr := true } d
    | some n, some e => nvmeComplete 0 cid nvmeOk (createReel n nsze 1024 e [] d) (dw0 := n)

/-- Namespace Management, delete (R484). -/
def namespaceDelete (cid nsid : Nat) (d : Dev) : Dev :=
  match reelOf d nsid with
  | none => nvmeComplete 0 cid invalidNamespace d
  | some _ => if (recordingOf d nsid).isSome then nvmeComplete 0 cid (.generic 0x0C) d
    else nvmeComplete 0 cid nvmeOk (settleMag (deleteReel 1 nsid d))

/-- Namespace Attachment (R485): attach sets mode 2, detach mode 0. -/
def namespaceAttach (cid nsid : Nat) (on : Bool) (d : Dev) : Dev :=
  match reelOf d nsid with
  | none => nvmeComplete 0 cid invalidNamespace d
  | some r =>
    if on && modeOf d r ≠ 0 then nvmeComplete 0 cid { sct := 1, sc := 0x18, dnr := true } (setExposure nsid 2 1 d)
    else if !on && modeOf d r = 0 then nvmeComplete 0 cid { sct := 1, sc := 0x1A, dnr := true } d
    else nvmeComplete 0 cid nvmeOk (setExposure nsid (if on then 2 else 0) 1 d)

/-! ## I/O commands -/

/-- Why an I/O command to a namespace is not executed (R485, R486, R493). -/
def ioRefusal (d : Dev) (nsid slba nlb : Nat) (writes : Bool) : Option NvmeStatus :=
  if d.mag.state ≠ .mounted then some (if nsid ∈ d.nvme.latched || mapGetD d.mag.attached nsid 0 ≠ 0 || nsMode d nsid ≠ 0 then notReady else invalidNamespace)
  else match reelOf d nsid with
    | none => some invalidNamespace
    | some r =>
      if modeOf d r = 0 then some invalidNamespace
      else if writes && (modeOf d r = 1 || (recordingOf d nsid).isSome) then some writeProtected
      else if slba + nlb > r.blocks then some (.generic 0x80)
      else if nlb > 256 then some invalidField
      else none

/-- The deferred latch answers the first command that would be accepted (R490). -/
def reportLatch (sqid cid nsid : Nat) (d : Dev) : Dev :=
  let n := d.nvme.errors.countP fun e => e.nsid = nsid && !e.reportedCmd
  nvmeComplete sqid cid deferredWriteError (d.onNvme fun x =>
    { x with latched := x.latched.filter (· ≠ nsid), errors := x.errors.map fun e => if e.nsid = nsid then { e with reportedCmd := true } else e }) (dw0 := n)

/-- An I/O command from a queue that exists: refused, answered by the latch, or executed on its reel. -/
def ioCommand (sqid cid nsid slba nlb : Nat) (writes : Bool) (run : Reel → Dev → Dev) (d : Dev) : Dev :=
  if (mapGet d.nvme.sqs sqid).isNone then d
  else match ioRefusal d nsid slba nlb writes with
    | some st => nvmeComplete sqid cid st d
    | none => if nsid ∈ d.nvme.latched then reportLatch sqid cid nsid d else match reelOf d nsid with
      | some r => run r d
      | none => d

/-- A host read passes on the dies that hold its acres (R462). -/
def passDies (r : Reel) (slba nlb : Nat) (d : Dev) : Dev :=
  let acres := ((List.range nlb).map fun k => r.acreOf (slba + k)).dedup
  let dies := (acres.filterMap fun a => if (newestWrite d a).isSome then none else (mapGet d.mag.pack.map a).map acreDie).dedup
  dies.foldl (fun d k => passDie k d) d

/-- A Read (R482, R486, R492). -/
def nvmeRead (sqid cid nsid slba nlb : Nat) (d : Dev) : Dev :=
  ioCommand sqid cid nsid slba nlb false (fun r d =>
    match d.nvme.unrecovered.find? fun e => e.1 = nsid && slba ≤ e.2 && e.2 < slba + nlb with
    | some e => nvmeComplete sqid cid { sct := 2, sc := 0x81, dnr := true } (d.onNvme fun n =>
        { n with errorLog := ((sqid * 65536 + cid, nsid, e.2) :: n.errorLog).take 64, errorCount := n.errorCount + 1 })
    | none => nvmeComplete sqid cid nvmeOk (count (reelObj nsid) 4 nlb (passDies r slba nlb d)) (data := readBlocks d r slba nlb)) d

/-- Written, zeroed or deallocated blocks leave the list of unrecovered ones (R492). -/
def recoverBlocks (nsid slba nlb : Nat) (d : Dev) : Dev :=
  d.onNvme fun n => { n with unrecovered := n.unrecovered.filter fun e => !(e.1 = nsid && slba ≤ e.2 && e.2 < slba + nlb) }

/-- A write is staged (R487); it is acknowledged at once unless it waits for durability. -/
def stageHost (sqid cid nsid slba nlb : Nat) (wait : Bool) (ids : List Nat) (d : Dev) : Dev :=
  let d := recoverBlocks nsid slba nlb d
  let d := d.onNvme fun n => { n with staged := n.staged ++ [{ nsid, sqid, cid, slba, blocks := nlb, acked := !wait, order := n.nextOrder, acres := ids }]
                                      nextOrder := n.nextOrder + 1 }
  let d := if wait then d else nvmeComplete sqid cid nvmeOk d
  settleMag (placeFull d)

/-- A Write (R487). -/
def nvmeWrite (sqid cid nsid slba nlb : Nat) (data : List Byte) (fua : Bool) (d : Dev) : Dev :=
  ioCommand sqid cid nsid slba nlb true (fun r d =>
    let bs := (data ++ List.replicate (nlb * blockBytes) 0).take (nlb * blockBytes)
    let (d, ids) := stageBlocks 1 r slba bs d
    stageHost sqid cid nsid slba nlb fua ids (count (reelObj nsid) 5 nlb d)) d

/-- Blocks are deallocated (R487): whole acres are freed, partly covered ones take zeros; the second value names the writes. -/
def deallocBlocks (nsid : Nat) (r : Reel) (slba nlb : Nat) (d : Dev) : Dev × List Nat :=
  let acres := ((List.range nlb).map fun k => (slba + k) / 64).dedup
  let d := recoverBlocks nsid slba nlb d
  acres.foldl (fun (x : Dev × List Nat) a =>
    let from0 := max slba (64 * a)
    let upto := min (slba + nlb) (64 * a + 64)
    if upto - from0 = 64 then
      let (d, ids) := deallocAcre (extentAcre r.extents a) x.1
      (d, x.2 ++ ids)
    else
      let (d, ids) := stageBlocks 1 r from0 (List.replicate ((upto - from0) * blockBytes) 0) x.1
      (d, x.2 ++ ids)) (d, [])

/-- Write Zeroes (R487). -/
def nvmeZeroes (sqid cid nsid slba nlb : Nat) (d : Dev) : Dev :=
  ioCommand sqid cid nsid slba nlb true (fun r d =>
    let (d, ids) := deallocBlocks nsid r slba nlb d
    stageHost sqid cid nsid slba nlb false ids d) d

/-- Dataset Management (R480, R487): only the deallocate attribute acts. -/
def nvmeDataset (sqid cid nsid : Nat) (ranges : List (Nat × Nat)) (deallocate : Bool) (d : Dev) : Dev :=
  ioCommand sqid cid nsid (maxOf (fun e => e.1 + e.2) ranges) 0 deallocate (fun r d =>
    let d := if deallocate then ranges.foldl (fun d e => (deallocBlocks nsid r e.1 e.2 d).1) d else d
    settleMag (placeFull (nvmeComplete sqid cid nvmeOk d))) d

/-- A Flush (R487, R490): of one namespace, or of every one. -/
def nvmeFlush (sqid cid nsid : Nat) (d : Dev) : Dev :=
  let run := fun (d : Dev) =>
    let waits := (d.nvme.staged.filter fun w => flushes nsid w.nsid && w.acked).map (·.order)
    settleMag (d.onNvme fun n => { n with flushes := n.flushes ++ [{ sqid, cid, nsid, writes := waits }] })
  if nsid = 0xFFFFFFFF then (if (mapGet d.nvme.sqs sqid).isNone then d else if d.mag.state = .mounted then run d else nvmeComplete sqid cid notReady d)
  else ioCommand sqid cid nsid 0 0 false (fun _ d => run d) d

/-- The controller is disabled or reset (R494): its I/O queues go and complete nothing further; staged writes still become durable and
both logs stay. -/
def controllerDisable (d : Dev) : Dev :=
  d.onNvme fun n => { n with cqs := [], sqs := [], flushes := [], aers := [], aerPending := [], features := ({} : Nvme).features, held := [], blocked := []
                             turn := {}, staged := n.staged.map fun w => { w with orphan := !w.acked } }

/-! ## Fetching -/

/-- What an admin command does (Table 21.2). -/
def adminRun (cid : Nat) : NvmeAdmin → Dev → Dev
  | .createSq qid size cqid prio => createSq cid qid size cqid prio
  | .createCq qid size => createCq cid qid size
  | .deleteSq qid => deleteSq cid qid
  | .deleteCq qid => deleteCq cid qid
  | .getLogPage lid bytes rae => getLogPage cid lid bytes rae
  | .identify cns nsid => identify cid cns nsid
  | .abort sqid target => nvmeAbort cid sqid target
  | .setFeatures fid value => setFeatures cid fid value
  | .getFeatures fid => getFeatures cid fid
  | .asyncRequest => asyncRequest cid
  | .namespaceCreate nsze ncap flbas => namespaceCreate cid nsze ncap flbas
  | .namespaceDelete nsid => namespaceDelete cid nsid
  | .namespaceAttach nsid on => namespaceAttach cid nsid on
  | .invalid => nvmeComplete 0 cid (.generic 1)

/-- Firmware executes admin commands (R481): once the module is command-ready, and no more after a fatal condition (R515). In a fail-over
pause they wait. -/
def onAdmin (cid : Nat) (a : NvmeAdmin) (d : Dev) : Dev :=
  if !d.boot.ready || fatal d then d
  else if d.faults.paused then d.onNvme fun n => { n with held := n.held ++ [(cid, a)] }
  else adminRun cid a d

/-- The admin commands that waited for the end of a fail-over pause are executed (R481). -/
def runHeld (d : Dev) : Dev := d.nvme.held.foldl (fun d e => onAdmin e.1 e.2 d) (d.onNvme fun n => { n with held := [] })

/-- What an I/O command does (Table 21.2). -/
def ioRun (sqid cid : Nat) : NvmeIo → Dev → Dev
  | .read nsid slba nlb => nvmeRead sqid cid nsid slba nlb
  | .write nsid slba nlb data fua => nvmeWrite sqid cid nsid slba nlb data fua
  | .flush nsid => nvmeFlush sqid cid nsid
  | .zeroes nsid slba nlb => nvmeZeroes sqid cid nsid slba nlb
  | .dataset nsid ranges deallocate => nvmeDataset sqid cid nsid ranges deallocate
  | .invalid => fun d => if (mapGet d.nvme.sqs sqid).isSome then nvmeComplete sqid cid (.generic 1) d else d

/-- The host-write staging buffer has room for a command's data: it holds 256 MiB (R487). A command carries at most 1 MiB (Table 21.1). -/
def bufferRoom (d : Dev) : NvmeIo → Bool
  | .write _ _ nlb .. => (sumOf (fun w => w.blocks) d.nvme.staged + min nlb 256) * blockBytes ≤ 0x10000000
  | _ => true

/-! ## Queues and their turns (R482) -/

/-- The priority of a queue: 0 urgent, 1 high, 2 medium, 3 low. -/
def queuePrio (d : Dev) (sqid : Nat) : Nat := (mapGetD d.nvme.sqs sqid {}).prio

/-- Commands that the priority high, medium or low may have fetched in a round: the weights of the Arbitration feature, counted from 0
(PRESUMED, NVMe 2.0). -/
def roundWeight (d : Dev) (prio : Nat) : Nat := mapGetD d.nvme.features 1 0 / 2 ^ (32 - 8 * prio) % 256 + 1

/-- Commands that a queue may have fetched in its turn: 2 to the burst, or any number for 7. -/
def burstLimit (d : Dev) : Nat := let b := mapGetD d.nvme.features 1 0 % 8; if b = 7 then 2 ^ 32 else 2 ^ b

/-- The queue of a list that comes next in round-robin: the one served last while its burst lasts, then by ascending number. -/
def nextQueue (t : NvmeTurn) (l : List Nat) : Option Nat :=
  if t.last ∈ l && t.burst ≠ 0 then some t.last
  else ((List.range 65).map fun k => (t.last + 1 + k) % 65).find? (· ∈ l)

/-- The queue that the controller fetches from, of those whose first command it can fetch: urgent queues first, then high, medium and low
by their weights. -/
def arbitrate (d : Dev) (ready : List Nat) : Option Nat :=
  let t := d.nvme.turn
  let of := fun (p : Nat) => ready.filter fun q => queuePrio d q = p
  let weighted := ([1, 2, 3].find? fun p => !(of p).isEmpty && t.credit.getD (p - 1) 0 ≠ 0).orElse fun _ => [1, 2, 3].find? fun p => !(of p).isEmpty
  (nextQueue t (of 0)).orElse fun _ => weighted.bind fun p => nextQueue t (of p)

/-- A command is fetched from a queue: its burst and its priority's share of the round are charged. A new round begins when no share is
left. -/
def takeTurn (sqid : Nat) (d : Dev) : Dev :=
  let t := d.nvme.turn
  let p := queuePrio d sqid
  let burst := (if t.last = sqid && t.burst ≠ 0 then t.burst else burstLimit d) - 1
  let fresh := [roundWeight d 1, roundWeight d 2, roundWeight d 3]
  let credit := if p = 0 then t.credit else (if t.credit.getD (p - 1) 0 = 0 then fresh else t.credit).modify (p - 1) (· - 1)
  d.onNvme fun n => { n with turn := { last := sqid, burst, credit } }

/-- An I/O command is fetched and executed. A Write for which the staging buffer has no room is not fetched, nor is what follows it on its
queue, until there is (R487). -/
def ioFetch (sqid cid : Nat) (io : NvmeIo) (d : Dev) : Dev :=
  if (d.nvme.blocked.any fun e => e.1 = sqid) || !bufferRoom d io then
    if (mapGet d.nvme.sqs sqid).isNone then d else d.onNvme fun n => { n with blocked := n.blocked ++ [(sqid, cid, io)] }
  else ioRun sqid cid io (takeTurn sqid d)

/-- The first command that waits on a queue. -/
def firstBlocked (d : Dev) (sqid : Nat) : Option (Nat × Nat × NvmeIo) := d.nvme.blocked.find? fun e => e.1 = sqid

/-- One command that waited for room is fetched, if there is room for the first one of some queue: of the queue whose turn it is. -/
def fetchOne (d : Dev) : Dev :=
  let ready := ((d.nvme.blocked.map (·.1)).dedup).filter fun q => (firstBlocked d q).any fun e => bufferRoom d e.2.2
  match (arbitrate d ready).bind (firstBlocked d) with
  | some e => ioRun e.1 e.2.1 e.2.2 (takeTurn e.1 (d.onNvme fun n => { n with blocked := n.blocked.erase e }))
  | none => d

/-- The commands that waited for room are fetched as far as there is room now. -/
def fetchBlocked (d : Dev) : Dev := (List.range d.nvme.blocked.length).foldl (fun d _ => fetchOne d) d

/-- The magazine settles, and what waited for the staging buffer goes on. -/
def settleHost (d : Dev) : Dev := fetchBlocked (settleMag d)

/-! ## The rows -/

/-- CREATE_IO_SQ (R480). -/
def execCreateIoSq (time cid qid size cqid prio : Nat) (s : State) : Host.Outcome State Fault Refusal := after time (onAdmin cid (.createSq qid size cqid prio)) s
/-- CREATE_IO_CQ (R480). -/
def execCreateIoCq (time cid qid size : Nat) (s : State) : Host.Outcome State Fault Refusal := after time (onAdmin cid (.createCq qid size)) s
/-- DELETE_IO_SQ (R480). -/
def execDeleteIoSq (time cid qid : Nat) (s : State) : Host.Outcome State Fault Refusal := after time (onAdmin cid (.deleteSq qid)) s
/-- DELETE_IO_CQ (R480). -/
def execDeleteIoCq (time cid qid : Nat) (s : State) : Host.Outcome State Fault Refusal := after time (onAdmin cid (.deleteCq qid)) s
/-- GET_LOG_PAGE (R480, R490, R492). -/
def execGetLogPage (time cid lid _nsid bytes : Nat) (rae : Bool) (s : State) : Host.Outcome State Fault Refusal := after time (onAdmin cid (.getLogPage lid bytes rae)) s
/-- IDENTIFY (R480). -/
def execIdentify (time cid cns nsid : Nat) (s : State) : Host.Outcome State Fault Refusal := after time (onAdmin cid (.identify cns nsid)) s
/-- ABORT (R480). -/
def execAbort (time cid sqid target : Nat) (s : State) : Host.Outcome State Fault Refusal := after time (onAdmin cid (.abort sqid target)) s
/-- SET_FEATURES (R480, R482). -/
def execSetFeatures (time cid fid value : Nat) (s : State) : Host.Outcome State Fault Refusal := after time (onAdmin cid (.setFeatures fid value)) s
/-- GET_FEATURES (R480). -/
def execGetFeatures (time cid fid : Nat) (s : State) : Host.Outcome State Fault Refusal := after time (onAdmin cid (.getFeatures fid)) s
/-- ASYNCHRONOUS_EVENT_REQUEST (R490). -/
def execAsynchronousEventRequest (time cid : Nat) (s : State) : Host.Outcome State Fault Refusal := after time (onAdmin cid .asyncRequest) s
/-- NAMESPACE_MANAGEMENT_CREATE (R484). -/
def execNamespaceManagementCreate (time cid nsze ncap flbas : Nat) (s : State) : Host.Outcome State Fault Refusal :=
  after time (onAdmin cid (.namespaceCreate nsze ncap flbas)) s
/-- NAMESPACE_MANAGEMENT_DELETE (R484). -/
def execNamespaceManagementDelete (time cid nsid : Nat) (s : State) : Host.Outcome State Fault Refusal := after time (onAdmin cid (.namespaceDelete nsid)) s
/-- NAMESPACE_ATTACHMENT_ATTACH (R485). -/
def execNamespaceAttachmentAttach (time cid nsid : Nat) (s : State) : Host.Outcome State Fault Refusal := after time (onAdmin cid (.namespaceAttach nsid true)) s
/-- NAMESPACE_ATTACHMENT_DETACH (R485). -/
def execNamespaceAttachmentDetach (time cid nsid : Nat) (s : State) : Host.Outcome State Fault Refusal := after time (onAdmin cid (.namespaceAttach nsid false)) s
/-- READ (R486, R492). -/
def execRead (time sqid cid nsid slba nlb : Nat) (s : State) : Host.Outcome State Fault Refusal := after time (ioFetch sqid cid (.read nsid slba nlb)) s
/-- WRITE (R487). -/
def execWrite (time sqid cid nsid slba nlb : Nat) (data : List Byte) (fua : Bool) (s : State) : Host.Outcome State Fault Refusal :=
  after time (ioFetch sqid cid (.write nsid slba nlb data fua)) s
/-- FLUSH (R487, R490). -/
def execFlush (time sqid cid nsid : Nat) (s : State) : Host.Outcome State Fault Refusal := after time (ioFetch sqid cid (.flush nsid)) s
/-- WRITE_ZEROES (R487). -/
def execWriteZeroes (time sqid cid nsid slba nlb : Nat) (s : State) : Host.Outcome State Fault Refusal := after time (ioFetch sqid cid (.zeroes nsid slba nlb)) s
/-- DATASET_MANAGEMENT (R487). -/
def execDatasetManagement (time sqid cid nsid : Nat) (ranges : List (Nat × Nat)) (deallocate : Bool) (s : State) : Host.Outcome State Fault Refusal :=
  after time (ioFetch sqid cid (.dataset nsid ranges deallocate)) s
/-- INVALID_COMMAND_OPCODE (R480). -/
def execInvalidCommandOpcode (time sqid cid : Nat) (s : State) : Host.Outcome State Fault Refusal :=
  after time (if sqid = 0 then onAdmin cid .invalid else ioFetch sqid cid .invalid) s
/-- CONTROLLER_DISABLE (R494). -/
def execControllerDisable (time : Nat) (s : State) : Host.Outcome State Fault Refusal := after time controllerDisable s

end Sys2Proof.Machine
end

