-- ==== Sys2Proof/Machine/MagCmd.lean ====
section
/-! DEFINITION. Area 0x10: the commands of the magazine and its reels (R477, R495, Tables 20.7 to 20.9 and 21.5), and the magazine's own
events: power, mounting and recovery (R454, R460, R476), NAND operations (R457, R463), churn (R461), removal (R470). -/

namespace Sys2Proof.Machine

/-- The NSID a command names at offset 0. -/
def Ctx.nsid (c : Ctx) : Nat := objIndex (u16 c.b 0)

/-- A field names a reel of the magazine in use. -/
def reelField (d : Dev) (b : List Byte) (o : Nat) : Nat × Bool := (o, objIs 0xB (u16 b o) && (reelOf d (objIndex (u16 b o))).isSome)

/-- The state code of Table 20.9. -/
def MagState.code : MagState → Nat
  | .absent => 0
  | .mounting => 1
  | .mounted => 2
  | .unsupported => 3
  | .ejecting => 4

/-- MAG_QUERY (Table 20.9). Without a magazine in use its figures are 0. -/
def specMagQuery : CmdSpec where
  op := 0x1000
  length := fixed 0
  act := fun _ d =>
    let m := d.mag
    let p : Pack := if magUsable d then m.pack else { dies := [] }
    let erases := (p.blocks.filter fun e => !e.2.retired).map fun e => e.2.erases
    (d, some (.ok (le 1 m.state.code ++ le 1 (boolNat m.worn + 2 * boolNat m.freeLow) ++ le 1 (fewestDies p) ++ le 1 0 ++ le 2 (sumOf id p.dies) ++ le 2 p.reels.length
      ++ le 8 p.rawBytes ++ le 8 p.exported ++ le 8 p.map.length ++ le 2 (freeShare p) ++ le 2 0 ++ le 4 (nandCapacity d) ++ le 4 (rep32 (loadOf d).dem.nand)
      ++ le 4 p.retired ++ le 4 (maxOf id erases) ++ le 4 (if p.blocks.length < sumOf id p.dies * p.blocksPerDie then 0 else erases.foldl min (maxOf id erases)) ++ le 16 p.uuid)))

/-- MAG_FORMAT (R458, R477): refused while a reel records or is exposed, or while no magazine is mounted. -/
def specMagFormat : CmdSpec where
  op := 0x1001
  length := fixed 4
  ranges := fun _ b => [chk 0 (u16 b 0 = 0x9180), zeroAt b 2 2]
  device := true
  against := fun d _ =>
    if d.mag.state ≠ .mounted || d.mag.format.isSome || !d.mag.recordings.isEmpty || d.mag.pack.reels.any fun e => modeOf d e.2 ≠ 0 then some (.busy 3) else none
  act := fun c d => (d.onMag fun m => { m with format := some c.pending }, some (.pending))

/-- MAG_EJECT (R469, R493). -/
def ejectAct (c : Ctx) (d : Dev) : Dev × Option Rsp :=
  let d := d.onMag fun m => { m with state := if m.state = .mounted then .ejecting else m.state, eject := some c.pending }
  if d.mag.state = .ejecting then
    let d := (d.mag.recordings.map (·.reel)).foldl (fun d n => stopRecording n 0 2 0 none d) d
    (settleMag d, some .pending)
  else
    (completeCmd c.pending .ok (d.onMag fun m => { m with state := .absent, powerOn := false, eject := none }), some .pending)

/-- MAG_EJECT: refused unless a magazine is mounted or unsupported. -/
def specMagEject : CmdSpec where
  op := 0x1002
  length := fixed 4
  ranges := fun _ b => [zeroAt b 0 4]
  device := true
  against := fun d _ => if (d.mag.state = .mounted && d.mag.format.isNone) || d.mag.state = .unsupported then none else some (.busy 3)
  act := ejectAct

/-- REEL_CREATE (R455, R471, Table 20.9). -/
def specReelCreate : CmdSpec where
  op := 0x1003
  length := fixed 48
  ranges := fun _ b => [chk 0 (u64 b 0 % 64 = 0 && u64 b 0 ≠ 0), rng b 8 4 16 65536, zeroAt b 12 4, ascii b 16 32]
  combos := fun _ c => comboCheck [bad (u64 c.b 0 < dataLbaOf (u32 c.b 8)) 8]
  act := fun c d =>
    match (if d.mag.state = .mounted && d.mag.pack.formatted && d.mag.format.isNone then freeNsid d else none), allocAcres d.mag.pack (u64 c.b 0 / 64) with
    | some n, some e =>
      let d := giveOwner (reelObj n) c.session (createReel n (u64 c.b 0) (u32 c.b 8) e (slice c.b 16 32) d)
      (d, some (.ok (le 2 (reelObj n) ++ le 2 0 ++ le 4 0 ++ le 8 (dataLbaOf (u32 c.b 8)))))
    | _, _ => (d, some (.noResource 0xB))

/-- REEL_DELETE (Table 20.9). -/
def specReelDelete : CmdSpec where
  op := 0x1004
  length := fixed 4
  ranges := fun d b => [reelField d b 0, zeroAt b 2 2]
  targets := fun _ b => [u16 b 0]
  against := fun d c => if (recordingOf d c.nsid).isSome then some (.busy 3) else none
  act := fun c d => (settleMag (deleteReel 0 c.nsid d), some .ok)

/-- The tracks of REEL_RECORD_START (Table 20.8). -/
def readTracks (b : List Byte) : List Track := (List.range (u8 b 2)).map fun i =>
  let o := 36 + 8 * i
  { kind := u8 b o, tap := u8 b (o + 1), source := u16 b (o + 2) }

/-- A source suits its kind of track, and exists. -/
def trackSourceOk (d : Dev) (t : Track) : Bool := match t.kind with
  | 1 => objIs 0x2 t.source && (furrowOf d (objIndex t.source)).isSome
  | 2 => objIs 0x2 t.source && (furrowOf d (objIndex t.source)).isSome && (tabGet (d.stream (objIndex t.source)).settings.taps t.tap).enable
  | 3 => objIs 0x5 t.source && (match mapGet d.codecs.encoders (objIndex t.source) with
      | some e => e.codec = 0 && e.configured
      | none => false)
  | 4 => objIs 0x5 t.source && (match mapGet d.codecs.encoders (objIndex t.source) with
      | some e => e.codec ≠ 0 && e.configured
      | none => false)
  | 5 => objIs 0x6 t.source && (match mapGet d.codecs.decoders (objIndex t.source) with
      | some q => profileChroma q.codec q.profile = 3
      | none => false)
  | 6 => objIs 0x7 t.source && (d.port (objIndex t.source)).on
  | _ => false

/-- What a track refuses: an encoder or decoder track that is not bound, an audio track without media-clock indices in track 0's
domain (R464), a picture track of another source's frames. -/
def trackRefusal (d : Dev) (n : Nat) (first t : Track) : Bool :=
  if t.picture then
    !trackBound d n t || trackStream d t ≠ trackStream d first || trackDecoder d t ≠ trackDecoder d first
  else match portMedia d (d.port (objIndex t.source)) with
    | some (td, _) => td ≠ trackDomain d first
    | none => true

/-- REEL_RECORD_START takes effect: the first record is frame E, or the next SOF (R477). -/
def recordStartSettle (c : Ctx) (d : Dev) : Dev := startRecording c.nsid c.session (readTracks c.b) (slice c.b 4 32) none d

/-- REEL_RECORD_START (R464, R466, R477, R486, Table 20.8). -/
def specReelRecordStart : CmdSpec where
  op := 0x1005
  stageable := fun _ => true
  length := counted 3 fun b => 36 + 8 * u8 b 2
  ranges := fun d b => [reelField d b 0, rng b 2 1 1 8, zeroAt b 3 1, ascii b 4 32]
    ++ eachRec 36 8 (u8 b 2) fun o => [rng b o 1 1 6, rng b (o + 1) 1 0 4, chk (o + 2) (objOk (u16 b (o + 2))), zeroAt b (o + 4) 4]
  combos := fun d c =>
    let l := readTracks c.b
    comboCheck (bad (l.head?.any fun t => !t.picture) 36
      :: (indexed l).flatMap fun e => [bad (e.2.kind ≠ 2 && e.2.tap ≠ 0) (37 + 8 * e.1), bad (!trackSourceOk d e.2) (38 + 8 * e.1)])
  targets := fun _ b => [u16 b 0]
  against := fun d c =>
    let l := readTracks c.b
    match reelOf d c.nsid with
    | none => some (.busy 3)
    | some r =>
      if d.mag.state ≠ .mounted || d.mag.format.isSome || (recordingOf d c.nsid).isSome then some (.busy 3)
      else if d.mag.recordings.length ≥ 16 then some (.noResource 0xB)
      else if l.any fun t => trackRefusal d c.nsid (l.headD {}) t then some (.combination 2)
      else match goodSuperblock d r with
        | none => some (.combination 0)
        | some sb => if u32 sb 68 ≥ r.maxClips then some (.noResource 0xB) else none
  settle := recordStartSettle
  own := fun c d => match recordingOf d c.nsid with
    | some r => le 4 r.clip ++ le 4 0 ++ le 8 r.endLba
    | none => le 16 0

/-- REEL_RECORD_STOP takes effect; a command of its own is PENDING until the clip is durable. -/
def recordStopSettle (c : Ctx) (d : Dev) : Dev :=
  let alone : Bool := d.ctl.commits.any fun x => x.txn = c.txn && x.op = 0x1006
  stopRecording c.nsid (u8 c.b 2) 0 c.txn (if alone then some c.pending else none) d

/-- REEL_RECORD_STOP (R476, Table 20.9). -/
def specReelRecordStop : CmdSpec where
  op := 0x1006
  stageable := fun _ => true
  length := fixed 4
  ranges := fun d b => [reelField d b 0, rng b 2 1 0 1, zeroAt b 3 1]
  targets := fun _ b => [u16 b 0]
  against := fun d c => if (recordingOf d c.nsid).isNone then some (.combination 0) else none
  settle := fun c d => settleMag (recordStopSettle c d)
  own := fun c d => match (reelOf d c.nsid).bind fun r => r.clips.getLast? with
    | some x => le 8 x.records ++ le 8 x.endLba
    | none => le 16 0

/-- CLIP_QUERY (Table 20.9). -/
def specClipQuery : CmdSpec where
  op := 0x1007
  length := fixed 8
  ranges := fun d b => [reelField d b 0, zeroAt b 2 2, chk 4 (match reelOf d (objIndex (u16 b 0)) with
      | some r => r.clips.any fun c => c.clip = u32 b 4
      | none => true)]
  act := fun c d =>
    let clip := ((reelOf d c.nsid).bind fun r => r.clips.find? fun x => x.clip = u32 c.b 4).getD {}
    let durable := match recordingOf d c.nsid with
      | some r => if r.clip = clip.clip then r.durable else clip.records
      | none => clip.records
    (d, some (.ok (clip.bytes ++ le 8 durable)))

/-- REEL_EXPOSE (R485, R495, Table 21.5). -/
def specReelExpose : CmdSpec where
  op := 0x1008
  length := fixed 4
  ranges := fun d b => [reelField d b 0, rng b 2 1 0 2, zeroAt b 3 1]
  targets := fun _ b => [u16 b 0]
  act := fun c d => (setExposure c.nsid (u8 c.b 2) 0 d, some .ok)

/-- The commands of area 0x10. -/
def magSpecs : List CmdSpec :=
  [specMagQuery, specMagFormat, specMagEject, specReelCreate, specReelDelete, specReelRecordStart, specReelRecordStop, specClipQuery, specReelExpose]

/-! ## Power, mounting, removal -/

/-- MAG_PRESENT_N has been low for 100 ms (R454). -/
def powerMagazine (d : Dev) : Dev :=
  if d.mag.state = .absent then d.onMag fun m => { m with state := .mounting, present := true, powerOn := true, powerAt := d.now } else d

/-- MAG_POWER_ENABLE (R454). -/
def execMagPowerEnable (time : Nat) (s : State) : Host.Outcome State Fault Refusal := after time powerMagazine s

/-- A die's geometry is that of Table 20.1. -/
def DieReport.geometryOk (r : DieReport) : Bool :=
  r.pageBytes = 16384 && r.spareBytes ≥ 2080 && r.planes = 4 && r.pagesPerBlock % 4 = 0 && r.pagesPerBlock ≠ 0 && r.dieBytes ≤ 256000000000

/-- A die's interface and timing are those of Table 20.1. -/
def DieReport.timingOk (r : DieReport) : Bool := r.nvDdr3 && r.rate ≥ 400 && r.programUs ≤ 520 && r.readUs ≤ 80 && r.suspendUs ≤ 100

/-- Two dies have the same geometry (R453). -/
def DieReport.alike (a b : DieReport) : Bool :=
  a.pageBytes = b.pageBytes && a.spareBytes = b.spareBytes && a.planes = b.planes && a.pagesPerBlock = b.pagesPerBlock && a.dieBytes = b.dieBytes

/-- The dies of a fit-out, by channel and die on channel, with their reports. -/
def dieReports (dies : List Nat) (info : MountInfo) : List (Nat × Nat × DieReport) :=
  (indexed dies).flatMap fun e => (List.range e.2).map fun k =>
    (e.1, k, match info.differing.find? fun x => x.1 = e.1 && x.2.1 = k with
      | some x => x.2.2
      | none => info.report)

/-- Why a fit-out is not supported (R452, R453): channel, die and reason, 0 geometry, 1 timing, 2 empty channel, 3 mixed dies. -/
def fitOutFault (dies : List Nat) (info : MountInfo) : Option (Nat × Nat × Nat) :=
  let l := dieReports dies info
  let first := ((l.head?).map (·.2.2)).getD {}
  let odd := l.findSome? fun e => if !e.2.2.geometryOk then some (e.1, e.2.1, 0) else if !e.2.2.timingOk then some (e.1, e.2.1, 1) else none
  let empty := ((List.range 32).find? fun c => dies.getD c 0 = 0).map fun c => (c, 0, 2)
  let mixed := (l.find? fun e => !e.2.2.alike first).map fun e => (e.1, e.2.1, 3)
  odd.orElse fun _ => empty.orElse fun _ => mixed

/-- The pack that mounting finds: one that another device wrote since, or the one that was last here. -/
def packFound (info : MountInfo) (d : Dev) : Pack := match info.pack with
  | some p => { p with data := p.data.foldl (fun m c => memSet m c.1 c.2) [] }
  | none => d.mag.pack

/-- The reel table and the clips that a reel's own blocks hold (R472, R473). -/
def rereadReel (d : Dev) (n : Nat) : Dev := match mapGet d.mag.pack.reels n with
  | none => d
  | some r => match goodSuperblock d r with
    | none => d.onReel n fun r => { r with clips := [], opened := false }
    | some sb =>
      let entry := fun (k : Nat) => slice (readBlocks d r (64 + k / 16) 1) (256 * (k % 16)) 256
      let clips := (List.range (min (u32 sb 68) r.maxClips)).filterMap fun k =>
        let e := entry k
        if crcOk e && u32 e 0 = k + 1 then some (readClip e) else none
      d.onReel n fun r => { r with clips, nextLba := u64 sb 80, writeSeq := u64 sb 88, opened := bit (u16 sb 6) 0 }

/-- A record header at an LBA continues a clip: magic, clip, index, CRC and the CRC of each track check (R476). -/
def continuesClip (d : Dev) (r : Reel) (clip index lba : Nat) : Option Nat :=
  let h := readBlocks d r lba 1
  let blocks := u32 h 60
  let fits : Bool := lba + 1 ≤ r.blocks && u32 h 0 = 0x4D415246 && u32 h 4 = clip && u64 h 8 = index && crcOk h && 1 ≤ blocks && lba + blocks ≤ r.blocks
  if fits && (List.range 8).all (fun i =>
      let o := 64 + 16 * i
      u32 h (o + 4) = 0 || crc32c ((readBlocks d r (lba + u32 h o) (ceilDiv (u32 h (o + 4)) blockBytes)).take (u32 h (o + 4))) = u32 h (o + 12)) then some blocks
  else none

/-- Records past a clip's recorded count, and where they end. -/
def extendClip (d : Dev) (r : Reel) (clip : Nat) : Nat → Nat → Nat → Nat × Nat
  | 0, index, lba => (index, lba)
  | fuel + 1, index, lba => match continuesClip d r clip index lba with
    | some n => extendClip d r clip fuel (index + 1) (lba + n)
    | none => (index, lba)

/-- A clip left in state 1 is extended and becomes state 3 with end_reason 3 (R476). -/
def recoverClip (n : Nat) (d : Dev) (c : Clip) : Dev := match mapGet d.mag.pack.reels n with
  | none => d
  | some r =>
    let (records, lba) := extendClip d r c.clip (r.blocks - c.endLba) c.records c.endLba
    let d := d.onClip n c.clip fun c => { c with state := 3, endReason := 3, records, endLba := lba }
    let d := d.onReel n fun r => { r with nextLba := lba, opened := false }
    let d := (writeSuperblock n (writeEntry n c.clip d).1).1
    raise 0x1088 0 (reelObj n) (le 2 (reelObj n) ++ le 4 c.clip ++ le 1 3 ++ le 1 0 ++ le 4 records) d

/-- Mounting (R460): the pack's reels are read, open clips recovered, and MAG_MOUNTED raised. -/
def mountMagazine (info : MountInfo) (d : Dev) : Dev :=
  if d.mag.state ≠ .mounting then d
  else match fitOutFault (packFound info d).dies info with
    | some (ch, die, reason) =>
      raise 0x1084 3 0 (le 1 ch ++ le 1 die ++ le 1 reason ++ le 1 0) (d.onMag fun m => { m with state := .unsupported })
    | none =>
      let d := d.onPack fun _ => recoverMap info.scan (packFound info d)
      let d := d.onMag fun m => { m with state := .mounted, stripeAcres := 0, stripe := m.stripe + 1, pack := { m.pack with clean := false } }
      let ids := d.mag.pack.reels.map (·.1)
      let d := ids.foldl rereadReel d
      let opened := ids.flatMap fun n => match mapGet d.mag.pack.reels n with
        | some r => (r.clips.filter fun c => c.state = 1).map fun c => (n, c)
        | none => []
      let d := opened.foldl (fun d e => recoverClip e.1 d e.2) d
      let d := checkFree (checkWorn (reattach (placeFull d)))
      raise 0x1080 0 0 (le 1 (boolNat info.scan) ++ le 2 (sumOf id d.mag.pack.dies) ++ le 2 ids.length ++ le 2 opened.length ++ le 4 info.mountMs) d

/-- MAGAZINE_MOUNT (R460). -/
def execMagazineMount (time : Nat) (info : MountInfo) (s : State) : Host.Outcome State Fault Refusal := after time (mountMagazine info) s

/-- A PENDING command of the magazine ends with it: NO_RESOURCE (DESIGN CHOICE). -/
def dropPending (c : Option PendingCmd) (d : Dev) : Dev := match c with
  | some c => completeCmd c (.noResource 0xB) d
  | none => d

/-- A recording ends by removal: its slots are let go and MAG_REMOVED tells its last durable record. -/
def removeRecording (total : Nat) (d : Dev) (e : Nat × Recording) : Dev :=
  let r := e.2
  let d := releaseWaiting r.reel d
  let d := (r.pending.flatMap (·.holds)).foldl (fun d h => dropSlot h.1.source h.1.slot (reelObj r.reel) d) d
  let d := d.onMag fun m => { m with recordings := m.recordings.filter fun x => x.reel ≠ r.reel }
  dropPending r.stopCmd (raise 0x1081 3 (reelObj r.reel) (le 1 total ++ le 1 e.1 ++ le 2 (reelObj r.reel) ++ le 4 r.clip
    ++ le 8 (if r.durable = 0 then 2 ^ 64 - 1 else r.durable - 1)) d)

/-- MAG_PRESENT_N goes high without an eject (R470, R493). -/
def removeMagazine (d : Dev) : Dev :=
  if d.mag.state = .absent then d.onMag fun m => { m with present := false }
  else
    let d := settleMag d
    let l := d.mag.recordings
    let d := (indexed l).foldl (removeRecording l.length) d
    let d := if l.isEmpty then raise 0x1081 3 0 (le 16 0) d else d
    let ids := d.mag.writes.map (·.id)
    let (eject, format) := (d.mag.eject, d.mag.format)
    let d := d.onMag fun m =>
      { m with state := .absent, present := false, powerOn := false, writes := [], stripeAcres := 0, worn := false, freeLow := false, eject := none, format := none, dies := [], erases := [] }
    let d := setCounter 0 8 0 d
    let d := fetchBlocked (settleHostWrites (giveUp ids 0 notReady d))
    syncInternal (dropPending format (dropPending eject d))

/-! ## NAND operations -/

/-- A format ends: a new header, no reels, no map, and E fixed (R458). Its UUID is a free value. -/
def finishFormat (c : PendingCmd) (d : Dev) : Dev :=
  let (k, d) := takeFree d
  let d := (d.mag.pack.reels.map (·.1)).foldl (fun d n => dropOwner (reelObj n) d) d
  let d := d.onMag fun m =>
    { m with format := none, writes := [], stripeAcres := 0, sinceCheckpoint := 0, dies := [], erases := []
             pack := { m.pack with uuid := Config.freeNat k 0 % 2 ^ 128, formatted := true, exported := m.pack.good * 31 * 88 / 3200, headerSeq := m.pack.headerSeq + 1
                                   map := [], journal := [], checkpointMap := [], journaledSeq := m.pack.journalSeq, reels := [], data := [], free := m.pack.good - m.pack.retired * m.pack.acresPerBlock
                                   blocks := m.pack.blocks.map fun e => (e.1, if e.2.retired then e.2 else { e.2 with programmed := 0, valid := 0, erases := min (e.2.erases + 1) (2 ^ 24 - 1) }) } }
  completeCmd c .ok (checkFree (reattach (d.onNvme fun n => { n with unrecovered := [] })))

/-- A block's content becomes zero: on the media, or in churn's write of its acre. -/
def zeroBlock (acre lba : Nat) (d : Dev) : Dev :=
  let o := lba % 64 * blockBytes
  d.onMag fun m =>
    { m with writes := m.writes.map fun w => if w.logical = acre && w.rank = 2 then { w with bytes := memClear w.bytes o blockBytes } else w
             pack := { m.pack with data := memClear m.pack.data (acre * acreBytes + o) blockBytes } }

/-- A block is unrecovered (R492): it is listed, while the list has room; one that cannot be listed reads as zeros. -/
def listUnrecovered (nsid lba : Nat) (d : Dev) : Dev :=
  if (nsid, lba) ∈ d.nvme.unrecovered then d
  else if d.nvme.unrecovered.length < 1024 then d.onNvme fun n => { n with unrecovered := n.unrecovered ++ [(nsid, lba)] }
  else
    let d := count (reelObj nsid) 3 1 (d.onNvme fun n => { n with unrecoveredLost := min (n.unrecoveredLost + 1) (2 ^ 32 - 1) })
    zeroBlock (((mapGet d.mag.pack.reels nsid).getD {}).acreOf lba) lba d

/-- A codeword stays unrecovered (R457). Churn writes zeros in its place. -/
def blockUnrecovered (nsid lba requester : Nat) (d : Dev) : Dev :=
  listUnrecovered nsid lba (raise 0x1085 3 (reelObj nsid) (le 2 (reelObj nsid) ++ le 8 lba ++ le 1 requester) (count (reelObj nsid) 1 1 (count 0 9 1 d)))

/-- A NAND operation completes (R459, R463). -/
def nandDone (op : NandOp) (d : Dev) : Dev :=
  if !magUsable d then d
  else match op with
    | .program acre ok => match d.mag.writes.find? fun w => w.logical = acre && !w.programmed && servesWrite d.mag w with
      | none => d
      | some w =>
        if ok then settleHost (programOk w d)
        else
          let host := d.nvme.staged.any fun x => w.id ∈ x.acres
          let (d, lost) := programFailed w host d
          settleHost (if lost then giveUp [w.id] 2 { sct := 2, sc := 0x80 } d else d)
    | .erase die block ok =>
      let d := if d.mag.format.isSome || servesErase d.mag die block then eraseDone die block ok d else d
      settleHost (match d.mag.format with
        | some c => finishFormat c d
        | none => d)
    | .read nsid lba churn recovered => if recovered || (reelOf d nsid).isNone then d else blockUnrecovered nsid lba (boolNat churn) d

/-- The recording at a place of the list of those that run. -/
def nthReel (d : Dev) (i : Nat) : Option Nat := d.mag.recordings[i]?.map (·.reel)

/-- RECORD_FORM: the next record of a recording is formed once every track slot of its frame is complete (R465). -/
def execRecordForm (time : Nat) (reel : Fin 16) (s : State) : Host.Outcome State Fault Refusal :=
  after time (fun d => match nthReel d reel with
    | some n => settleMag (formRecord n d)
    | none => d) s

/-- PARTIAL_ACRE_PROGRAM (R456). -/
def execPartialAcreProgram (time : Nat) (s : State) : Host.Outcome State Fault Refusal :=
  after time (fun d => if magUsable d then settleMag (partialProgram d) else d) s

/-- MAP_CHECKPOINT: due after 64 GiB of programmed acres (R459). -/
def execMapCheckpoint (time : Nat) (s : State) : Host.Outcome State Fault Refusal :=
  after time (fun d => if magUsable d && d.mag.sinceCheckpoint ≥ 262144 then checkpoint d else d) s

/-- The directory entry of a recording clip is rewritten every 1 s (R476). -/
def directoryUpdate (n : Nat) (d : Dev) : Dev := match recordingOf d n with
  | none => d
  | some r =>
    if r.lastDirectory + 1000000000 ≤ d.now && !r.ending then
      settleMag (placeFull (writeEntry n r.clip (d.onRecording n fun r => { r with lastDirectory := d.now })).1)
    else settleMag d

/-- CLIP_DIRECTORY_UPDATE (R476). -/
def execClipDirectoryUpdate (time : Nat) (reel : Fin 16) (s : State) : Host.Outcome State Fault Refusal :=
  after time (fun d => match nthReel d reel with
    | some n => directoryUpdate n d
    | none => d) s

/-! ## Churn (R461) -/

/-- Static wear levelling may move one more acre: it is held to 1 % of churn's writes. -/
def mayLevel (m : Magazine) : Bool := (m.levelled + 1) * 100 ≤ m.churned + 1

/-- Why churn may choose a block: it is filled, and has the fewest valid acres (ties to the lower erase count), false; or it is worn least
by 1,000 and static wear levelling has room, true. -/
def churnChoice (m : Magazine) (die block : Nat) : Option Bool :=
  let p := m.pack
  let full := p.blocks.filter fun e => !e.2.retired && e.2.programmed ≥ p.acresPerBlock
  match mapGet full (blockKey die block) with
  | none => none
  | some x =>
    let best := full.all fun e => x.valid < e.2.valid || (x.valid = e.2.valid && x.erases ≤ e.2.erases)
    let top := maxOf (fun e => e.2.erases) (p.blocks.filter fun e => e.1 / 2 ^ 20 = die)
    if best then some false else if x.erases + 1000 ≤ top && mayLevel m then some true else none

/-- An acre's content as churn moves it: blocks that cannot be recovered become zeros (R457). -/
def churnImage (d : Dev) (acre : Nat) : Mem :=
  d.nvme.unrecovered.foldl (fun img e => match mapGet d.mag.pack.reels e.1 with
    | some r => if r.acreOf e.2 = acre then memClear img (e.2 % 64 * blockBytes) blockBytes else img
    | none => img) (acreImage d acre)

/-- A chosen block can be erased: nothing valid is left in it, and every map change so far is on a journal page. -/
def mayErase (m : Magazine) (die block : Nat) : Bool :=
  (mapGetD m.pack.blocks (blockKey die block) {}).valid = 0 && m.pack.journalSeq = m.pack.journaledSeq && (die, block) ∉ m.erases

/-- One step of churn on a chosen block: an acre of it is relocated, or the block, with nothing valid left, waits for its erase. -/
def churnBlock (wear : Bool) (die block : Nat) (d : Dev) : Dev :=
  let d := gleanChunk 1 d
  match d.mag.pack.map.find? fun e => d.mag.pack.acreKey e.2 = blockKey die block && (newestWrite d e.1).isNone with
  | some e =>
    let d := (stageWhole 2 e.1 (churnImage d e.1) d).1
    placeFull (d.onMag fun m => { m with churned := m.churned + 1, levelled := m.levelled + boolNat wear })
  | none => if mayErase d.mag die block then serveDies (d.onMag fun m => { m with erases := m.erases ++ [(die, block)] }) else d

/-- A step of churn; firmware chooses the block, and waits during a fail-over pause (R508). -/
def churnStep (die block : Nat) (d : Dev) : Dev :=
  if !magUsable d || d.faults.paused then d
  else match churnChoice d.mag die block with
    | some wear => churnBlock wear die block d
    | none => d

/-- CHURN_STEP (R461). -/
def execChurnStep (time die block : Nat) (s : State) : Host.Outcome State Fault Refusal := after time (churnStep die block) s

end Sys2Proof.Machine
end

