-- ==== Sys2Proof/Machine/Hbm.lean ====
section
/-! DEFINITION. The frame memory controller (chapter 17): where an address lies (R395), errors and poison (R404, R405, R504, R513), taking
ranks out of service and migrations (R407 to R412), refresh and delays (R399 to R402), scrub (R406), and RANK_QUERY and RANK_RETIRE. -/

namespace Sys2Proof.Machine

/-- The object ID of a rank (R393). -/
def rankObj (i : Nat) : Nat := 0xC000 + i

/-- Rank `i`. -/
def Dev.rank (d : Dev) (i : Nat) : Rank := tabGet d.hbm.ranks i

/-- Changes a rank. -/
def Dev.onRank (i : Nat) (f : Rank → Rank) (d : Dev) : Dev := d.onHbm fun h => { h with ranks := tabMod h.ranks i f }

/-- Slots of the device physical space. -/
abbrev slotCount : Nat := 188
/-- Chunks of a rank. -/
abbrev rankRows : Nat := 98304
/-- Rows of a failed slot that move into a withdrawn region (R412). -/
abbrev movedRows : Nat := 97781

/-- The slot that a rank serves. -/
def slotOf (d : Dev) (rank : Nat) : Option Nat := ((indexed d.hbm.slots).find? fun e => e.2 = rank).map (·.1)

/-- The slot and row in a withdrawn region that hold row `r` of a failed slot (R412): the region's rows on the live slots in turn. A chunk
of the firmware reservation whose turn falls on its mirror copy's slot goes to the next live slot. -/
def regionPlace (failed region row : Nat) : Nat × Nat :=
  let live := row % (slotCount - 1)
  let pick := fun (k : Nat) => if k < failed then k else k + 1
  let first := pick live
  let mirror := (failed + 94) % slotCount
  let slot := if row * slotCount < 131072 && first = mirror then pick ((live + 1) % (slotCount - 1)) else first
  (slot, rankRows - 523 * (region + 1) + row / (slotCount - 1))

/-- The rank that serves a row of a slot (R395, R409, R411, R412). -/
def rankAt (d : Dev) : Nat → Nat → Nat → Nat
  | 0, slot, _ => d.hbm.slots.getD slot 0
  | fuel + 1, slot, row =>
    let named := d.hbm.slots.getD slot 0
    match mapGet d.hbm.redirect slot with
    | some region => let (s, r) := regionPlace slot region row; if row < movedRows then rankAt d fuel s r else named
    | none => match d.hbm.migration with
      | some m =>
        if m.source = named then
          if row < m.bits then (match m.dest with
            | some x => x
            | none => let (s, r) := regionPlace slot m.region row; rankAt d fuel s r)
          else if row < m.oldBits then m.oldSpare.getD named else named
        else named
      | none => named

/-- The rank that holds an address of the device physical space (R395). -/
def rankOfAddr (d : Dev) (a : Nat) : Nat := rankAt d 8 (a / 4096 % slotCount) (a / 4096 / slotCount)

/-! ## Leaving service (R407 to R412) -/

/-- Fallow ranks, lowest index first. -/
def fallowRanks (d : Dev) : List Nat := ((indexed d.hbm.ranks).filter fun e => e.2.state = .fallow).map (·.1)

/-- The spare for a failed rank (R408). -/
def spareFor (d : Dev) (rank : Nat) : Option Nat :=
  let l := fallowRanks d
  (l.find? fun i => i / 96 = rank / 96).orElse fun _ => l.head?

/-- Bytes that a rank withdraws when it is lost with no spare (R412), in MiB. -/
abbrev regionMib : Nat := 386

/-- The pool can take every page that stands in a region being withdrawn (R412 step 4). -/
def regionFits (d : Dev) : Bool := pailBytes d + sumOf (·.2) d.pails.zeroing + roundUp d.pails.internal 0x10000 ≤ poolSize d

/-- Some pail page or page to be zeroed stands in a withdrawn region. -/
def regionBusy (d : Dev) : Bool :=
  (d.pails.table.any fun e => !e.2.host && e.2.pages.any fun a => a + e.2.pageSize > poolEnd d) || d.pails.zeroing.any fun e => e.1 + e.2 > poolEnd d

/-- A migration starts (R409 step 1). -/
def startMigration (l : RankLeave) (dest : Option Nat) (d : Dev) : Dev :=
  let d := d.onRank l.rank fun r => { r with state := .source }
  let d := match dest with
    | some x => d.onRank x fun r => { r with state := .destination }
    | none => d
  let d := d.onHbm fun h => { h with migration := some { source := l.rank, dest, region := l.region, started := d.now }, lastCommand := l.command }
  raise 0x11C1 2 (rankObj l.rank) (le 2 (rankObj l.rank) ++ le 2 (match dest with
    | some x => rankObj x
    | none => 0xFFFF) ++ le 1 (fallowRanks d).length ++ le 1 0) d

/-- A rank is lost with no spare left (R412): the pool shrinks, and the rank waits for its region, kept in service while the pool
cannot take the region's pages. -/
def loseRank (l : RankLeave) (d : Dev) : Dev :=
  let d := d.onHbm fun h => { h with regions := h.regions + 1, leaving := h.leaving ++ [{ l with shrink := true, region := h.regions }] }
  let kept := !regionFits d
  let d := if kept then d.onRank l.rank fun r => { r with state := .kept } else d
  raise 0x11C3 3 (rankObj l.rank) (le 2 (rankObj l.rank) ++ le 1 (boolNat kept) ++ le 1 0 ++ le 4 (regionMib * d.hbm.regions)) d

/-- A rank that waited for a spare which failed meanwhile is lost like one that found none (R412). -/
def loseSpareless (d : Dev) : Dev := match d.hbm.migration, d.hbm.leaving with
  | none, l :: rest => if !l.shrink && (spareFor d l.rank).isNone then loseRank l (d.onHbm fun h => { h with leaving := rest }) else d
  | _, _ => d

/-- The first rank that waits starts its migration when none runs: into a spare, or into its region once that is clear. -/
def nextMigration (d : Dev) : Dev :=
  let d := loseSpareless d
  match d.hbm.migration, d.hbm.leaving with
  | none, l :: rest =>
    if l.shrink then
      if regionBusy d then d else startMigration l none (d.onHbm fun h => { h with leaving := rest })
    else match spareFor d l.rank with
      | some x => startMigration l (some x) (d.onHbm fun h => { h with leaving := rest })
      | none => d
  | _, _ => d

/-- An in-service rank leaves service (R407, R408). -/
def leaveService (rank : Nat) (command : Option PendingCmd) (d : Dev) : Dev :=
  let waiting := d.hbm.leaving.countP fun l => !l.shrink
  let l : RankLeave := { rank, command }
  if (fallowRanks d).length ≤ waiting then nextMigration (loseRank l d)
  else nextMigration (d.onHbm fun h => { h with leaving := h.leaving ++ [l] })

/-- The spare of a migration fails (R411): the copy restarts into the next fallow rank, or into a region withdrawn as in R412, where
it waits until the region is clear of pages. -/
def restartMigration (m : Migration) (old : Nat) (d : Dev) : Dev :=
  let d := d.onRank old fun r => { r with state := .retired }
  match spareFor d m.source with
  | some x =>
    let d := d.onRank x fun r => { r with state := .destination }
    let d := d.onHbm fun h => { h with migration := some { m with dest := some x, bits := 0, oldSpare := some old, oldBits := m.bits, started := d.now, poisoned := 0 } }
    raise 0x11C1 2 (rankObj m.source) (le 2 (rankObj m.source) ++ le 2 (rankObj x) ++ le 1 (fallowRanks d).length ++ le 1 1) d
  | none =>
    let d := d.onHbm fun h => { h with migration := some { m with dest := none, bits := 0, oldSpare := some old, oldBits := m.bits, region := h.regions, started := d.now, poisoned := 0 }
                                       regions := h.regions + 1 }
    let kept := !regionFits d
    let d := if kept then d.onRank m.source fun r => { r with state := .kept } else d
    let d := raise 0x11C1 2 (rankObj m.source) (le 2 (rankObj m.source) ++ le 2 0xFFFF ++ le 1 0 ++ le 1 1) d
    raise 0x11C3 3 (rankObj m.source) (le 2 (rankObj m.source) ++ le 1 (boolNat kept) ++ le 1 0 ++ le 4 (regionMib * d.hbm.regions)) d

/-- Rows that a migration copies. -/
def Migration.rows (m : Migration) : Nat := if m.dest.isSome then rankRows else movedRows

/-- A migration ends (R409 step 5): the spare takes the slot, or the redirect table serves it, and the failed rank is retired. -/
def finishMigration (m : Migration) (d : Dev) : Dev :=
  let slot := slotOf d m.source
  let d := d.onRank m.source fun r => { r with state := .retired }
  let d := match m.dest, slot with
    | some x, some k => (d.onRank x fun r => { r with state := .inService }).onHbm fun h => { h with slots := h.slots.set k x }
    | none, some k => d.onHbm fun h => { h with redirect := mapSet h.redirect k m.region }
    | _, none => d
  let cmd := d.hbm.lastCommand
  let d := d.onHbm fun h => { h with migration := none, lastCommand := none }
  let d := raise 0x11C2 1 (rankObj m.source) (le 2 (rankObj m.source) ++ le 2 (match m.dest with
    | some x => rankObj x
    | none => 0xFFFF) ++ le 4 ((d.now - m.started) / 1000) ++ le 4 m.poisoned) d
  let d := match cmd with
    | some c => completeCmd c .ok d
    | none => d
  nextMigration d

/-! ## Errors -/

/-- A line becomes poisoned. -/
def poisonLine (line : Nat) (d : Dev) : Dev := if line ∈ d.hbm.poison then d else d.onHbm fun h => { h with poison := line :: h.poison }

/-- HBM_UE with the counts of the rank (R405): cause 0 read, 1 scrub, 2 migration, 3 parity. -/
def hbmUe (rank cause addr requester : Nat) (d : Dev) : Dev :=
  let d := count (rankObj rank) 3 1 (count (rankObj rank) 1 1 d)
  let d := if cause = 3 then count (rankObj rank) 2 2 d else d
  raise 0x11C0 3 (rankObj rank) (le 2 (rankObj rank) ++ le 1 cause ++ le 1 0 ++ le 8 addr ++ le 2 requester) d

/-- The device is fatal for a cause (R515); FATAL is set with its interrupt, and the sticky register keeps the cause. -/
def goFatal (cause : Nat) (d : Dev) : Dev :=
  if fatal d then d
  else
    let d := d.onFaults fun f => { f with fatalCause := cause, stickyCause := cause }
    let r : EventRec := { code := 0x1186, severity := 4, stamp := shortStamp (domainNow d 5), detail := (le 1 cause ++ List.replicate 15 0) }
    storeEvent r (setDevStatus 3 true d)

/-- The mirror of a control-state line (R504): in the chunk whose slot differs by 94. -/
def mirrorLine (line : Nat) : Nat :=
  let chunk := line / 64
  let slot := chunk % slotCount
  (chunk - slot + (slot + 94) % slotCount) * 64 + line % 64

/-- A poisoned control-state line is served from its other copy and rewritten (R504); poison in both is fatal (R515). -/
def repairControl (line : Nat) (d : Dev) : Dev :=
  if mirrorLine line ∈ d.hbm.poison then goFatal 3 d
  else
    let d := d.onHbm fun h => { h with poison := h.poison.filter (· ≠ line) }
    let d := d.onFaults fun f => { f with repairs := min (f.repairs + 1) (2 ^ 32 - 1) }
    raise 0x1183 1 0 (le 8 (line * 64)) d

/-- The staged host write whose bytes stand at an offset of the staging buffer: writes stand in it in staging order. -/
def stagedAt (l : List StagedWrite) (off : Nat) : Option StagedWrite := match l with
  | [] => none
  | w :: l => if off < w.blocks * 4096 then some w else stagedAt l (off - w.blocks * 4096)

/-- Some line of a run of the map region is poisoned. -/
def mapRunPoisoned (d : Dev) (off n : Nat) : Bool :=
  d.hbm.poison.any fun l => mapBase + off < l * 64 + 64 && l * 64 < mapBase + off + n

/-- The journal copy has no clean entry for some acre of a forward-map line: the rebuild fails. -/
def rebuildFails (d : Dev) (first : Nat) : Bool := (indexed d.mag.pack.journal).any fun e =>
  first ≤ e.2.1 && e.2.1 < first + 16 && mapRunPoisoned d (journalCopy + 16 * e.1) 16

/-- A forward-map line of 16 entries is rebuilt from the checkpoint and the journal copy; where that fails, the blocks of its acres are
unrecovered (R492). How long it took is a free value of at most 5 ms. -/
def rebuildMap (first : Nat) (d : Dev) : Dev :=
  let fails := rebuildFails d first
  let (k, d) := takeFree d
  let lost := if fails then (List.range 16).map (first + ·) |>.filter fun a => (mapGet d.mag.pack.map a).isSome else []
  let blocks := d.mag.pack.reels.flatMap fun r => (List.range r.2.blocks).filterMap fun b => if r.2.acreOf b ∈ lost then some (r.1, b) else none
  let d := blocks.foldl (fun d b => listUnrecovered b.1 b.2 d) d
  raise 0x108B (if fails then 3 else 2) 0 (le 4 first ++ le 1 (boolNat fails) ++ le 3 0 ++ le 4 (Config.freeNat k 0 % 5001)) (healRun (first * 4 / 64 * 64) 64 d)

/-- The counts of the eight blocks of a line are made again: valid acres from the map, and the highest erase count of the die. -/
def recountBlocks (first : Nat) (d : Dev) : Dev :=
  (List.range 8).foldl (fun d i =>
    let n := first + i
    let (die, block) := (n / max 1 d.mag.pack.blocksPerDie, n % max 1 d.mag.pack.blocksPerDie)
    let k := blockKey die block
    match mapGet d.mag.pack.blocks k with
    | none => d
    | some x =>
      let valid := d.mag.pack.map.countP fun e => d.mag.pack.acreKey e.2 = k
      let top := maxOf (fun e => e.2.erases) (d.mag.pack.blocks.filter fun e => e.1 / 2 ^ 20 = die)
      d.onPack fun p => { p with blocks := mapSet p.blocks k { x with valid, erases := top } }) d

/-- Both staged copies of a journal page are lost: a checkpoint of the whole map is written at once, and its entries are needed no more. -/
def checkpointNow (d : Dev) : Dev := (healRun journalCopy 0x400000 d).onMag fun m =>
  { m with sinceCheckpoint := 0, writes := m.writes.map fun w => if w.programmed then { w with journaled := true } else w
           pack := { m.pack with checkpointMap := m.pack.map, checkpointSeq := m.pack.journalSeq, journaledSeq := m.pack.journalSeq
                                 checkpointArea := 1 - m.pack.checkpointArea, journal := [] } }

/-- Poison in the magazine map region (R489, R513): a line of the forward map is rebuilt, counts are made again, and a line of the staging
buffer costs the host write that stands there. The journal copy and one staged page of two wait until they are needed or written again. -/
def mapPoison (line : Nat) (d : Dev) : Dev :=
  let off := line * 64 - mapBase
  let heal := healRun (off / 64 * 64) 64
  let counts := roundUp (4 * d.mag.pack.exported) 64
  if !magUsable d then heal d
  else if off / 4 < d.mag.pack.exported then rebuildMap (off / 64 * 16) d
  else if off < journalCopy then recountBlocks ((off - counts) / 8) (heal d)
  else if off < stagedPage 0 then d
  else if off < stagingBuffer then
    if mapRunPoisoned d (stagedPage 0) 0x10000 && mapRunPoisoned d (stagedPage 1) 0x10000 then settleHost (checkpointNow (healRun (stagedPage 0) 0x20000 d)) else d
  else match stagedAt d.nvme.staged (off - stagingBuffer) with
    | some w =>
      let d := giveUp w.acres 1 { sct := 2, sc := 0x80 } (heal d)
      settleHost (d.onMag fun m => { m with writes := m.writes.filter fun x => x.id ∉ w.acres })
    | none => heal d

/-- An uncorrectable error in a rank, wherever it is found (R405, R407, R411). -/
def rankError (rank : Nat) (d : Dev) : Dev := match (d.rank rank).state with
  | .inService => if d.hbm.leaving.any fun l => l.rank = rank then d else leaveService rank none d
  | .fallow => nextMigration (d.onRank rank fun r => { r with state := .retired })
  | .destination => match d.hbm.migration with
    | some m => if m.dest = some rank then restartMigration m rank d else d
    | none => d
  | _ => d

/-- An uncorrectable error at a line. -/
def uncorrectable (line requester cause : Nat) (d : Dev) : Dev :=
  let rank := rankOfAddr d (line * 64)
  let d := poisonLine line (hbmUe rank cause (line * 64) requester d)
  let d := rankError rank d
  if line * 64 < 0x20000000 then repairControl line d
  else if line * 64 < 0xA0000000 then mapPoison line d
  else d

/-- A corrected error is counted; the threshold raises its event once (R404). -/
def corrected (rank : Nat) (d : Dev) : Dev :=
  let d := count (rankObj rank) 0 1 d
  let r := d.rank rank
  if !r.raised && counterOf d (rankObj rank) 0 ≥ r.threshold then
    raise 0x11C4 2 (rankObj rank) (le 2 (rankObj rank) ++ le 2 r.threshold) (d.onRank rank fun r => { r with raised := true })
  else d

/-- CORRECTED_ERROR (R404). -/
def execCorrectedError (time : Nat) (rank : Fin 192) (s : State) : Host.Outcome State Fault Refusal := after time (corrected rank) s

/-- One chunk of a migration is copied and its bit set (R409). -/
def copyChunk (error : Bool) (d : Dev) : Dev := match d.hbm.migration with
  | none => d
  | some m => if m.dest.isNone && regionBusy d then d else match slotOf d m.source with
    | none => d
    | some slot =>
      let base := (m.bits * slotCount + slot) * 64
      let d := if error then poisonLine base (hbmUe m.source 2 (base * 64) 0 d) else d
      let found := d.hbm.poison.countP fun l => base ≤ l && l < base + 64
      let m := { m with bits := m.bits + 1, poisoned := m.poisoned + found }
      let d := d.onHbm fun h => { h with migration := some m }
      if m.bits ≥ m.rows then finishMigration m d else d

/-- MIGRATION_CHUNK_COPY (R409). -/
def execMigrationChunkCopy (time : Nat) (error : Bool) (s : State) : Host.Outcome State Fault Refusal := after time (copyChunk error) s

/-! ## Moving pages out of a withdrawn region -/

/-- The poison of a run of lines moves with its bytes. -/
def movePoison (src dst n : Nat) (l : List Nat) : List Nat :=
  (l.filter fun x => !(dst ≤ x * 64 && x * 64 < dst + n)).map fun x => if src ≤ x * 64 && x * 64 < src + n then x - src / 64 + dst / 64 else x

/-- A page of a pail in a withdrawn region moves to the lowest free page below it (R412 step 2). -/
def movePage (d : Dev) : Dev :=
  match d.pails.table.find? fun e => !e.2.host && e.2.pages.any fun a => a + e.2.pageSize > poolEnd d with
  | none => d
  | some (i, p) => match (indexed p.pages).find? fun e => e.2 + p.pageSize > poolEnd d with
    | none => d
    | some (k, a) =>
      match (freePages (usedRuns d) p.pageSize (poolSize d / p.pageSize) poolBase 1).head? with
      | none => d
      | some b =>
        let n := p.pageSize
        let d := d.onHbm fun h => { h with mem := memReplace h.mem b n (memWindow h.mem a n), poison := movePoison a b n h.poison }
        let d := d.onHbm fun h => { h with mem := memClear h.mem a n }
        d.onPails fun t => { t with table := mapSet t.table i { p with pages := p.pages.set k b } }

/-- A pool page moves, and what waited for the region may go on: a rank that was kept leaves service once the pool can take the rest. -/
def poolMove (d : Dev) : Dev :=
  let d := movePage d
  let d := match d.hbm.migration with
    | some m => if (d.rank m.source).state = RankState.kept && regionFits d then d.onRank m.source fun r => { r with state := .source } else d
    | none => d
  let d := match d.hbm.leaving with
    | l :: _ => if l.shrink && (d.rank l.rank).state = RankState.kept && regionFits d then d.onRank l.rank fun r => { r with state := .inService } else d
    | [] => d
  nextMigration d

/-- POOL_PAGE_MOVE (R412). -/
def execPoolPageMove (time : Nat) (s : State) : Host.Outcome State Fault Refusal := after time poolMove s

/-! ## Refresh, delays, scrub -/

/-- The refresh multiple of a temperature in 0.1 °C (Table 17.4). -/
def refreshMultiple (t : Int) : Nat := if t ≤ 850 then 1 else if t ≤ 1050 then 2 else 4

/-- A band is left downwards only 3 °C below its lower edge (R399). -/
def nextMultiple (old : Nat) (t : Int) : Nat :=
  let plain := refreshMultiple t
  if plain ≥ old then plain
  else if old = 4 && t > 1020 then 4
  else if old ≥ 2 && t > 820 then max plain 2
  else plain

/-- A delay between its values at 25 °C, 65 °C and 105 °C, clamped outside (R402); `t` is in 0.1 °C. -/
def interpolateDelay (a b c : Rat) (t : Int) : Rat :=
  let t : Rat := (clampInt t 250 1050 : Int)
  if t ≤ 650 then a + (b - a) * (t - 250) / 400 else b + (c - b) * (t - 650) / 400

/-- The delays of a pseudo-channel at a temperature, from its three sets. -/
def delaysAt (sets : List DelaySet) (t : Int) : DelaySet :=
  let x := tabGet sets 0
  let y := tabGet sets 1
  let z := tabGet sets 2
  { writeLevel := interpolateDelay x.writeLevel y.writeLevel z.writeLevel t
    readStrobe := interpolateDelay x.readStrobe y.readStrobe z.readStrobe t
    deskew := (indexed x.deskew).map fun e => interpolateDelay e.2 (y.deskew.getD e.1 0) (z.deskew.getD e.1 0) t }

/-- The controller loads the delays of a stack's pseudo-channels from the fuse bank (R402). -/
def loadDelays (k : Nat) (t : Int) (d : Dev) : Dev := d.onHbm fun h =>
  { h with delays := (List.range 64).map fun p => if p / 32 = k then delaysAt (tabGet d.boot.fuses.delays p) t else tabGet h.delays p }

/-- A stack's temperature report (R399, R402). -/
def stackReport (k : Nat) (t : Int) (d : Dev) : Dev :=
  let s := tabGet d.hbm.stackStates k
  let new := nextMultiple s.multiple t
  let reload : Bool := (t - s.loadedAt).natAbs ≥ 50
  let d := if reload then loadDelays k t d else d
  let d := d.onHbm fun h => { h with stackStates := tabMod h.stackStates k fun s =>
    { s with temp := t, multiple := new, loadedAt := if reload then t else s.loadedAt, reloads := if reload then s.reloads + 1 else s.reloads } }
  if new = s.multiple then d
  else raise 0x11C5 1 0 (le 1 k ++ le 1 s.multiple ++ le 1 new ++ le 1 0 ++ leInt 2 t) d

/-- STACK_TEMP_REPORT (R399, R402). -/
def execStackTempReport (time : Nat) (stk : Fin 2) (temp : Int) (s : State) : Host.Outcome State Fault Refusal := after time (stackReport stk temp) s

/-- A refresh is due: postponed while class L or C requests wait, and at most 8 are owed (R401). -/
def refreshDue (rank : Nat) (busy : Bool) (d : Dev) : Dev :=
  d.onRank rank fun r => { r with owed := if !busy then 0 else if r.owed + 1 ≥ 8 then 7 else r.owed + 1 }

/-- REFRESH_DUE (R401). -/
def execRefreshDue (time : Nat) (rank : Fin 192) (busy : Bool) (s : State) : Host.Outcome State Fault Refusal := after time (refreshDue rank busy) s

/-- Steps of a scrub pass: every row of every rank. -/
abbrev scrubSteps : Nat := 192 * rankRows

/-- A rank that a pass scrubs (R406). -/
def scrubbed (r : Rank) : Bool := r.state = .inService || r.state = .fallow || r.state = .destination || r.state = .kept

/-- The next step of a pass from a position on: retired ranks and a migration's source are left out. -/
def nextScrub (d : Dev) (i : Nat) : Nat :=
  match ((List.range 192).drop (i / rankRows)).find? fun r => scrubbed (d.rank r) with
  | some r => if r = i / rankRows then i else r * rankRows
  | none => scrubSteps

/-- The address of a line that a scrub step covers; a fallow rank's or a destination's lines have no address of their own. -/
def scrubAddress (d : Dev) (rank row line : Nat) : Option Nat := (slotOf d rank).map fun s => (row * slotCount + s) * 4096 + line * 64

/-- One scrub step of 4 KiB (R406): lines counted from 0 to 63, corrected or found uncorrectable. A poisoned line is skipped and
counted. -/
def scrubStep (good bad0 : List Nat) (d : Dev) : Dev :=
  if d.faults.paused then d
  else
    let i := nextScrub d d.hbm.scrubLine
    if i ≥ scrubSteps then d.onHbm fun h => { h with scrubLine := 0, scrubPassStart := d.now }
    else
      let rank := i / rankRows
      let row := i % rankRows
      let poisoned := fun (line : Nat) => match scrubAddress d rank row line with
        | some a => a / 64 ∈ d.hbm.poison
        | none => false
      let skipped := (List.range 64).countP poisoned
      let d := (good.filter fun l => !poisoned l).foldl (fun d _ => corrected rank d) d
      let d := (bad0.filter fun l => !poisoned l).foldl (fun d l => match scrubAddress d rank row l with
        | some a => uncorrectable (a / 64) 0 1 d
        | none => let (k, d) := takeFree d; rankError rank (hbmUe rank 1 (Config.freeNat k 0) 0 d)) d
      let next := nextScrub d (i + 1)
      let d := gleanChunk 0 (d.onHbm fun h => { h with scrubLine := i + 1, scrubSkipped := h.scrubSkipped + skipped })
      if next ≥ scrubSteps then d.onHbm fun h => { h with scrubLine := 0, scrubPassStart := d.now } else d

/-- SCRUB_STEP (R406). -/
def execScrubStep (time : Nat) (corrected uncorrectable : List Nat) (s : State) : Host.Outcome State Fault Refusal := after time (scrubStep corrected uncorrectable) s

/-! ## Commands (R413, R414) -/

/-- The state code of Table 17.6. -/
def RankState.code : RankState → Nat
  | .inService => 0
  | .fallow => 1
  | .source => 2
  | .destination => 3
  | .retired => 4
  | .kept => 5

/-- RANK_QUERY (R413, Tables 17.5 and 17.6). -/
def specRankQuery : CmdSpec where
  op := 0x1103
  length := fixed 4
  ranges := fun _ b => [zeroAt b 0 4]
  act := fun _ d =>
    let h := d.hbm
    let head := h.stackStates.flatMap (fun s => leInt 2 s.temp) ++ h.stackStates.flatMap (fun s => le 1 s.multiple) ++ le 1 (fallowRanks d).length
      ++ le 1 (match h.migration with
        | some m => m.source
        | none => 0xFF) ++ le 4 (match h.migration with
        | some m => m.bits
        | none => 0) ++ le 2 (regionMib * h.regions) ++ le 1 (h.scrubLine * 100 / scrubSteps) ++ le 1 0
    let entry := fun (e : Nat × Rank) => le 1 e.2.state.code ++ le 1 0 ++ le 2 ((slotOf d e.1).getD 0xFFFF) ++ le 2 (counterOf d (rankObj e.1) 0)
      ++ le 2 e.2.threshold ++ le 2 (counterOf d (rankObj e.1) 1) ++ le 2 (counterOf d (rankObj e.1) 2) ++ le 2 (counterOf d (rankObj e.1) 3) ++ le 2 0
    (d, some (.ok (head ++ (indexed h.ranks).flatMap entry)))

/-- RANK_RETIRE (R414, Table 17.7). -/
def specRankRetire : CmdSpec where
  op := 0x1104
  length := fixed 8
  ranges := fun _ b => [obj b 0 0xC, rng b 2 1 0 1, flagBits b 3 1 1, zeroAt b 6 2]
  combos := fun _ c => comboCheck [bad ((u8 c.b 2 == 1) != (u16 c.b 4 != 0)) 4]
  device := true
  against := fun d c =>
    let i := objIndex (u16 c.b 0)
    if u8 c.b 2 = 1 then none
    else if (d.rank i).state ≠ .inService || d.hbm.leaving.any fun l => l.rank = i then some (.busy 3)
    else if (fallowRanks d).length ≤ (d.hbm.leaving.countP fun l => !l.shrink) && !bit (u8 c.b 3) 0 then some (.noResource 0xC)
    else none
  act := fun c d =>
    let i := objIndex (u16 c.b 0)
    if u8 c.b 2 = 1 then (d.onRank i fun r => { r with threshold := u16 c.b 4, raised := false }, some .ok)
    else (leaveService i (some c.pending) d, some .pending)

end Sys2Proof.Machine
end

