-- ==== Sys2Proof/Machine/Dma.lean ====
section
/-! DEFINITION. The DMA engine (R434 to R449): descriptors and their runs, bursts, levels, arbitration, and how channels
stop and go on. One burst of a channel is in progress at a time (DESIGN CHOICE: the manual does not say that a channel
can hold several movers). -/

namespace Sys2Proof.Machine

/-- A channel's object ID. -/
def channelObj (c : Nat) : Nat := 0xA000 + c

/-- Reads a descriptor (Table 19.1). -/
def readDescriptor (b : List Byte) : Descriptor :=
  let c := u32 b 0
  { op := bits c 1 0, interrupt := bit c 2, fence := bit c 3, level := bit c 4, len := u32 b 4, src := u32 b 8, dst := u32 b 12, srcOff := u48 b 16
    pattern := u32 b 16, dstOff := u48 b 22, count := u16s b 28 3, s := [i32 b 36, i32 b 40, i32 b 44], d := [i32 b 48, i32 b 52, i32 b 56], next := u32 b 60 }

/-- c_k of a descriptor, k from 0. -/
def Descriptor.c (x : Descriptor) (k : Nat) : Nat := x.count.getD k 0

/-- The lowest and the highest byte that some runs reach from an offset (R441). -/
def reach (off : Nat) (len : Nat) (counts : List Nat) (strides : List Int) : Int × Int :=
  let ext := (counts.zip strides).map fun e => ((e.1 : Int) - 1) * e.2
  ((off : Int) + (ext.filter (· < 0)).sum, (off : Int) + (ext.filter (· > 0)).sum + (len : Int) - 1)

/-! ## Runs and bursts -/

/-- The offsets of a run (R440): source and destination. -/
def runAt (x : Descriptor) (p : DmaPosition) : Nat × Nat :=
  let f := fun (l : List Int) => (p.i1 : Int) * l.getD 0 0 + (p.i2 : Int) * l.getD 1 0 + (p.i3 : Int) * l.getD 2 0
  (((x.srcOff : Int) + f x.s).toNat, ((x.dstOff : Int) + f x.d).toNat)

/-- The next run of a descriptor; none after its last (R440). -/
def nextRun (x : Descriptor) (p : DmaPosition) : Option DmaPosition :=
  if p.i1 + 1 < x.c 0 then some { p with i1 := p.i1 + 1, done := 0 }
  else if p.i2 + 1 < x.c 1 then some { p with i1 := 0, i2 := p.i2 + 1, done := 0 }
  else if p.i3 + 1 < x.c 2 then some { p with i1 := 0, i2 := 0, i3 := p.i3 + 1, done := 0 }
  else none

/-- 64-byte lines that a run of bytes touches. -/
def lines64 (off n : Nat) : Nat := if n = 0 then 0 else (off + n - 1) / 64 - off / 64 + 1

/-- A piece of a burst: source offset, destination offset, bytes. -/
abbrev Piece := Nat × Nat × Nat

/-- The side whose lines bound a burst: the source, or the destination of a fill, which has no source. -/
def boundSide (x : Descriptor) (r : Nat × Nat) : Nat := if x.op = 1 then r.2 else r.1

/-- Whole runs from a position on that touch at most `room` lines, and the position after them. -/
def wholeRuns (x : Descriptor) : Nat → Nat → DmaPosition → List Piece × Option DmaPosition
  | 0, _, p => ([], some p)
  | fuel + 1, room, p =>
    let r := runAt x p
    let n := lines64 (boundSide x r) x.len
    if n > room then ([], some p)
    else match nextRun x p with
      | some q =>
        let t := wholeRuns x fuel (room - n) q
        ((r.1, r.2, x.len) :: t.1, t.2)
      | none => ([(r.1, r.2, x.len)], none)

/-- The next burst of a descriptor from a position, and the position after it; none after the descriptor's end (R434). -/
def nextBurst (x : Descriptor) (p : DmaPosition) : List Piece × Option DmaPosition :=
  if x.op = 2 then ([], none)
  else
    let r := runAt x p
    if p.done = 0 && lines64 (boundSide x r) x.len ≤ 64 then wholeRuns x 65 64 p
    else
      let at1 := boundSide x r + p.done
      let n := min (x.len - p.done) ((at1 / 64 + 64) * 64 - at1)
      ([(r.1 + p.done, r.2 + p.done, n)],
       if p.done + n < x.len then some { p with done := p.done + n } else nextRun x p)

/-- Run bytes of a burst. -/
def burstBytes (l : List Piece) : Nat := sumOf (fun e => e.2.2) l

/-- Bytes of touched lines of a burst, on the source side and on the destination side (R436, R443). -/
def burstCost (x : Descriptor) (l : List Piece) : Nat × Nat :=
  (if x.op = 1 then 0 else 64 * sumOf (fun e => lines64 e.1 e.2.2) l, 64 * sumOf (fun e => lines64 e.2.1 e.2.2) l)

/-- Bytes of which each has its old or its new value (R447). -/
def mixOld (k : Nat) (old cur : List Byte) : List Byte :=
  (old.zip cur).zipIdx.map fun e => if e.1.1 = e.1.2 then e.1.1 else if Config.freeOld k e.2 then e.1.1 else e.1.2

/-- The key under which a channel keeps what it overwrote at an offset of a pail: the address, with a bit for host memory. -/
def cellKey (d : Dev) (h off : Nat) : Nat := match mappedPail d h with
  | some (_, p) => 2 * p.addr off + boolNat p.host
  | none => 0

/-- A byte that a channel reads and has written since its last fence takes its new value or one it had before (R442). -/
def eitherByte (k i : Nat) (old : List (Nat × Byte)) (key : Nat) (cur : Byte) : Byte :=
  match (old.filter fun e => e.1 = key).map (·.2) with
  | [] => cur
  | l => (cur :: l).getD (Config.freeNat k i % (l.length + 1)) cur

/-- Bytes of a source as a channel reads them (R442). -/
def readEither (c h off n : Nat) (d : Dev) : List Byte × Dev :=
  let (k, d) := takeFree d
  ((pailRead d h off n).zipIdx.map fun e => eitherByte k e.2 (d.channel c).overwritten (cellKey d h (off + e.2)) e.1, d)

/-- A channel writes bytes of a destination and keeps what they replace until its next fence (R442). -/
def writeKeeping (c h off : Nat) (bs : List Byte) (d : Dev) : Dev :=
  let old := (pailRead d h off bs.length).zipIdx.map fun e => (cellKey d h (off + e.2), e.1)
  pailWrite h off bs (d.onChannel c fun x => { x with overwritten := old ++ x.overwritten })

/-- The position is the first byte of its descriptor. -/
def DmaPosition.atStart (p : DmaPosition) : Bool := p.i1 = 0 && p.i2 = 0 && p.i3 = 0 && p.done = 0

/-- The bytes of a fill from offset `k` of its run. -/
def patternBytes (pattern k n : Nat) : List Byte := (List.range n).map fun i => byte (pattern / 256 ^ ((k + i) % 4))

/-- Moves the bytes of a burst; `whole` is false for one that faults, which may have written some of its bytes (R447). -/
def moveBurst (c : Nat) (x : Descriptor) (done : Nat) (whole : Bool) (l : List Piece) (d : Dev) : Dev :=
  l.foldl (fun d e =>
    let (bs, d) := if x.op = 1 then (patternBytes x.pattern done e.2.2, d) else readEither c x.src e.1 e.2.2 d
    if whole then writeKeeping c x.dst e.2.1 bs d
    else
      let (k, d) := takeFree d
      writeKeeping c x.dst e.2.1 (mixOld k (pailRead d x.dst e.2.1 e.2.2) bs) d) d

/-! ## Levels (R444) -/

/-- A signed reading of the low 32 bits. -/
def int32 (n : Nat) : Int := signed 32 n

/-- The level of a channel. -/
def levelOf (d : Dev) (c : Channel) : Int :=
  let w := unle (pailRead d c.watch c.watchOff 4)
  if c.levelMode = 1 then int32 (w + 2 ^ 32 - c.progress % 2 ^ 32) else (c.window : Int) - int32 (c.progress + 2 ^ 32 - w)

/-- The running descriptor of a channel. -/
def Channel.current (c : Channel) : Option Descriptor := c.sheaves.head?.map fun s => s.descriptors.getD c.pos.descriptor { op := 2 }

/-- The level lets a channel's next burst start. -/
def levelOk (d : Dev) (c : Channel) (x : Descriptor) : Bool :=
  if !x.level || c.levelMode = 0 then true
  else
    let v := levelOf d c
    v ≥ (burstBytes (nextBurst x c.pos).1 : Int) && v ≥ ((if c.state = .waiting then c.startMark else c.stopMark : Nat) : Int)

/-- A fault of the access to a word of a channel's configuration, whose pail may have been freed or lost its line (R431). -/
def wordFault (d : Dev) (h off : Nat) (write : Bool) : Option AccessFault := match mappedPail d h with
  | none => some .unmapped
  | some (_, p) => if write && p.readOnly then some .readOnly else if !write && pailPoisoned d h off 4 then some .poison else none

/-- The fault that a channel meets when it reads its watch word, for a descriptor that its level gates. -/
def watchFault (d : Dev) (c : Channel) : Option AccessFault :=
  if (c.state = .running || c.state = .waiting) && !c.busy && c.levelMode ≠ 0 && (match c.current with
    | some x => x.level
    | none => false) then wordFault d c.watch c.watchOff false else none

/-- The fault that a channel meets when it posts its progress. -/
def progressFault (d : Dev) (c : Channel) : Option AccessFault :=
  if c.progressPail = 0 then none else wordFault d c.progressPail c.progressOff true

/-- Tokens of a channel's two buckets now: source and destination (R436). -/
def tokensNow (d : Dev) (c : Channel) : Nat × Nat :=
  let got := (d.now - c.tokensAt) * c.rateMbps / 1000
  (min 65536 (c.tokens + got), min 65536 (c.tokensDst + got))

/-- The buckets of a channel have the tokens that a burst costs. -/
def tokensOk (d : Dev) (c : Channel) (x : Descriptor) : Bool :=
  let cost := burstCost x (nextBurst x c.pos).1
  c.cls = 3 || ((tokensNow d c).1 ≥ cost.1 && (tokensNow d c).2 ≥ cost.2)

/-- A channel has a burst that may start. -/
def channelReady (d : Dev) (c : Channel) : Bool :=
  (c.state = .running || c.state = .waiting) && !c.busy && (match c.current with
    | some x => levelOk d c x && tokensOk d c x
    | none => false)

/-- Movers that channels of classes P and G hold. -/
def lowMovers (d : Dev) : Nat := d.dma.movers.countP fun m => match m with
  | some c => (d.channel c).cls ≥ 2
  | none => false

/-- The channel of a class that weighted round-robin serves next (R435): the one whose turn it is while it has credit,
otherwise the next ready one. -/
def pickChannel (d : Dev) (cls : Nat) : Option Nat :=
  let t := tabGet d.dma.turn cls
  let ok := fun c => (d.channel c).cls = cls && channelReady d (d.channel c)
  if ok t && (d.channel t).credit > 0 then some t
  else ((List.range 64).map fun k => (t + 1 + k) % 64).find? ok

/-- A free mover takes a burst of the highest class that has a ready channel. -/
def takeBurst (m : Nat) (d : Dev) : Dev :=
  match (List.range 4).findSome? fun cls => if cls ≥ 2 && lowMovers d ≥ 4 then none else pickChannel d cls with
  | none => d
  | some c =>
    let ch := d.channel c
    let again : Bool := tabGet d.dma.turn ch.cls = c && ch.credit > 0
    let cost := match ch.current with
      | some x => burstCost x (nextBurst x ch.pos).1
      | none => (0, 0)
    let left := tokensNow d ch
    let d := d.onChannel c fun h =>
      { h with state := .running, busy := true, credit := (if again then h.credit else h.weight) - 1, tokens := left.1 - cost.1, tokensDst := left.2 - cost.2
               tokensAt := d.now }
    d.onDma fun x => { x with movers := x.movers.set m (some c), turn := x.turn.set ch.cls c }

/-- A channel stops at its position (R447): the fault's kind, its side (0 source, 1 destination, 2 watch or progress word), and the
pail and offset that it met. -/
def stopAt (c : Nat) (f : AccessFault) (side h off : Nat) (d : Dev) : Dev :=
  let dva := (match mappedPail d h with
    | some (_, p) => p.dva
    | none => 0) + off
  let s := ((d.channel c).sheaves.headD {}).number
  let d := d.onChannel c fun ch => { ch with state := .stopped, pos := { ch.pos with faultKind := faultKind f, faultSide := side, faultDva := dva } }
  let d := pailFault (channelObj c) (faultKind f) 4 dva h (d.channel c).cls (count (channelObj c) 1 1 d)
  raise 0x0F82 2 (channelObj c)
    (le 2 (channelObj c) ++ le 2 s ++ le 2 (d.channel c).pos.descriptor ++ le 1 (faultKind f) ++ le 1 side ++ le 6 dva) d

/-- Every free mover looks for work; channels whose level has fallen wait (R444), and those that cannot read it stop. -/
def assignMovers (d : Dev) : Dev :=
  let d := (List.range 64).foldl (fun d c => let h := d.channel c
    match watchFault d h with
    | some f => stopAt c f 2 h.watch h.watchOff d
    | none => d) d
  let wait := fun (c : Channel) =>
    if c.state = .running && !c.busy && (match c.current with
      | some x => !levelOk d c x
      | none => false) then { c with state := .waiting } else c
  let d := d.onDma fun m => { m with channels := m.channels.map wait }
  (List.range 8).foldl (fun d m => if (tabGet d.dma.movers m).isNone then takeBurst m d else d) d

/-! ## Sheaves -/

/-- DMA_SHEAF_DONE: the running sheaf of a channel ends, and its pails are let go (R438). Status 0 complete, 1 ended, 2
aborted. -/
def endSheaf (c status : Nat) (d : Dev) : Dev :=
  match (d.channel c).sheaves with
  | [] => d
  | s :: rest =>
    let d := d.onChannel c fun h =>
      { h with sheaves := rest, pos := { descriptor := (rest.headD {}).first }, state := if rest.isEmpty && h.state ≠ .paused then .idle else h.state }
    raise 0x0F80 0 (channelObj c) (le 2 (channelObj c) ++ le 2 s.number ++ le 1 status ++ le 1 0 ++ le 4 s.cookie ++ le 4 s.executed) d

/-- The running descriptor is over: its interrupt is raised, and the next one follows or the sheaf is complete. -/
def endDescriptor (c : Nat) (executed : Bool) (d : Dev) : Dev :=
  let h := d.channel c
  match h.sheaves, h.current with
  | s :: rest, some x =>
    let n := s.executed + boolNat executed
    let d := d.onChannel c fun h => { h with sheaves := { s with executed := n } :: rest }
    let d := if x.interrupt && executed then
        raise 0x0F81 0 (channelObj c) (le 2 (channelObj c) ++ le 2 s.number ++ le 4 h.pos.descriptor ++ le 4 s.cookie) d
      else d
    if x.next = 0xFFFFFFFF then endSheaf c 0 d
    else d.onChannel c fun h => { h with pos := { descriptor := x.next } }
  | _, _ => d

/-- Progress counts the bytes of a burst whose writes are complete, and is posted (R444). -/
def postProgress (c n : Nat) (d : Dev) : Dev :=
  let h := d.channel c
  let p := (h.progress + n) % 2 ^ 32
  let d := d.onChannel c fun h => { h with progress := p }
  if h.progressPail = 0 then d else pailWrite h.progressPail h.progressOff (le 4 p) d

/-- The mover of a channel is free. -/
def freeMover (c : Nat) (d : Dev) : Dev :=
  (d.onChannel c fun h => { h with busy := false }).onDma fun m => { m with movers := m.movers.map fun x => if x = some c then none else x }

/-- The pail and offset at which a faulting burst begins, with the side of the fault: a source that is poisoned or could
not be read, otherwise the destination. -/
def faultPlace (x : Descriptor) (side : Nat) (l : List Piece) : Nat × Nat :=
  let e := l.headD (0, 0, 0)
  if side = 0 then (x.src, e.1) else (x.dst, e.2.1)

/-- A burst faults: the channel stops at its first byte (R447). -/
def stopChannel (c : Nat) (f : AccessFault) (x : Descriptor) (l : List Piece) (d : Dev) : Dev :=
  let side := if x.op = 1 || f = .readOnly || (f = .hostFailed && !pailHost d x.src) then 1 else 0
  let (h, off) := faultPlace x side l
  stopAt c f side h off (moveBurst c x (d.channel c).pos.done false l d)

/-- Some source byte of a burst is poisoned (R405, R431). -/
def burstPoisoned (d : Dev) (x : Descriptor) (l : List Piece) : Bool :=
  x.op = 0 && l.any fun e => pailPoisoned d x.src e.1 e.2.2

/-- The burst in progress of a channel ends, with a fault or with its bytes moved. -/
def finishBurst (c : Nat) (fault : Option AccessFault) (d : Dev) : Dev :=
  let h := d.channel c
  match h.current with
  | none => freeMover c d
  | some x =>
    let (l, after) := nextBurst x h.pos
    let d := freeMover c d
    let d := if x.fence && h.pos.atStart then d.onChannel c fun h => { h with overwritten := [] } else d
    let f := fault.orElse fun _ => if burstPoisoned d x l then some .poison else none
    match f, progressFault d h with
    | some k, _ => stopChannel c k x l d
    | none, some k => stopAt c k 2 h.progressPail h.progressOff (moveBurst c x h.pos.done false l d)
    | none, none =>
      let n := burstBytes l
      let d := postProgress c n (count (channelObj c) 0 n (moveBurst c x h.pos.done true l d))
      let d := d.onChannel c fun h => { h with wroteHost := h.wroteHost || pailHost d x.dst || pailHost d h.progressPail }
      match after with
      | some p => d.onChannel c fun h => { h with pos := p }
      | none => endDescriptor c true d

/-- DMA_BURST_COMPLETE: a mover completes its burst and takes the next one; one that stands idle first takes what has become
ready. -/
def burstComplete (m : Nat) (fault : Option AccessFault) (d : Dev) : Dev :=
  let d := if (tabGet d.dma.movers m).isNone then takeBurst m d else d
  match tabGet d.dma.movers m with
  | some c => assignMovers (finishBurst c fault d)
  | none => d

/-- DMA_BURST_COMPLETE (R434). -/
def execDmaBurstComplete (time : Nat) (mover : Fin 8) (fault : Option AccessFault) (host : List (Nat × Byte)) (s : State) :
    Host.Outcome State Fault Refusal := after time (fun d => burstComplete mover fault (hostWrites host d)) s

/-- DMA_LEVEL_POLL: a waiting channel reads its watch word (R444). -/
def execDmaLevelPoll (time : Nat) (channel : Fin 64) (host : List (Nat × Byte)) (s : State) : Host.Outcome State Fault Refusal :=
  after time (fun d =>
    let d := hostWrites host d
    if (d.channel channel).state = .waiting then assignMovers d else d) s

/-! ## Pause and resume (R446 to R449) -/

/-- A burst in flight finishes before a channel pauses. -/
def drainChannel (c : Nat) (d : Dev) : Dev := if (d.channel c).busy then finishBurst c none d else d

/-- A channel pauses; a stopped one stays stopped. -/
def pauseChannel (c : Nat) (d : Dev) : Dev :=
  let pause := fun (h : Channel) => { h with state := if h.state = .stopped then .stopped else .paused, wroteHost := false }
  assignMovers ((drainChannel c d).onChannel c pause)

/-- A channel goes on in a mode (R448). -/
def resumeChannel (c mode : Nat) (d : Dev) : Dev :=
  let d := d.onChannel c fun h =>
    { h with state := if h.sheaves.isEmpty then .idle else .running, pos := { h.pos with faultKind := 0xFF, faultSide := 0, faultDva := 0 } }
  let d := if mode = 1 then endDescriptor c false d else if mode = 2 then endSheaf c 1 d else d
  assignMovers d

/-- A channel can be resumed. -/
def Channel.resumable (c : Channel) : Bool := c.state = .paused || c.state = .stopped

/-- DMA_ABORT: the running sheaf, or all of them, end; the channel is left paused while sheaves wait. -/
def abortChannel (c mode : Nat) (d : Dev) : Dev × Nat :=
  let d := drainChannel c d
  let n := (d.channel c).sheaves.length
  let k := if mode = 1 then n else min n 1
  let d := (List.range k).foldl (fun d _ => endSheaf c 2 d) (d.onChannel c fun h => { h with state := .paused })
  let rest := fun (h : Channel) => { h with state := if h.sheaves.isEmpty then .idle else .paused, wroteHost := false, pos := { h.pos with faultKind := 0xFF } }
  (assignMovers (d.onChannel c rest), k)

end Sys2Proof.Machine
end

