-- ==== Sys2Proof/Machine/DmaCmd.lean ====
section
/-! DEFINITION. Area 0x0F: the commands of the DMA channels (R434 to R450, Tables 19.1 to 19.5). -/

namespace Sys2Proof.Machine

/-- The channel a command names at offset 0. -/
def Ctx.chan (c : Ctx) : Nat := objIndex (u16 c.b 0)

/-- DMA_CHANNEL_CONFIG takes effect (R436, R445). -/
def channelSettle (c : Ctx) (d : Dev) : Dev :=
  let b := c.b
  d.onChannel c.chan fun h =>
    { h with cls := u8 b 2, weight := u8 b 3, rateMbps := u32 b 4, levelMode := u8 b 8, watch := u32 b 12, watchOff := u32 b 16, progressPail := u32 b 20
             progressOff := u32 b 24, startMark := u32 b 28, stopMark := u32 b 32, window := u32 b 36, progress := 0, tokens := 65536, tokensDst := 65536, tokensAt := d.now
             credit := 0 }

/-- DMA_CHANNEL_CONFIG (R436, R444, R450, Table 19.3). -/
def specDmaChannelConfig : CmdSpec where
  op := 0x0F00
  stageable := fun _ => true
  length := fixed 44
  ranges := fun d b => [obj b 0 0xA, rng b 2 1 0 3, rng b 3 1 1 16, rng b 4 4 0 100000, rng b 8 1 0 2, zeroAt b 9 3, handle0 d b 12,
    chk 16 (u32 b 16 % 4 = 0), handle0 d b 20, chk 24 (u32 b 24 % 4 = 0), rng b 28 4 0 (2 ^ 31 - 1), rng b 32 4 0 (2 ^ 31 - 1),
    rng b 36 4 0 (2 ^ 31 - 1), zeroAt b 40 4]
  handles := fun b => [u32 b 12, u32 b 20].filter (· ≠ 0)
  combos := fun d c =>
    let b := c.b
    let on : Bool := u8 b 8 ≠ 0
    comboCheck [bad ((u8 b 2 == 3) != (u32 b 4 == 0)) 4, bad (on != (u32 b 12 != 0)) 12,
      bad (on && u32 b 16 + 4 > pailSize d (u32 b 12)) 16, bad (u32 b 20 ≠ 0 && u32 b 24 + 4 > pailSize d (u32 b 20)) 24,
      bad (on != (u32 b 28 != 0)) 28, bad (on != (u32 b 32 != 0) || u32 b 32 > u32 b 28) 32, bad ((u8 b 8 == 2) != (u32 b 36 != 0)) 36]
  targets := fun _ b => [u16 b 0]
  against := fun d c => if (d.channel c.chan).sheaves.isEmpty then none else some (.busy 3)
  settle := channelSettle

/-! ## Submission -/

/-- What is wrong with a descriptor: status, and the offset of the field (R441). Field ranges come first. -/
def descriptorFault (d : Dev) (n : Nat) (b : List Byte) : Option (Nat × Nat) :=
  let x := readDescriptor b
  let live := fun h => (livePail d h).isSome
  let range := 0x0501
  let comb := 0x0502
  let ro := match livePail d x.dst with
    | some (_, p) => p.host && p.readOnly
    | none => false
  let srcR := reach x.srcOff x.len x.count x.s
  let dstR := reach x.dstOff x.len x.count x.d
  let outside := fun (r : Int × Int) (h : Nat) => r.1 < 0 || r.2 ≥ (pailSize d h : Int)
  let checks : List (Bool × Nat × Nat) :=
    [(u32 b 0 ≥ 32 || x.op = 3, range, 0), (x.len > 16777216, range, 4), (x.op = 0 && !live x.src, range, 8), (x.op ≤ 1 && !live x.dst, range, 12),
     (x.op = 1 && fieldAt b 20 2 ≠ 0, range, 20), (u16 b 34 ≠ 0, range, 34), (x.next ≠ 0xFFFFFFFF && x.next ≥ n, range, 60),
     ((x.op = 2) != (x.len == 0), comb, 4), (x.op ≠ 0 && x.src ≠ 0, comb, 8), (x.op = 2 && x.dst ≠ 0, comb, 12), (x.op ≤ 1 && ro, comb, 12)]
    ++ (List.range 3).map (fun k => ((x.op == 2) != (x.c k == 0), comb, 28 + 2 * k))
    ++ (List.range 3).map (fun k => (x.op ≠ 0 && x.s.getD k 0 ≠ 0, comb, 36 + 4 * k))
    ++ [(x.op = 0 && outside srcR x.src, range, 16), (x.op ≤ 1 && outside dstR x.dst, range, 22)]
  (checks.find? (·.1)).map (·.2)

/-- Descriptors that can be reached from one by next links, in that order. -/
def reachable (ds : List Descriptor) : Nat → Nat → List Nat → List Nat
  | 0, _, seen => seen
  | fuel + 1, i, seen =>
    if i ∈ seen || i ≥ ds.length then seen else reachable ds fuel (ds.getD i {}).next (seen ++ [i])

/-- The descriptors that a submission copies. -/
def sheafBlocks (d : Dev) (b : List Byte) : List (List Byte) :=
  (List.range (u16 b 2)).map fun k => pailRead d (u32 b 4) (u64 b 8 + 64 * k) 64

/-- The first descriptor that a submission's validation refuses. -/
def sheafFault (d : Dev) (b : List Byte) : Option Rsp :=
  let blocks := sheafBlocks d b
  let l := reachable (blocks.map readDescriptor) (u16 b 2) (u32 b 16) []
  l.findSome? fun i => (descriptorFault d (u16 b 2) (blocks.getD i [])).map fun f =>
    { status := f.1, detail := 0, params := le 4 i ++ le 1 f.2 ++ le 3 0 }

/-- The pails that the reachable descriptors of a submission name. -/
def sheafPails (d : Dev) (b : List Byte) : List Nat :=
  let ds := (sheafBlocks d b).map readDescriptor
  ((reachable ds (u16 b 2) (u32 b 16) []).flatMap fun i => let x := ds.getD i {}; [x.src, x.dst]).dedup.filter (· ≠ 0)

/-- DMA_SHEAF_SUBMIT (R437, R438, R441, Table 19.4). Above 512 descriptors the reply is PENDING, and the command is complete
as soon as the descriptors have been copied. -/
def specDmaSheafSubmit : CmdSpec where
  op := 0x0F01
  length := fixed 24
  ranges := fun d b => [obj b 0 0xA, rng b 2 2 1 4096, handle d b 4, chk 8 (u64 b 8 % 64 = 0)]
  handles := fun b => [u32 b 4]
  combos := fun d c =>
    let b := c.b
    (comboCheck [bad (u64 b 8 + 64 * u16 b 2 > pailSize d (u32 b 4)) 8, bad (u32 b 16 ≥ u16 b 2) 16]).orElse fun _ => sheafFault d b
  targets := fun _ b => [u16 b 0]
  against := fun d c =>
    let h := d.channel c.chan
    let importing : Bool := (sheafPails d c.b).any fun p => match livePail d p with
      | some (_, x) => x.importing.isSome
      | none => false
    if importing || h.sheaves.length ≥ 8 || sumOf (fun s => s.descriptors.length) h.sheaves + u16 c.b 2 > 4096 then some (.busy 3) else none
  act := fun c d =>
    let b := c.b
    let ch := c.chan
    let h := d.channel ch
    let s : Sheaf := { number := h.nextSheaf, cookie := u32 b 20, first := u32 b 16, descriptors := (sheafBlocks d b).map readDescriptor, pails := sheafPails d b }
    let start : Bool := h.state = .idle
    let d := d.onChannel ch fun h =>
      { h with sheaves := h.sheaves ++ [s], nextSheaf := h.nextSheaf % 65535 + 1, state := if start then .running else h.state
               pos := if h.sheaves.isEmpty then { descriptor := s.first } else h.pos }
    let d := assignMovers d
    if u16 b 2 > 512 then (completeCmd c.pending .ok d, some .pending) else (d, some (.ok (le 2 s.number ++ le 2 h.sheaves.length)))

/-! ## Control -/

/-- The code of a channel's state. -/
def ChannelState.code : ChannelState → Nat
  | .idle => 0
  | .running => 1
  | .waiting => 2
  | .paused => 3
  | .stopped => 4

/-- The parameters of DMA_QUERY's reply (Table 19.5). -/
def channelBytes (d : Dev) (c : Nat) : List Byte :=
  let h := d.channel c
  let p := h.pos
  le 1 h.state.code ++ le 1 h.sheaves.length ++ le 2 (h.sheaves.headD { number := 0 }).number ++ le 4 h.progress ++ le 4 p.descriptor ++ le 2 p.i1
    ++ le 2 p.i2 ++ le 2 p.i3 ++ le 2 0 ++ le 4 p.done ++ le 1 p.faultKind ++ le 1 p.faultSide ++ le 6 p.faultDva
    ++ le 8 (counterOf d (channelObj c) 0) ++ le 4 (counterOf d (channelObj c) 1)

/-- A pause or an abort replies PENDING when writes to the host are to be flushed, which is done at once (R446, Table 19.2). -/
def flushReply (flush : Bool) (p : PendingCmd) (bs : List Byte) (d : Dev) : Dev × Option Rsp :=
  if flush then (completeCmd p .ok d, some (.pending bs)) else (d, some (.ok bs))

/-- DMA_PAUSE (R446): the reply gives bytes 8 to 27 of DMA_QUERY's. -/
def specDmaPause : CmdSpec where
  op := 0x0F02
  length := fixed 4
  ranges := fun _ b => [obj b 0 0xA, zeroAt b 2 2]
  targets := fun _ b => [u16 b 0]
  act := fun c d =>
    let d := drainChannel c.chan d
    let flush := (d.channel c.chan).wroteHost
    let d := pauseChannel c.chan d
    flushReply flush c.pending (slice (channelBytes d c.chan) 8 20) d

/-- DMA_RESUME (R448). -/
def specDmaResume : CmdSpec where
  op := 0x0F03
  length := fixed 4
  ranges := fun _ b => [obj b 0 0xA, rng b 2 1 0 2, zeroAt b 3 1]
  targets := fun _ b => [u16 b 0]
  against := fun d c => if (d.channel c.chan).resumable then none else some (.busy 3)
  act := fun c d => (resumeChannel c.chan (u8 c.b 2) d, some .ok)

/-- DMA_ABORT (R449). -/
def specDmaAbort : CmdSpec where
  op := 0x0F04
  length := fixed 4
  ranges := fun _ b => [obj b 0 0xA, rng b 2 1 0 1, zeroAt b 3 1]
  targets := fun _ b => [u16 b 0]
  act := fun c d =>
    let d := drainChannel c.chan d
    let flush := (d.channel c.chan).wroteHost
    let (d, n) := abortChannel c.chan (u8 c.b 2) d
    flushReply flush c.pending (le 2 n ++ le 2 0) d

/-- DMA_QUERY. -/
def specDmaQuery : CmdSpec where
  op := 0x0F05
  length := fixed 4
  ranges := fun _ b => [obj b 0 0xA, zeroAt b 2 2]
  act := fun c d => (d, some (.ok (channelBytes d c.chan)))

end Sys2Proof.Machine
end

