-- ==== Sys2Proof/Machine/LaunchCmd.lean ====
section
/-! DEFINITION. The launch queue (R353, R354, Table 14.10): scheduling, firing, and the steps of a domain that pass
entries. -/

namespace Sys2Proof.Machine

/-- The action of a launch; the second value tells whether the target could take it. A flow starts only where admission
passes without raising VCORE. -/
def launchAction (l : Launch) (d : Dev) : Dev × Bool :=
  let i := objIndex l.target
  match l.kind with
  | 0 => (raise 0x0B88 0 (domainObj l.domain) (le 2 l.id ++ le 2 0 ++ le 4 l.cookie) d (td := l.domain), true)
  | 1 => if (d.channel i).resumable then (resumeChannel i 0 d, true) else (d, false)
  | 2 => match mapGet d.net.flows i with
    | some f => if f.running || !f.bound then (d, false) else (match admitTest d (startFlow i d) true .change with
      | .step _ => (syncInternal (startFlow i d), true)
      | .refuse _ => (d, false))
    | none => (d, false)
  | _ =>
    let pulse := fun (p : SyncPin) => { p with pulseUntil := some (d.now + l.widthNs) }
    (d.onFurrow i fun f => { f with pins := tabMod f.pins l.pin pulse }, true)

/-- A launch fires (R354): LAUNCH_MISSED tells of a target that could not take it, or that a step passed its time. -/
def fireLaunch (passed : Bool) (d : Dev) (l : Launch) : Dev :=
  let d := d.onTime fun t => { t with launches := t.launches.filter fun x => x.id ≠ l.id }
  let (d, ok) := launchAction l d
  if !ok then launchMissed l 1 d else if passed then launchMissed l 0 d else d

/-- An entry of a list by its time, equal times in their order. -/
def insertLaunch (l : Launch) : List Launch → List Launch
  | [] => [l]
  | x :: xs => if x.time ≤ l.time then x :: insertLaunch l xs else l :: x :: xs

/-- The entries of a domain whose time has come, earliest first and equal times in scheduling order. -/
def dueLaunches (d : Dev) (td : Nat) : List Launch :=
  (d.time.launches.filter fun l => l.domain = td && l.time ≤ domainNow d td).foldl (fun acc l => insertLaunch l acc) []

/-- Every due entry of a domain fires; a disabled domain keeps no entries. -/
def fireDue (passed : Bool) (td : Nat) (d : Dev) : Dev := (dueLaunches d td).foldl (fireLaunch passed) d

/-- The lowest entry ID that no waiting entry has. -/
def freeLaunchId (d : Dev) : Option Nat := (List.range 1024).find? fun i => d.time.launches.all fun l => l.id ≠ i

/-- The target that a kind asks for (Table 14.10). -/
def launchTargetOk (kind target : Nat) : Bool := match kind with
  | 0 => target = 0
  | 1 => objIs 0xA target
  | 2 => objIs 0x8 target && objIndex target < 64
  | 3 => objIs 0x1 target
  | _ => true

/-- The entry that a command describes. -/
def readLaunch (id : Nat) (c : Ctx) : Launch :=
  { id, domain := c.td, kind := u8 c.b 2, target := u16 c.b 4, pin := u8 c.b 6, time := timeAt c.b 8, widthNs := u32 c.b 20
    cookie := u32 c.b 24, session := c.session }

/-- LAUNCH_SCHEDULE takes effect: an entry is queued, fires at once with ASAP, or is cancelled. -/
def launchAct (c : Ctx) (d : Dev) : Dev × Option Rsp :=
  if u8 c.b 2 = 0xF then
    match d.time.launches.find? fun l => l.id = u16 c.b 4 with
    | some l =>
      let d := d.onTime fun t => { t with launches := t.launches.filter fun x => x.id ≠ l.id }
      (launchMissed l 2 d, some (.ok (le 2 l.id ++ le 2 0)))
    | none => (d, some (.range 4))
  else match freeLaunchId d with
    | none => (d, some (.noResource 0xE))
    | some id =>
      let l := readLaunch id c
      let d := d.onTime fun t => { t with launches := t.launches ++ [l] }
      let d := if l.time < domainNow d l.domain + 100000 then fireLaunch false d l else d
      (d, some (.ok (le 2 id ++ le 2 0)))

/-- The objects a launch changes: the target of kinds 1 to 3 (step 13 is applied at scheduling). -/
def launchTargets (b : List Byte) : List Nat := if within (u8 b 2) 1 3 then [u16 b 4] else []

/-- LAUNCH_SCHEDULE (R353, R354, Table 14.10). -/
def specLaunchSchedule : CmdSpec where
  op := 0x0B05
  length := fixed 28
  ranges := fun d b =>
    let kind := u8 b 2
    let now := domainNow d (objIndex (u16 b 0))
    let t := timeAt b 8
    let soon : Bool := t < now + 100000 && !bit (u8 b 3) 0
    [obj b 0 0xE, chk 2 (kind ≤ 3 || kind = 0xF), flagBits b 3 1 1,
     chk 4 (if kind = 0xF then d.time.launches.any fun l => l.id = u16 b 4
            else if kind = 2 && launchTargetOk 2 (u16 b 4) then (mapGet d.net.flows (objIndex (u16 b 4))).isSome
            else within kind 0 3 && (u16 b 4 = 0 || objIs 0xA (u16 b 4) || objIs 0x1 (u16 b 4) || launchTargetOk 2 (u16 b 4))),
     rng b 6 1 0 3, zeroAt b 7 1, chk 8 (kind = 0xF || (!soon && t ≤ now + 86400000000000))]
    ++ timeField b 8 ++ [chk 20 (u32 b 20 = 0 || within (u32 b 20) 100 100000000)]
  combos := fun d c =>
    let b := c.b
    let kind := u8 b 2
    let cancel : Bool := kind = 0xF
    let mine := d.time.launches.find? fun l => l.id = u16 b 4
    comboCheck [bad (cancel && mine.all fun l => l.domain ≠ c.td) 0, bad (!cancel && (d.domain c.td).state = .disabled) 0,
      bad (cancel && u8 b 3 ≠ 0) 3, bad (!cancel && !launchTargetOk kind (u16 b 4)) 4, bad (kind ≠ 3 && u8 b 6 ≠ 0) 6,
      bad (cancel && (slice b 8 12).any fun x => x ≠ 0) 8, bad ((kind == 3) != (u32 b 20 != 0)) 20, bad (cancel && u32 b 24 ≠ 0) 24]
  targets := fun _ b => launchTargets b
  against := fun d c => if u8 c.b 2 ≠ 0xF && d.time.launches.length ≥ 1024 then some (.noResource 0xE) else none
  act := launchAct

/-- A launch time is reached (R354): the due entries of the named one’s domain fire in order. -/
def launchDue (id : Nat) (d : Dev) : Dev :=
  match d.time.launches.find? fun l => l.id = id with
  | some l => if (d.domain l.domain).state ≠ .disabled then fireDue false l.domain d else d
  | none => d

/-- LAUNCH_FIRE (R353, R354). -/
def execLaunchFire (time id : Nat) (s : State) : Host.Outcome State Fault Refusal := after time (launchDue id) s

/-- A domain's step takes effect (R341); entries that a forward step passes fire at once (R354). -/
def applyStep (td : Nat) (d : Dev) : Dev :=
  match dueStep d td with
  | none => d
  | some (s, moveGrid) =>
    let d := fireDue false td d
    let d := stepNow td s moveGrid d
    fireDue true td d

/-- TD_STEP_APPLY (R341, R342, R354). -/
def execTdStepApply (time : Nat) (td : Fin 6) (s : State) : Host.Outcome State Fault Refusal := after time (applyStep td) s

/-- An edge of a checked reference input (R343). -/
def referenceEdge (i : RefIn) (d : Dev) : Dev :=
  match i with
  | .genlockH => genlockH d
  | .genlockF =>
    let n := genlockF d
    if counterOf n (domainObj 4) 3 = counterOf d (domainObj 4) 3 then n else fireDue true 4 n
  | .ltcIn => if d.time.ltc.input.enabled then (ltcEdge d).1 else d
  | .audio p => portEdge p d

/-- REFERENCE_EDGE (R343). -/
def execReferenceEdge (time : Nat) (input : RefIn) (s : State) : Host.Outcome State Fault Refusal := after time (referenceEdge input) s

end Sys2Proof.Machine
end

