-- ==== Sys2Proof/Machine/Streams.lean ====
section
/-! DEFINITION. Area 0x02, streams and admission (R44 to R47, Tables 2.7 to 2.10). -/

namespace Sys2Proof.Machine

/-- STREAM_ADMIT takes effect on a configuration. -/
def admitSettle (c : Ctx) (d : Dev) : Dev :=
  d.onStream (objIndex (u16 c.b 0)) fun s => { s with admission := .admitted, minPeriod := u32 c.b 4, maxPeriod := u32 c.b 8 }

/-- The reply parameters of Table 2.8 at a step. -/
def admitReply (d : Dev) (step : Nat) : List Byte :=
  le 2 step ++ le 2 0 ++ (utilisation d (loadOf d) d.fabric.admStep).flatMap (le 2)

/-- STREAM_ADMIT (R44, Table 2.7). With DRY_RUN it is a query that the transaction engine answers (R574). -/
def specStreamAdmit : CmdSpec where
  op := 0x0201
  stageable := fun b => !bit (u16 b 2) 0
  length := fixed 16
  ranges := fun _ b => [obj b 0 0x2, flagBits b 2 2 2, rng b 4 4 500000 2000000000, rng b 8 4 500000 2000000000, zeroAt b 12 4]
  combos := fun _ c => comboCheck [(u32 c.b 8 < u32 c.b 4, 8)]
  targets := fun _ b => if bit (u16 b 2) 0 then [] else [u16 b 0]
  settle := admitSettle
  own := fun _ d => admitReply d d.fabric.cmdStep

/-- STREAM_RELEASE takes effect: the furrow stops as FURROW_STOP mode 0 does, and the stream's capacity returns once its
last job completes (R47, R154). -/
def releaseSettle (c : Ctx) (d : Dev) : Dev :=
  let n := objIndex (u16 c.b 0)
  if (d.stream n).admission = .admitted then
    let d := d.onStream n fun s => { s with admission := .released }
    let d := match furrowOf d n with
      | some (i, _) => stopFurrow i 0 d
      | none => d
    settleReleased n d
  else d

/-- STREAM_RELEASE. -/
def specStreamRelease : CmdSpec where
  op := 0x0202
  stageable := fun _ => true
  length := fixed 4
  ranges := fun _ b => [obj b 0 0x2, zeroAt b 2 2]
  targets := fun _ b => [u16 b 0]
  settle := releaseSettle

/-- The stream whose work an object is: a stream, a branch, or an encoder session of one. -/
def servesStream (d : Dev) (o n : Nat) : Bool := match objType o with
  | 0x2 => objIndex o = n
  | 0x3 => (branchOf o).1 = n
  | 0x5 => ((mapGet d.codecs.encoders (objIndex o)).bind encoderStream) = some n
  | 0x6 => (d.stream n).decoder = some (objIndex o)
  | _ => false

/-- The module with one stream alone, admitted: its sessions, the raster planes, flows and recording tracks that take its outputs, and
nothing else (Table 2.10). -/
def aloneDev (d : Dev) (n : Nat) : Dev :=
  let serves := servesStream d
  let d : Dev := { d with streams := (indexed d.streams).map fun e => { e.2 with admission := if e.1 = n then .admitted else .out } }
  let d := d.onCodecs fun c =>
    { c with encoders := c.encoders.filter fun e => serves (0x5000 + e.1) n, decoders := c.decoders.filter fun e => serves (0x6000 + e.1) n }
  let d := d.onDisplay fun x => { x with rasters := x.rasters.map fun r =>
    { r with planes := r.planes.map fun p => if p.sourceKind = 0 && serves p.source n then p else { p with mode := 0 } } }
  let d := d.onNet fun x => { x with flows := x.flows.filter fun e => e.1 < 64 && serves e.2.bindObject n }
  let d := d.onDma fun x => { x with channels := [] }
  d.onMag fun m => { m with recordings := (m.recordings.map fun r => { r with tracks := r.tracks.filter fun t => serves t.source n }).filter fun r =>
    !r.tracks.isEmpty }

/-- The demand of one stream in reply units (Table 2.10). -/
def streamFigures (d : Dev) (n : Nat) : List Nat :=
  let t := aloneDev d n
  let l := loadOf t
  (List.range 10).map fun i => rep32 (if i = 7 then worstLatency t l d.fabric.admStep else l.demand (i + 1))

/-- STREAM_QUERY. -/
def specStreamQuery : CmdSpec where
  op := 0x0200
  length := fixed 4
  ranges := fun _ b => [obj b 0 0x2, zeroAt b 2 2]
  act := fun c d =>
    let n := objIndex (u16 c.b 0)
    let s := d.stream n
    let source := if n < 16 then (match furrowOf d n with
        | some (i, _) => 0x1000 + i
        | none => 0)
      else (match s.decoder with
        | some i => 0x6000 + i
        | none => 0)
    let state := match s.admission with
      | .out => 0
      | .admitted => 1
      | .released => 2
    (d, some (.ok (le 1 state ++ le 1 (boolNat (n ≥ 16)) ++ le 2 source ++ le 4 s.minPeriod ++ le 4 s.maxPeriod
      ++ le 4 s.boundEpoch ++ le 8 s.frame ++ (streamFigures d n).flatMap (le 4))))

/-- ADMIT_QUERY: released streams whose jobs still run count as demand (R47). -/
def specAdmitQuery : CmdSpec where
  op := 0x0203
  length := fixed 0
  act := fun _ d =>
    let l := loadOf d
    let k := d.fabric.admStep
    let pairs := (List.range 10).flatMap fun i =>
      let x := if i = 7 then worstLatency d l k else l.demand (i + 1)
      le 4 (rep32 x) ++ le 4 (rep32 (capacity d l (i + 1) k))
    (d, some (.ok (le 2 d.fabric.cmdStep ++ le 2 (lowestStep d l) ++ pairs)))

/-- The hottest die sensor (R36, R400). -/
def hottest (d : Dev) : Int := d.fabric.stackTj.foldl max d.fabric.tj

/-- PACE_QUERY. -/
def specPaceQuery : CmdSpec where
  op := 0x0204
  length := fixed 0
  act := fun _ d =>
    let k := kOf d.fabric.cmdStep
    (d, some (.ok (le 2 d.fabric.cmdStep ++ le 2 d.fabric.vout ++ leInt 2 (hottest d)
      ++ le 2 (boolNat d.fabric.lapse.isNone) ++ d.fabric.fields.flatMap fun f => le 2 (min 65535 (f.pacer * 1000 / k)))))

end Sys2Proof.Machine
end

