-- ==== Sys2Proof/Machine/Table.lean ====
section
/-! DEFINITION. The commands that a transaction can stage, and the other commands of areas 0x02 to 0x10, by opcode
(Table 3.13). -/

namespace Sys2Proof.Machine

/-- The commands of areas 0x02 to 0x10. -/
def engineSpecs : List CmdSpec :=
  [specStreamQuery, specStreamAdmit, specStreamRelease, specAdmitQuery, specPaceQuery]
  ++ [specFurrowConfig, specFurrowLaneMap, specFurrowSyncCodes, specFurrowTrain, specFurrowGang, specFurrowStatus,
      specSensorProfileLoad, specSensorRegWrite, specSensorRegRead, specSensorMclkSet, specSyncPinSet, specFurrowStart, specFurrowStop]
  ++ [specRawBlackSet, specRawDefectLoad, specRawFpnLoad, specRawNoiseModelSet, specRawSnrSet, specRawTnrSet, specRawDualGainSet,
      specRawShadingLoad, specRawWbSet, specRawQuery]
  ++ [specDemosaicSet, specColourSpaceSet, specMatrixSet, specCdlSet, specLut1dLoad, specLut3dLoad, specTransferSet,
      specBranchConfig, specBranchScalerSet, specBranchEnable, specBranchQuery]
  ++ [specStatsConfig, specStatsZonesSet, specTapConfig, specTapEnable, specStatsQuery,
      specMotionConfig, specMotionSearchSet, specMotionExport, specMotionQuery]
  ++ [specEncOpen, specEncClose, specEncConfig, specEncRcSet, specEncForceIrap, specEncBind, specEncQuery, specEncXsConfig,
      specDecOpen, specDecClose, specDecSubmit, specDecFlush, specDecBind, specDecQuery]
  ++ [specRasterTimingSet, specRasterPlaneSet, specRasterOutputSet, specRasterGroupSet, specRasterCommitCutSet, specRasterCrcSet,
      specRasterRefreshSet, specRasterUnderrunSet, specSdiRxConfig, specRasterQuery, specRasterStart, specRasterStop]
  ++ [specTdConfig, specTdQuery, specPtpConfig, specGenlockConfig, specLtcConfig, specLaunchSchedule, specTdRateCommit,
      specTimeAnchorConfig]
  ++ [specMacConfig, specFlowSendCreate, specFlowRecvCreate, specFlowDelete, specFlowBind, specFlowStart, specFlowStop,
      specFlowQuery, specUdpControlSet]
  ++ [specSapConfig, specSapSlotMap, specSapGroupSet, specSapClockSet, specAsrcConfig, specAudioEmbedSet, specSapRestart, specSapQuery]
  ++ [specPailAlloc, specPailImportHost, specPailFree, specPailQuery, specPailMap]
  ++ [specDmaChannelConfig, specDmaSheafSubmit, specDmaPause, specDmaResume, specDmaAbort, specDmaQuery]
  ++ [specRankQuery, specRankRetire]
  ++ magSpecs

/-- The command of an opcode in areas 0x02 to 0x10. -/
def engineSpec (op : Nat) : Option CmdSpec := engineSpecs.find? fun s => s.op = op

end Sys2Proof.Machine
end

