-- ==== Sys2Proof/Machine/Txn.lean ====
section
/-! DEFINITION. Transactions and commits (chapter 04): timelines, the checks of Table 4.4, epochs, effective frames, sensor
groups in lockstep, the hold, application, failure and restores. -/

namespace Sys2Proof.Machine

/-! ## Timelines (R94) -/

/-- The timeline of a stream: none while its furrow is stopped (R145) or its playback has not begun. -/
def streamTimeline (d : Dev) (n : Nat) : Timeline :=
  if n < 16 then match furrowOf d n with
    | some (i, _) => if (d.furrow i).runs then .stream n else .untimed
    | none => .untimed
  else if (playbackDecoder d n).isSome && (d.stream n).lastSof.isSome then .stream n else .untimed

/-- The timeline of an object (Table 4.2). -/
def keyTimeline (d : Dev) (k : Nat) : Timeline :=
  if k ≥ 0x10000 then .untimed
  else
    let i := objIndex k
    match objType k with
    | 0x1 => match (d.furrow (if (d.furrow i).ganged then i / 2 * 2 else i)).config with
      | some c => streamTimeline d c.stream
      | none => .untimed
    | 0x2 => streamTimeline d i
    | 0x3 => streamTimeline d (branchOf k).1
    | 0x4 => if (d.raster i).running then (match (d.raster i).group with
        | some g => .group g
        | none => .raster i) else .untimed
    | 0x5 => match ((mapGet d.codecs.encoders i).filter (·.configured)).bind encoderStream with
      | some n => if n < 16 then streamTimeline d n else .untimed
      | none => .untimed
    | _ => .untimed

/-- The raster whose grid a raster timeline follows. -/
def leadRaster (d : Dev) : Timeline → Option Nat
  | .raster r => some r
  | .group g => ((indexed d.display.rasters).find? fun e => e.2.group = some g && e.2.running).map (·.1)
  | _ => none

/-- A timeline belongs to a raster. -/
def timelineOfRaster (d : Dev) (i : Nat) : Timeline := match (d.raster i).group with
  | some g => .group g
  | none => .raster i

/-- The keys a staged command changes. -/
def stagedKeys (d : Dev) (s : Staged) : List Nat := match engineSpec s.op with
  | some x => x.targets d s.params
  | none => []

/-- The first timed target of a staged command, with its timeline. -/
def stagedTimeline (d : Dev) (s : Staged) : Timeline × Nat :=
  match (stagedKeys d s).find? fun k => keyTimeline d k ≠ .untimed with
  | some k => (keyTimeline d k, keyObj k)
  | none => (.untimed, 0)

/-! ## Predictions (R101, R103) -/

/-- The time of a timeline's domain at an instant of the module's clock. -/
def timelineAt (d : Dev) (t : Timeline) (now : Nat) : Nat := (d.domain (timelineDomain d t)).timeAt now

/-- The current time of a timeline's domain. -/
def timelineNow (d : Dev) (t : Timeline) : Nat := timelineAt d t d.now

/-- The predicted start of a frame of a timeline, in ns of its domain. -/
def frameStartOf (d : Dev) (t : Timeline) (frame : Nat) : Int := match t with
  | .stream n => streamStartOf d n frame
  | _ => match leadRaster d t with
    | some r => ((d.raster r).startOf frame : Int)
    | none => 0

/-- Φ of a raster over a stream as it stands (R312): its grid's place after the stream's latest SOF, and of the places one period apart the one
nearest to the phase_ns of a raster that names the stream. -/
def standingPhase (d : Dev) (x : Raster) (n : Nat) : Int :=
  match (d.stream n).lastSof with
  | some s =>
    let p := x.timing.period
    let off : Rat := (x.gridBase : Rat) - (s : Rat)
    let want : Rat := if x.timing.refStream = 0x2000 + n then (x.timing.phaseNs : Rat) else p / 2
    if p = 0 then off.floor else (off + p * (((want - off) / p + 1 / 2).floor : Rat)).floor
  | none => (x.timing.phaseNs : Int)

/-- Φ of a timeline's raster: over the stream it names, or else over the anchor's stream. -/
def phaseOf (d : Dev) (anchor t : Timeline) : Int := match leadRaster d t with
  | some r =>
    let x := d.raster r
    if x.timing.refStream ≠ 0 then standingPhase d x (objIndex x.timing.refStream)
    else (match anchor with
      | .stream n => standingPhase d x n
      | _ => 0)
  | none => 0

/-- The first frame of a timeline that starts at or after a time. -/
def firstFrameAt (d : Dev) (t : Timeline) (at' : Int) : Nat := match t with
  | .stream n =>
    let s := d.stream n
    let p : Int := max 1 s.minPeriod
    (max 1 ((s.frame : Int) + (at' - ((s.lastSof.getD 0 : Nat) : Int) + p - 1) / p)).toNat
  | _ => match leadRaster d t with
    | some r =>
      let x := d.raster r
      (max 1 (1 - (((x.gridBase : Int) - at' : Int) : Rat) / x.timing.period).ceil).toNat
    | none => 1

/-- The latest frame of a timeline that has begun. -/
def frameNow (d : Dev) (t : Timeline) : Nat := match t with
  | .stream n => (d.stream n).frame
  | _ => match leadRaster d t with
    | some r => (d.raster r).frame
    | none => 0

/-- The frame of a timeline at which parts apply when the anchor's frame is E (R101): a stream's first frame at or after SOF(E), a raster's at or
after SOF(E) plus Φ, which is taken over the anchor's own Φ where the anchor is a raster. Periods are declared in whole ns, so a start is
predicted to 1 ns a frame. -/
def mapFrame (d : Dev) (anchor : Timeline) (e : Nat) (t : Timeline) : Nat :=
  if t = anchor then e
  else
    let phase := if (leadRaster d t).isSome then phaseOf d anchor t - phaseOf d anchor anchor else 0
    firstFrameAt d t (frameStartOf d anchor e + phase - (max 1 (e - frameNow d anchor) : Nat))

/-- The commit cut that closes the window of raster frame `f`, in ns of the raster's domain (R321). -/
def cutTime (x : Raster) (f : Nat) : Int :=
  ((x.startOf f : Nat) : Int) - x.timing.period.floor + (x.timing.lineStart (x.timing.activeLine (x.timing.vActive - x.cut))).floor

/-- The writes a set of commands makes, by furrow and group, in staging order. -/
def groupWrites (l : List Staged) : List GroupWrite :=
  (indexed l).foldl (fun acc e =>
    let s := e.2
    if s.op = 0x0307 then
      let i := objIndex (u16 s.params 0)
      let g := u8 s.params 2
      let w := regWrites s.params
      let order := w.map fun _ => e.1
      match acc.find? fun x => x.furrow = i && x.group = g with
      | some _ => acc.map fun x => if x.furrow = i && x.group = g then { x with writes := x.writes ++ w, order := x.order ++ order } else x
      | none => acc ++ [{ furrow := i, group := g, writes := w, order }]
    else acc) []

/-- The earliest effective frame that a group's window still allows at an instant (R100, R103). -/
def groupEarliest (d : Dev) (now n : Nat) (x : GroupWrite) : Nat :=
  match groupDesc d x.furrow x.group with
  | none => 0
  | some g =>
    let need : Int := (timelineAt d (.stream n) now : Int) + (groupSlack d x).ceil
    let s := d.stream n
    let p : Int := max 1 s.minPeriod
    let f : Int := (s.frame : Int) + (need - windowClose d n g s.frame + p - 1) / p
    (max 1 (f + g.delay)).toNat

/-- The earliest frame of a timeline that is still open, its sensor windows judged at an instant (R100). -/
def earliestFrame (d : Dev) (at' : Nat) (groups : List GroupWrite) (t : Timeline) : Nat :=
  let waiting := maxOf id (d.ctl.commits.flatMap fun c => c.parts.filterMap fun p =>
    if p.timeline = t && !p.applied then p.frame else none)
  match t with
  | .stream n =>
    let own := maxOf (fun x => if timedStream d x.furrow = some n then groupEarliest d at' n x else 0) groups
    max (max waiting own) (max ((d.stream n).frame + 1) (firstFrameAt d t ((timelineAt d t at' : Int) + 1)))
  | _ => match leadRaster d t with
    | some r =>
      let x := d.raster r
      let now : Int := timelineAt d t at'
      let next := x.frame + 1
      max waiting (if now ≤ cutTime x next then next else (max (next : Int) (1 - (cutTime x 1 - now : Int) / x.timing.period).ceil).toNat)
    | none => waiting

/-- The smallest anchor frame at which every timeline's part can still apply. -/
def fitFrame (d : Dev) (anchor : Timeline) (early : List (Timeline × Nat)) : Nat → Nat → Nat
  | 0, e => e
  | fuel + 1, e =>
    if early.all fun x => mapFrame d anchor e x.1 ≥ x.2 then e else fitFrame d anchor early fuel (e + 1)

/-- The frames of a plan: E on the anchor, and the frame of each timeline. -/
structure FramePlan where
  e : Nat := 0
  frames : List (Timeline × Nat) := []
  deriving DecidableEq, Repr, Inhabited

/-- The plan of a commit judged at an instant (R100, R101, R97): with SPLIT each timeline takes its own earliest frame. A requested frame out
of reach answers the earliest feasible one. -/
def planFrames (d : Dev) (at' : Nat) (anchor : Timeline) (lines : List Timeline) (groups : List GroupWrite) (split : Bool) (want : Option Nat) :
    Except Nat FramePlan :=
  let early := lines.map fun t => (t, earliestFrame d at' groups t)
  let own := ((early.find? fun x => x.1 = anchor).map (·.2)).getD 1
  let e := if split then own else fitFrame d anchor early 70000 own
  let framesAt := fun (e : Nat) => early.map fun x => (x.1, if x.1 = anchor then e else if split then x.2 else mapFrame d anchor e x.1)
  match want with
  | none => .ok { e, frames := framesAt e }
  | some w => if e ≤ w && w ≤ e + 65535 then .ok { e := w, frames := framesAt w } else .error e

/-! ## Applying staged commands -/

/-- The context in which a staged command takes effect. -/
def stagedCtx (d : Dev) (sid txn : Nat) (s : Staged) : Ctx :=
  { session := sessionIndex sid, sid, op := s.op, seq := s.seq, txn, b := s.params, time := d.now }

/-- A staged command takes effect. -/
def settleStaged (sid txn : Nat) (d : Dev) (s : Staged) : Dev := match engineSpec s.op with
  | some x => x.settle (stagedCtx d sid txn s) d
  | none => d

/-- The commands of a commit that have not applied yet. -/
def Commit.todo (c : Commit) : List Staged := (c.parts.filter fun p => !p.applied).flatMap (·.cmds)

/-- The device with every commit that passed taken as applied: what checks 5 and 6 start from. -/
def baseDev (d : Dev) : Dev := d.ctl.commits.foldl (fun x c => c.todo.foldl (settleStaged c.session c.txn) x) d

/-- POOL's demand, commits that passed included. -/
def syncPool (d : Dev) : Dev := let n := (loadOf (baseDev d)).dem.pool; d.onPails fun t => { t with internal := n }

/-- The owner check of step 13 and of check 4: every key unowned or the sender's, and the device itself where a command
needs it (R72, R73). -/
def ownerRefusal (d : Dev) (session : Nat) (keys : List Nat) (device : Bool) : Option Rsp :=
  if device && keyOwner d 0 ≠ some session then some (.notOwner (keyOwner d 0))
  else keys.findSome? fun k => match keyOwner d k with
    | some o => if o = session then none else some (.notOwner (some o))
    | none => none

/-- A handle that a command names and that is still being imported (R424). -/
def importing (d : Dev) (sp : CmdSpec) (b : List Byte) : Bool :=
  (sp.handles b).any fun h => match livePail d h with
    | some (_, p) => p.importing.isSome
    | none => false

/-- Step 14 of Table 3.2: the answer of a command that the present state refuses. -/
def stateRefusal (d : Dev) (c : Ctx) (sp : CmdSpec) : Option Rsp := if importing d sp c.b then some (.busy 3) else sp.against d c

/-- Checks of one staged command against the state it will meet (check 5), and that state after it. -/
def checkStaged (sid txn : Nat) (groups : List GroupWrite) (live d : Dev) (s : Staged) : Except Rsp Dev :=
  match engineSpec s.op with
  | none => .ok d
  | some x =>
    let c := stagedCtx d sid txn s
    let long : Bool := s.op = 0x0307 && (match timedStream live (objIndex (u16 s.params 0)) with
      | some n => groups.any fun g => g.furrow = objIndex (u16 s.params 0) && g.group = u8 s.params 2
          && groupSlack live g > ((live.stream n).minPeriod : Rat)
      | none => false)
    let refused := ((firstBad (x.ranges d s.params)).map Rsp.combination).orElse fun _ =>
      (x.combos d c).orElse fun _ => (stateRefusal d c x).orElse fun _ => if long then some (.combination 2) else none
    match refused with
    | some r => .error r
    | none =>
      let d' := x.settle c d
      if depthsOk d d' then .ok d' else .error (.combination 0x11)

/-- A refusal of check 6 of Table 4.4: NO_RESOURCE, BUSY or ADMIT_DENIED. -/
def Rsp.ofCheck6 (r : Rsp) : Bool := r.status = 0x0603 || r.status = 0x0602 || r.status = 0x0401

/-- The staged set in staging order; the index of the command that fails. Check 5 runs over the whole set before check 6: a refusal of
check 6, `held`, waits until no later command fails check 5. -/
def checkSet (sid txn : Nat) (groups : List GroupWrite) (live : Dev) : List Staged → Nat → Option (Nat × Rsp) → Dev → Except (Nat × Rsp) Dev
  | [], _, none, d => .ok d
  | [], _, some e, _ => .error e
  | s :: l, i, held, d => match checkStaged sid txn groups live d s with
    | .error r => if r.ofCheck6 then checkSet sid txn groups live l (i + 1) (held.orElse fun _ => some (i, r)) (settleStaged sid txn d s) else .error (i, r)
    | .ok d' => checkSet sid txn groups live l (i + 1) held d'

/-- A set that holds a STREAM_ADMIT is an admission request; any other is one where it raises demand (R42, R43). -/
def admitKind (l : List Staged) : AdmitKind := if l.any fun s => s.op = 0x0201 then .request else .change

/-- A STREAM_ADMIT of the set carries NO_RAISE. -/
def wantsNoRaise (l : List Staged) : Bool := l.any fun s => s.op = 0x0201 && bit (u16 s.params 2) 1

/-! ## Records -/

/-- A closed transaction is remembered by its session (R107). -/
def rememberTxn (sid : Nat) (t : ClosedTxn) (d : Dev) : Dev :=
  if sessionOpen d sid then
    d.onCtl fun c => { c with sessions := match mapGet c.sessions (sessionIndex sid) with
      | some s => mapSet c.sessions (sessionIndex sid) { s with closed := (t :: s.closed).take 64 }
      | none => c.sessions }
  else d

/-- Changes the record of an epoch. -/
def onEpoch (e : Nat) (f : EpochRecord → EpochRecord) (d : Dev) : Dev :=
  d.onCtl fun c => { c with epochs := c.epochs.map fun r => if r.epoch = e then f r else r }

/-- Changes a commit in progress. -/
def onCommit (txn : Nat) (f : Commit → Commit) (d : Dev) : Dev :=
  d.onCtl fun c => { c with commits := c.commits.map fun x => if x.txn = txn then f x else x }

/-- The commit of a transaction. -/
def commitOf (d : Dev) (txn : Nat) : Option Commit := d.ctl.commits.find? fun c => c.txn = txn

/-- Some write of a commit is not confirmed (R104). -/
def Commit.held (c : Commit) : Bool := c.groups.any fun g => g.confirmed < g.writes.length

/-- A commit leaves the list of commits in progress, with what TXN_STATUS will report. -/
def closeCommit (c : Commit) (st : TxnState) (status detail : Nat) (d : Dev) : Dev :=
  let d := d.onCtl fun x => { x with commits := x.commits.filter fun y => y.txn ≠ c.txn }
  let d := onEpoch c.epoch (fun r => { r with state := st }) d
  rememberTxn c.session { id := c.txn, state := st, staged := c.staged, bytes := c.bytes, epoch := c.epoch
                          effective := c.effective.getD 0, status, detail } d

/-- The COMMAND_COMPLETE of a commit that replied PENDING. -/
def reportCommit (c : Commit) (r : Rsp) (d : Dev) : Dev :=
  if c.reports then completeCmd { session := c.session, seq := c.seq, op := c.op } r d else d

/-- TXN_ABORTED (R110). -/
def abortedEvent (sid txn reason : Nat) (d : Dev) : Dev :=
  raise 0x0181 1 (sessionObj (sessionIndex sid)) (le 4 txn ++ le 2 sid ++ le 1 reason) d

/-- A commit with nothing left to apply or confirm ends (R112). -/
def settleCommit (txn : Nat) (d : Dev) : Dev := match commitOf d txn with
  | none => d
  | some c =>
    if c.held || c.parts.any (fun p => !p.applied) || (c.anchorLine ≠ .untimed && c.effective.isNone) then d
    else
      let d := closeCommit c .applied 0 0 d
      let d := raise 0x0180 0 c.anchor (le 4 c.txn ++ le 4 c.epoch ++ le 4 (c.effective.getD 0) ++ le 2 c.anchor) d
        (td := timelineDomain d c.anchorLine) (frame := c.effective.getD 0)
      syncPool (reportCommit c .ok d)

/-- The parts of a commit on a timeline apply. -/
def applyParts (txn : Nat) (pick : Part → Bool) (d : Dev) : Dev := match commitOf d txn with
  | none => d
  | some c =>
    let due := c.parts.filter fun p => !p.applied && pick p
    let d := (due.flatMap (·.cmds)).foldl (settleStaged c.session txn) d
    onCommit txn (fun c => { c with parts := c.parts.map fun p => if pick p then { p with applied := true } else p }) d

/-- The untimed parts of a commit apply, once its writes are confirmed and its anchor's frame has begun (R101). -/
def applyUntimed (txn : Nat) (d : Dev) : Dev := match commitOf d txn with
  | none => d
  | some c =>
    let begun : Bool := c.anchorLine = .untimed || c.parts.any fun p => p.timeline = c.anchorLine && p.applied
    if c.held || !begun then d else applyParts txn (fun p => p.timeline = .untimed) d

/-! ## Failure and restore (R105, R106) -/

/-- How many writes of a group were attempted: the confirmed ones and the one in hand. -/
def GroupWrite.tried (g : GroupWrite) : Nat :=
  max g.attempted (if g.started then min g.writes.length (g.confirmed + 1) else g.confirmed)

/-- A group that is written again from its first write: what was attempted stays known (R105, R111). -/
def GroupWrite.rewritten (g : GroupWrite) : GroupWrite := { g with confirmed := 0, retries := 0, attempted := g.tried }

/-- A group whose writes start: the cached values stand by for a restore (R105). -/
def Dev.beginWrites (d : Dev) (g : GroupWrite) : GroupWrite :=
  { g with started := true
           previous := if g.previous.isEmpty then (g.writes.map (·.1)).dedup.map fun r => (r, mapGet (d.furrow g.furrow).cache r) else g.previous }

/-- The write window of a group is open (R103): of the frame planned for it, or at any time where the commit was entered while the furrow
was stopped or the furrow is stopped (R145). -/
def windowOpen (d : Dev) (c : Commit) (x : GroupWrite) : Bool :=
  match timedStream d x.furrow, groupDesc d x.furrow x.group with
  | some n, some g => match x.closeFrame with
    | some f =>
      let now : Int := timelineNow d (.stream n)
      c.effective.isSome && windowClose d n g (f - 1) ≤ now && now ≤ windowClose d n g f
    | none => c.parts.all fun p => p.timeline ≠ .stream n
  | _, _ => true

/-- The restore of a group's attempted registers to their cached values. -/
def restoreOf (g : GroupWrite) : Restore :=
  let regs := ((g.writes.take g.tried).map (·.1)).dedup
  { furrow := g.furrow, group := g.group
    writes := regs.filterMap fun r => match g.previous.find? fun p => p.1 = r with
      | some (_, some v) => some (r, v)
      | _ => none }

/-- Some attempted register of a group has no cached value: it is not restored (R105). -/
def GroupWrite.unrestored (g : GroupWrite) : Bool :=
  (g.writes.take g.tried).any fun w => g.previous.all fun p => p.1 ≠ w.1 || p.2.isNone

/-- Frames that a failed commit's values may have reached are suspect from here on, until the restores are in place; a group with a register
that is not restored stays suspect until a later write to it is confirmed (R106). -/
def markSuspect (c : Commit) (d : Dev) (g : GroupWrite) : Dev :=
  if g.tried = 0 then d
  else match timedStream d g.furrow with
    | none => d
    | some n =>
      let first := ((c.parts.find? fun p => p.timeline = .stream n).bind (·.frame)).getD ((d.stream n).frame + 1)
      d.onStream n fun s => { s with
        suspectFrom := some (if (s.suspectTo.any fun t => t < first) then first else min first (s.suspectFrom.getD first))
        suspectTo := if d.ctl.restores.any fun r => r.furrow = g.furrow then none else some 0
        suspectMax := if s.suspectTo.isSome then 0 else s.suspectMax
        suspectGroups := if g.unrestored then (g.group :: s.suspectGroups).dedup else s.suspectGroups }

/-- A commit aborted because an earlier one on its stream failed. -/
def abortLater (n : Nat) (d : Dev) (c : Commit) : Dev :=
  let o := 0x2000 + n
  let d := closeCommit c .aborted 0x0302 o d
  abortedEvent c.session c.txn 2 (reportCommit c { status := 0x0302, detail := o } d)

/-- A commit fails (R105): armed parts are discarded, attempted registers are restored, and later commits on the same
stream are aborted. -/
def failCommit (txn detail : Nat) (d : Dev) : Dev := match commitOf d txn with
  | none => d
  | some c =>
    let streams := (c.groups.filterMap fun g => timedStream d g.furrow).dedup
    let later := (d.ctl.commits.dropWhile fun x => x.txn ≠ txn).drop 1
    let d := closeCommit c .failed 0x0306 detail d
    let back := (c.groups.map restoreOf).filter fun r => !r.writes.isEmpty
    let d := d.onCtl fun x => { x with restores := x.restores ++ back }
    let d := c.groups.foldl (markSuspect c) d
    let d := reportCommit c { status := 0x0306, detail } d
    let d := streams.foldl (fun d n =>
      (later.filter fun x => (commitOf d x.txn).isSome && x.parts.any fun p => p.timeline = .stream n && !p.applied).foldl (abortLater n) d) d
    syncPool d

/-! ## Frames begin -/

/-- A frame of a stream begins: released parts apply to it, and a commit still held fails (R104). The stream's records
carry the commit's epoch from here on (R109). -/
def applyAtSof (n frame sof : Nat) (d : Dev) : Dev :=
  let t := Timeline.stream n
  d.ctl.commits.foldl (fun d c0 => match commitOf d c0.txn with
    | none => d
    | some c =>
      if c.parts.any fun p => p.timeline = t && !p.applied && (match p.frame with
          | some f => f ≤ frame
          | none => false) then
        if c.held then
          let g := ((c.groups.find? fun g => g.confirmed < g.writes.length).map (·.group)).getD 0
          failCommit c.txn (4 * 256 + g) d
        else
          let d := applyParts c.txn (fun p => p.timeline = t) d
          let d := d.onStream n fun s => { s with epoch := c.epoch }
          let d := if c.anchorLine = t then
            onEpoch c.epoch (fun r => { r with sofSeconds := (fullTime sof).seconds, sofNs := (fullTime sof).ns }) d else d
          settleCommit c.txn (applyUntimed c.txn d)
      else d) d

/-- The parts of a commit move one anchor frame later, because a raster part missed its cut (R101, R321). Parts that have
applied stay. -/
def moveLater (txn raster : Nat) (d : Dev) : Dev := match commitOf d txn with
  | none => d
  | some c =>
    let done := c.parts.any fun p => p.timeline = c.anchorLine && p.applied
    let e := c.effective.getD 0 + (if done then 0 else 1)
    let move := fun (p : Part) =>
      if p.applied || p.timeline = .untimed then p
      else match p.frame with
        | none => p
        | some f =>
          { p with frame := some (if p.timeline = c.anchorLine then e
              else if c.split || done then f + 1 else max f (mapFrame d c.anchorLine e p.timeline)) }
    let later := fun (g : GroupWrite) => if g.started || done then g else { g with closeFrame := g.closeFrame.map (· + 1) }
    let parts := c.parts.map move
    let d := onCommit txn (fun c => { c with effective := some e, parts, groups := c.groups.map later }) d
    let frameOf := fun (k was : Nat) => ((parts.find? fun p => p.timeline = keyTimeline d k).bind (·.frame)).getD was
    let d := onEpoch c.epoch (fun r => { r with effective := e, parts := r.parts.map fun x => (x.1, frameOf x.1 x.2) }) d
    let d := count (0x4000 + raster) 1 1 d
    raise 0x0A82 1 (0x4000 + raster) (le 4 txn ++ le 2 (0x4000 + raster) ++ le 2 0 ++ le 4 e) d
      (td := (d.raster raster).timing.domain) (frame := e)

/-- The commit cut of a raster's current frame passes: released parts apply to the frame after it, and held ones move. -/
def applyAtCut (raster : Nat) (d : Dev) : Dev :=
  let t := timelineOfRaster d raster
  let next := (d.raster raster).frame + 1
  d.ctl.commits.foldl (fun d c0 => match commitOf d c0.txn with
    | none => d
    | some c =>
      if c.parts.any fun p => p.timeline = t && !p.applied && (match p.frame with
          | some f => f ≤ next
          | none => false) then
        if c.held then moveLater c.txn raster d
        else
          let d := applyParts c.txn (fun p => p.timeline = t) d
          let peers := match (d.raster raster).group with
            | some g => maskBits (tabGet d.display.groups g).members 8
            | none => [raster]
          let d := peers.foldl (fun d i => d.onRaster i fun r => { r with epoch := c.epoch, changed := true }) d
          if c.anchorLine = t then d else settleCommit c.txn d
      else d) d

/-- A raster frame begins: the untimed parts of commits anchored on it apply (R101). -/
def anchorBegins (raster : Nat) (d : Dev) : Dev :=
  let t := timelineOfRaster d raster
  let x := d.raster raster
  d.ctl.commits.foldl (fun d c0 => match commitOf d c0.txn with
    | none => d
    | some c =>
      if c.anchorLine = t && c.parts.any (fun p => p.timeline = t && p.applied && (match p.frame with
          | some f => f ≤ x.frame
          | none => false)) then
        let d := onEpoch c.epoch (fun r => { r with sofSeconds := (fullTime x.frameStart).seconds, sofNs := (fullTime x.frameStart).ns }) d
        settleCommit c.txn (applyUntimed c.txn d)
      else d) d

/-! ## Passing a commit -/

/-- The frames of a plan are entered in a commit and its epoch record, with the window of each group's writes. -/
def enterPlan (d : Dev) (p : FramePlan) (c : Commit) : Commit :=
  let frameOf := fun (t : Timeline) => (p.frames.find? fun x => x.1 = t).map (·.2)
  { c with effective := some p.e
           parts := c.parts.map fun x => { x with frame := frameOf x.timeline }
           groups := c.groups.map fun g => { g with closeFrame := match timedStream d g.furrow, groupDesc d g.furrow g.group with
             | some n, some x => (frameOf (.stream n)).map fun f => f - x.delay
             | _, _ => none } }

/-- The parts of a set of commands: one for each timeline, in staging order, and one for the anchor. -/
def partsOf (d : Dev) (anchor : Timeline) (anchorObj : Nat) (cmds : List Staged) : List Part :=
  let lines := cmds.map fun s => (stagedTimeline d s).1
  let all := (if anchor = .untimed then lines else anchor :: lines).dedup
  all.map fun t =>
    let mine := cmds.filter fun s => (stagedTimeline d s).1 = t
    { timeline := t, cmds := mine
      object := if t = anchor && anchor ≠ .untimed then anchorObj else ((mine.head?.bind fun s => (stagedKeys d s).head?).map keyObj).getD 0 }

/-- A transaction as a commit takes it. -/
structure CommitRequest where
  txn : Nat := 0
  cmds : List Staged := []
  bytes : Nat := 0
  versions : NMap Nat := []
  owned : List Nat := []
  anchor : Nat := 0
  split : Bool := false
  want : Option Nat := none
  ctx : Ctx := {}
  deriving DecidableEq, Repr, Inhabited

/-- The anchor of a commit (R96): the timeline of the object named, or of the first timed target; none at all when nothing
is timed and no sensor is written. -/
def anchorOf (d : Dev) (q : CommitRequest) : Timeline × Nat :=
  let first := match q.cmds.find? fun s => (stagedTimeline d s).1 ≠ .untimed with
    | some s => stagedTimeline d s
    | none => (.untimed, 0)
  if first.1 = .untimed && (groupWrites q.cmds).isEmpty then (.untimed, 0)
  else if q.anchor ≠ 0 && keyTimeline d q.anchor ≠ .untimed then (keyTimeline d q.anchor, q.anchor)
  else first

/-- A stream whose timeline a commit uses has not delivered a frame since FURROW_START (R103). -/
def unpredicted (d : Dev) (lines : List Timeline) : Bool := lines.any fun t => match t with
  | .stream n => n < 16 && (match furrowOf d n with
    | some (i, _) => !(d.furrow i).deliveredSinceStart
    | none => false)
  | _ => false

/-- The next epoch or transaction number (R88, R108). -/
def nextSerial (n : Nat) : Nat := if n ≥ 2 ^ 32 - 1 then 1 else n + 1

/-- The bytes of Table 4.5. -/
def commitParams (epoch anchor effective : Nat) : List Byte := le 4 epoch ++ le 2 anchor ++ le 2 0 ++ le 8 effective

/-- A commit that passed Table 4.4 is entered (R98, R99): its epoch, the owners and versions of its targets, its parts; what
has no timed target and no sensor write applies at once. -/
def passCommit (q : CommitRequest) (plan : Option FramePlan) (d : Dev) : Dev × Rsp :=
  let (anchor, anchorObj) := anchorOf d q
  let keys := (q.cmds.flatMap (stagedKeys d)).dedup
  let epoch := d.ctl.nextEpoch
  let groups := groupWrites q.cmds
  let atOnce : Bool := anchor = .untimed && groups.isEmpty
  let c : Commit :=
    { txn := q.txn, session := q.ctx.sid, op := q.ctx.op, seq := q.ctx.seq, reports := !atOnce && q.ctx.sid ≠ noSession, epoch
      anchor := if anchor = .untimed then 0 else anchorObj, anchorLine := anchor, atFrame := q.want, split := q.split
      parts := partsOf d anchor anchorObj q.cmds, groups, staged := q.cmds.length, bytes := q.bytes }
  let c := match plan with
    | some p => enterPlan d p c
    | none => c
  let targets := (keys.filter fun k => k < 0x10000).take 64
  let rec' : EpochRecord :=
    { epoch, anchor := c.anchor, txn := q.txn, effective := c.effective.getD 0
      parts := targets.map fun k => (k, (((plan.map (·.frames)).getD []).find? fun x => x.1 = keyTimeline d k).map (·.2) |>.getD 0) }
  let d := if q.ctx.sid = noSession then d else keys.foldl (fun d k => claimFirst q.ctx.session k d) d
  let d := keys.foldl (fun d k => if q.cmds.any fun s => k ∈ stagedKeys d s && ((engineSpec s.op).map (·.bumps)).getD true then bumpVersion k d else d) d
  let d := d.onCtl fun x => { x with nextEpoch := nextSerial epoch, epochs := (rec' :: x.epochs).take 1024, commits := x.commits ++ [c]
                                     txns := mapDel x.txns q.txn }
  let d := if atOnce then settleCommit q.txn (applyUntimed q.txn d) else d
  let params := commitParams epoch c.anchor (c.effective.getD 0)
  (syncPool d, if atOnce then .ok params else .pending params)

/-- An admission passed: from here on the admitted load assumes the drills that R40 counts now (R512). -/
def noteAdmission (d : Dev) : Dev :=
  d.onFabric fun f => { f with fields := (indexed f.fields).map fun e => { e.2 with admitted := countedDrills d e.1 } }

/-- An admission test passed: a request's, or that of a change that raises demand (R512). -/
def settleAdmission (kind : AdmitKind) (base trial d : Dev) : Dev :=
  if kind = .request || configRises base trial then noteAdmission d else d

/-- Firmware commands a VCORE step and raises VCORE_STEP (R48). -/
def commandStep (mv reason : Nat) (d : Dev) : Dev :=
  let old := d.fabric.cmdStep
  if old = mv then d
  else raise 0x0280 0 0 (le 2 old ++ le 2 mv ++ le 1 reason) (d.onFabric fun f => { f with cmdStep := mv, lastChange := d.now })

/-- VCORE is raised for an admission that waits (R23, R25). -/
def startRaise (c : Ctx) (step : Nat) (d : Dev) : Dev :=
  let cmd := if d.fabric.extra then min 900 (step + 10) else step
  (commandStep cmd 0 d).onFabric fun f =>
    { f with lowering := none, extraSettling := none, extraGoodSince := none
             raise := some { request := c.request, session := c.session, txn := some c.txn, step, commanded := cmd, started := d.now } }

/-- The refusal of a commit: R98 puts the command's index and sequence number first, R93 does not. -/
def commitRefusal (one : Bool) (cmds : List Staged) (i : Option Nat) (r : Rsp) : Rsp :=
  if one then r
  else { r with params := le 2 (i.getD 0xFFFF) ++ le 2 0 ++ le 4 ((i.bind fun k => cmds[k]?).map (·.seq) |>.getD 0) ++ r.params }

/-- Checks 2 to 7 of Table 4.4, and the commit when they pass. The reply waits, none, while VCORE rises. -/
def tryCommit (one : Bool) (q : CommitRequest) (d : Dev) : Dev × Option Rsp :=
  let refuse := fun (i : Option Nat) (r : Rsp) => (d, some (commitRefusal one q.cmds i r))
  let (anchor, _) := anchorOf d q
  let spans := if q.split then none else (indexed q.cmds).find? fun e =>
    (stagedTimeline d e.2).1 ≠ .untimed && !locked d (stagedTimeline d e.2).1 anchor
  let changed := (indexed q.cmds).findSome? fun e => ((stagedKeys d e.2).find? fun k =>
    mapGetD q.versions k (keyVersion d k) ≠ keyVersion d k).map fun k => (e.1, keyObj k)
  let lost := fun (keys : List Nat) => (keys.find? fun k => k ∈ q.owned && keyOwner d k ≠ some q.ctx.session).map fun k => Rsp.notOwner (keyOwner d k)
  let unowned := (indexed q.cmds).findSome? fun e =>
    ((ownerRefusal d q.ctx.session (stagedKeys d e.2) false).orElse fun _ => lost (stagedKeys d e.2)).map fun r => (e.1, r)
  let groups := groupWrites q.cmds
  match spans, changed, unowned with
  | some e, _, _ => refuse (some e.1) { status := 0x0304, detail := (stagedTimeline d e.2).2 }
  | none, some (i, o), _ => refuse (some i) { status := 0x0302, detail := o }
  | none, none, some (i, r) => refuse (some i) r
  | none, none, none =>
    let base := baseDev d
    match checkSet q.ctx.sid q.txn groups d q.cmds 0 none base with
    | .error (i, r) => refuse (some i) r
    | .ok trial =>
      match admitTest base trial (wantsNoRaise q.cmds) (admitKind q.cmds) with
      | .refuse r => refuse none r
      | .step v =>
        let lines := ((q.cmds.map fun s => (stagedTimeline d s).1).filter (· ≠ .untimed) ++ [anchor]).dedup.filter (· ≠ .untimed)
        let plan : Except Nat (Option FramePlan) :=
          if anchor = .untimed || unpredicted d lines then .ok none
          else (planFrames d q.ctx.time anchor lines groups q.split q.want).map some
        match plan with
        | .error e => refuse none { status := 0x0501, detail := 8, params := le 8 e }
        | .ok p =>
          if v > d.fabric.admStep then (startRaise q.ctx v d, none)
          else
            let (d, r) := passCommit q p (settleAdmission (admitKind q.cmds) base trial d)
            (d, some r)

/-- The first frame since FURROW_START was delivered: commits that waited for it choose their frames (R103). -/
def chooseFrames (d : Dev) : Dev :=
  d.ctl.commits.foldl (fun d c0 => match commitOf d c0.txn with
    | none => d
    | some c =>
      let lines := (c.parts.map (·.timeline)).filter (· ≠ .untimed)
      if c.effective.isSome || c.anchorLine = .untimed || unpredicted d lines then d
      else match planFrames d d.now c.anchorLine lines c.groups c.split c.atFrame with
        | .ok p =>
          let d := onCommit c.txn (enterPlan d p) d
          onEpoch c.epoch (fun r => { r with effective := p.e, parts := r.parts.map fun x =>
            (x.1, ((p.frames.find? fun y => y.1 = keyTimeline d x.1).map (·.2)).getD 0) }) d
        | .error _ => syncPool (reportCommit c (.range 8) (closeCommit c .failed 0x0501 8 d))) d

/-! ## Open transactions -/

/-- The answer to a transaction that is not open for the session (R107). -/
def unknownTxn (d : Dev) (session txn : Nat) : Rsp :=
  if d.ctl.commits.any fun c => c.txn = txn && sessionIndex c.session = session then .txnUnknown 4
  else match mapGet d.ctl.sessions session with
    | some s => match s.closed.find? fun t => t.id = txn with
      | some t => .txnUnknown (match t.state with
        | .applied => 1
        | .aborted => 2
        | _ => 3)
      | none => .txnUnknown 0
    | none => .txnUnknown 0

/-- A session's open transaction. -/
def openTxn (d : Dev) (session txn : Nat) : Option Txn := (mapGet d.ctl.txns txn).filter fun t => t.session = session

/-- Transactions that count toward the 32 of R89. -/
def txnCount (d : Dev) : Nat := d.ctl.txns.length + d.ctl.commits.length

/-- A transaction number that nothing uses (R88). -/
def freshTxn (d : Dev) : Nat → Nat → Nat
  | 0, n => n
  | fuel + 1, n => if (mapGet d.ctl.txns n).isSome || (commitOf d n).isSome then freshTxn d fuel (nextSerial n) else n

/-- The next transaction number; the counter moves past it. -/
def takeTxn (d : Dev) : Nat × Dev :=
  let n := freshTxn d 64 d.ctl.nextTxn
  (n, d.onCtl fun c => { c with nextTxn := nextSerial n })

/-- A transaction is aborted (R110); TXN_ABORT itself raises no event. -/
def abortTxn (txn : Nat) (reason : Option Nat) (d : Dev) : Dev := match mapGet d.ctl.txns txn with
  | none => d
  | some t =>
    let sid := match mapGet d.ctl.sessions t.session with
      | some s => sessionId t.session s.gen
      | none => noSession
    let d := d.onCtl fun c => { c with txns := mapDel c.txns txn }
    let d := rememberTxn sid { id := txn, state := .aborted, staged := t.staged.length, bytes := t.bytes } d
    match reason with
    | some r => abortedEvent sid txn r d
    | none => d

/-- A command is staged (R90, R92, R110). -/
def stageCmd (c : Ctx) (sp : CmdSpec) (d : Dev) : Dev × Rsp := match mapGet d.ctl.txns c.txn with
  | none => (d, unknownTxn d c.session c.txn)
  | some t =>
    let n := 24 + c.b.length
    if t.bytes + n > 65536 then (d, { status := 0x0305, detail := 1 })
    else
      let keys := sp.targets d c.b
      let t' := { t with staged := t.staged ++ [{ op := c.op, seq := c.seq, params := c.b }], bytes := t.bytes + n
                         versions := keys.foldl (fun m k => if (mapGet m k).isSome then m else mapSet m k (keyVersion d k)) t.versions
                         owned := (t.owned ++ keys.filter fun k => keyOwner d k = some c.session).dedup
                         idleDeadline := d.now + t.idleNs }
      (d.onCtl fun x => { x with txns := mapSet x.txns c.txn t' }, .deferred)

/-- A stageable command outside a transaction commits at once (R93). -/
def commitOne (c : Ctx) (sp : CmdSpec) (d : Dev) : Dev × Option Rsp :=
  if txnCount d ≥ 32 then (d, some { status := 0x0305, detail := 2 })
  else
    let (txn, d1) := takeTxn d
    let s : Staged := { op := c.op, seq := c.seq, params := c.b }
    let q : CommitRequest := { txn, cmds := [s], bytes := 24 + c.b.length, ctx := c }
    match tryCommit true q d with
    | (d', none) => (d', none)
    | (d', some r) =>
      let d' := if r.good then d'.onCtl fun x => { x with nextTxn := d1.ctl.nextTxn } else d'
      -- REEL_RECORD_STOP is PENDING until its clip is durable (R467).
      let status := if c.op = 0x1006 then 0x0002 else r.status
      if r.good then (d', some { r with status, params := sp.own c (baseDev d') ++ r.params ++ le 4 txn }) else (d', some r)

/-- TXN_IDLE_TIMEOUT (R110). -/
def txnIdle (txn : Nat) (d : Dev) : Dev := match mapGet d.ctl.txns txn with
  | some t => if d.now ≥ t.idleDeadline && !d.faults.paused then abortTxn txn (some 0) d else d
  | none => d

/-- A transaction's idle time passes (R110). -/
def execTxnIdleTimeout (time txn : Nat) (s : State) : Host.Outcome State Fault Refusal := after time (txnIdle txn) s

end Sys2Proof.Machine
end

