-- ==== Sys2Proof/Machine/FabricEv.lean ====
section
/-! DEFINITION. What firmware does every millisecond (chapter 02): pacer readings and the extra step (R23), lower steps (R26), the
guarantee's conditions (R36, R37), and the regulator's alert (R561). -/

namespace Sys2Proof.Machine

/-- Firmware runs and takes its periodic readings: not before command-ready, in a fail-over pause (R508) or after a fatal condition. -/
def firmwareRuns (d : Dev) : Bool := d.boot.ready && !d.faults.paused && !fatal d

/-- A commanded step change settles: from its command until it is confirmed or taken back (R36). -/
def settling (d : Dev) : Bool := d.fabric.raise.isSome || d.fabric.extraSettling.isSome || d.fabric.lowering.isSome

/-- The step that the pacers are held to (R23): while a change settles, the lower of the two. -/
def pacedStep (d : Dev) : Nat := d.fabric.admStep

/-! ## Pacers (R23, R26) -/

/-- One field's pacer reads a speed: a reading below k of the admission step counts, the third in a row triggers R23. -/
def readPacer (f speed : Nat) (r : Bool × Dev) : Bool × Dev :=
  let (hit, d) := r
  let k := kOf (pacedStep d)
  let set := fun (low : Nat) (d : Dev) => d.onFabric fun x => { x with fields := tabMod x.fields f fun y => { y with pacer := speed, lowReadings := low } }
  let low := (tabGet d.fabric.fields f).lowReadings
  if speed < k then
    let d := count (0xD800 + f) 1 1 d
    if low ≥ 2 then
      (true, raise 0x0281 2 (0xD800 + f) (le 2 (0xD800 + f) ++ le 2 (min 65535 (speed * 1000 / k)) ++ le 2 (pacedStep d)) (set 0 d))
    else (hit, set (low + 1) d)
  else (hit, set 0 d)

/-- The extra step is commanded where R23 calls for it. -/
def takeExtra (d : Dev) : Dev :=
  let f := d.fabric
  if f.extra || f.admStep ≥ 900 then d
  else
    let d := d.onFabric fun x => { x with extra := true, extraGoodSince := none }
    match f.raise with
    | some r => commandStep (min 900 (r.step + 10)) 2 (d.onFabric fun x => { x with raise := some { r with commanded := min 900 (r.step + 10), started := d.now } })
    | none => commandStep (f.admStep + 10) 2 (d.onFabric fun x => { x with extraSettling := some d.now, lowering := none })

/-- A held extra step is released once every pacer has stayed at or above k of the admission step for 1 s (R23). -/
def releaseExtra (speeds : List Nat) (d : Dev) : Dev :=
  let f := d.fabric
  if !f.extra || settling d then d
  else if speeds.all fun s => s ≥ kOf f.admStep then
    match f.extraGoodSince with
    | none => d.onFabric fun x => { x with extraGoodSince := some d.now }
    | some t =>
      if d.now ≥ t + 1000000000 then
        commandStep f.admStep 2 (d.onFabric fun x => { x with extra := false, extraGoodSince := none })
      else d
  else d.onFabric fun x => { x with extraGoodSince := none }

/-- The admission step goes one lower where R26 allows it. -/
def lowerStep (d : Dev) : Dev :=
  let f := d.fabric
  let lower := f.admStep - 10
  if settling d || f.admStep ≤ 650 || d.now < f.lastChange + 1000000000 || lowestStep (baseDev d) (loadOf (baseDev d)) > lower then d
  else commandStep (if f.extra then f.admStep else lower) 1 (d.onFabric fun x => { x with admStep := lower, lowering := some f.admStep })

/-- A 1 ms reading of every pacer. -/
def pacerReading (speeds : List Nat) (d : Dev) : Dev :=
  if !firmwareRuns d then d
  else
    let speeds := (List.range 12).map fun f => speeds.getD f 0
    let (hit, d) := (indexed speeds).foldl (fun r e => readPacer e.1 e.2 r) (false, d)
    lowerStep (releaseExtra speeds (if hit then takeExtra d else d))

/-- PACER_READING: the measured speeds of the 12 fields, in thousandths. -/
def execPacerReading (time : Nat) (speeds : List Nat) (s : State) : Host.Outcome State Fault Refusal :=
  after time (pacerReading speeds) s

/-! ## The guarantee (R36, R37) -/

/-- The condition of R36 that fails at a reading, with its value: 0 the VCORE window, with the regulator's own undervoltage or
overcurrent (R561), 1 Tj. -/
def failedCondition (d : Dev) : Option (Nat × Int) :=
  let f := d.fabric
  let off := if f.vout ≥ f.cmdStep then f.vout - f.cmdStep else f.cmdStep - f.vout
  if d.boot.vregUv || (off > 50 && !settling d) then some (0, (f.vout : Int))
  else if hottest d > 1050 then some (1, hottest d)
  else none

/-- The conditions are judged: GUARANTEE_LAPSED when the first one fails, and the instant from which all hold again. -/
def judgeGuarantee (d : Dev) : Dev := match failedCondition d with
  | some (c, v) =>
    let d := d.onFabric fun f => { f with goodSince := none }
    if d.fabric.lapse.isSome then d
    else raise 0x0282 2 0 (le 1 c ++ leInt 4 v) (d.onFabric fun f => { f with lapse := some (d.now, c) })
  | none =>
    if d.fabric.lapse.isSome && d.fabric.goodSince.isNone then d.onFabric fun f => { f with goodSince := some d.now } else d

/-- A 1 ms reading of READ_VOUT and of the die and stack sensors. -/
def voutPoll (vout : Nat) (tj : Int) (stackTj : List Int) (d : Dev) : Dev :=
  if !firmwareRuns d then d
  else judgeGuarantee (d.onFabric fun f => { f with vout, tj, stackTj := [stackTj.getD 0 tj, stackTj.getD 1 tj] })

/-- READ_VOUT_POLL. -/
def execReadVoutPoll (time vout : Nat) (tj : Int) (stackTj : List Int) (s : State) : Host.Outcome State Fault Refusal :=
  after time (voutPoll vout tj stackTj) s

/-- All conditions have held again for 100 ms (R37). -/
def guaranteeRestored (d : Dev) : Dev := match d.fabric.lapse, d.fabric.goodSince with
  | some (t, _), some g =>
    if firmwareRuns d && d.now ≥ g + 100000000 then
      raise 0x0283 0 0 (le 4 (min (2 ^ 32 - 1) ((g - t) / 1000))) (d.onFabric fun f => { f with lapse := none, goodSince := none })
    else d
  | _, _ => d

/-- GUARANTEE_RESTORED. -/
def execGuaranteeRestored (time : Nat) (s : State) : Host.Outcome State Fault Refusal := after time guaranteeRestored s

/-! ## The regulator's alert (R561) -/

/-- STATUS_WORD reports an output undervoltage (VOUT without VOUT_OV_FAULT) or overcurrent (IOUT_OC_FAULT); the bits are PMBus's
(PRESUMED, log entry 41). -/
def vregFaults (word : Nat) : Bool := (bit word 15 && !bit word 5) || bit word 4

/-- PMB_ALERT_N goes low: firmware reads STATUS_WORD; VREG_ALERT at most once a second. -/
def pmbAlert (word vout iout : Nat) (d : Dev) : Dev :=
  if !firmwareRuns d then d
  else
    let recent : Bool := match d.boot.vregEvent with
      | some t => decide (d.now < t + 1000000000)
      | none => false
    let d := d.onBoot fun b => { b with vregUv := vregFaults word, iout, vregEvent := if recent then b.vregEvent else some d.now }
    let d := d.onFabric fun f => { f with vout }
    let d := if recent then d else raise 0x1283 3 0 (le 2 word ++ le 2 vout ++ le 2 iout ++ le 2 0) d
    judgeGuarantee d

/-- PMB_ALERT. -/
def execPmbAlert (time statusWord vout iout : Nat) (s : State) : Host.Outcome State Fault Refusal :=
  after time (pmbAlert statusWord vout iout) s

/-! ## Steps that are not an admission's -/

/-- READ_VOUT reads within 10 mV of a step and every pacer at or above its k (R25). -/
def confirms (step k vout : Nat) (speeds : List Nat) : Bool :=
  vout ≤ step + 10 && step ≤ vout + 10 && (List.range 12).all fun f => speeds.getD f 0 ≥ kOf k

/-- An extra or a lower step is confirmed. -/
def stepConfirmed (vout : Nat) (speeds : List Nat) (d : Dev) : Dev :=
  let f := d.fabric
  if (f.extraSettling.isSome || f.lowering.isSome) && confirms f.cmdStep (if f.extraSettling.isSome then f.cmdStep else f.admStep) vout speeds then
    d.onFabric fun f => { f with extraSettling := none, lowering := none, vout }
  else d

/-- An extra or a lower step was not confirmed within 5 ms: the previous step is commanded again (R25). -/
def stepReverted (d : Dev) : Dev :=
  let f := d.fabric
  match f.extraSettling, f.lowering with
  | some t, _ =>
    if d.now ≥ t + 5000000 then commandStep f.admStep 2 (d.onFabric fun x => { x with extra := false, extraSettling := none }) else d
  | none, some old =>
    if d.now ≥ f.lastChange + 5000000 then
      commandStep (if f.extra then min 900 (old + 10) else old) 1 (d.onFabric fun x => { x with admStep := old, lowering := none })
    else d
  | none, none => d

end Sys2Proof.Machine
end

