-- ==== Sys2Proof/Machine/FaultCmd.lean ====
section
/-! DEFINITION. Area 0x11: the loss of a drill (R510 to R512), the patrol (R518), the yoke (R503), the standby complex (R501), thermal trip
(R515, R569), and FAULT_QUERY, FAILOVER_FORCE, YOKE_STATUS, DRILL_QUERY and FAULT_LOG_READ (R516, Table 22.8). -/

namespace Sys2Proof.Machine

/-! ## Drills -/

/-- The field of a drill (R7). -/
def fieldOf (i : Nat) : Nat := i / 32

/-- A drill is lost (R510, R512): it is fenced, whatever it holds; `cause` is 0 for the checker and 1 for a time-out, `cls` the class of
the job it held. -/
def loseDrill (i cause cls : Nat) (d : Dev) : Dev :=
  if (tabGet d.fabric.drills i).lost then d
  else
    let f := fieldOf i
    let d := d.onFabric fun x => { x with drills := tabMod x.drills i fun y => { y with lost := true, job := none } }
    let left := workingDrills d f
    let d := raise 0x1184 3 (0xD000 + i) (le 2 (0xD000 + i) ++ le 1 cause ++ le 1 cls ++ le 1 left ++ le 3 0) d
    let counted := (tabGet d.fabric.fields f).admitted
    if left < counted then raise 0x1185 3 (0xD800 + f) (le 2 (0xD800 + f) ++ le 1 left ++ le 1 counted) d else d

/-- A patrol tile ends on a drill that holds no job (R518, R519): a result other than the known answer is a checker error. -/
def drillPatrol (i : Nat) (good : Bool) (d : Dev) : Dev :=
  let x := tabGet d.fabric.drills i
  if x.lost || x.job.isSome then d
  else if good then gleanChunk 5 (d.onFabric fun f => { f with drills := tabMod f.drills i fun y => { y with lastPatrol := d.now } })
  else loseDrill i 0 3 d

/-- DRILL_PATROL. -/
def execDrillPatrol (time : Nat) (drill : Fin 384) (good : Bool) (s : State) : Host.Outcome State Fault Refusal :=
  after time (drillPatrol drill good) s

/-! ## The yoke and the standby complex -/

/-- A yoke lane disagrees with the others (R503): it is fenced; when only two are left, they cannot agree, which is fatal. -/
def laneDisagrees (lane : Nat) (d : Dev) : Dev :=
  if (tabGet d.faults.lanes lane).fenced then d
  else if d.faults.lanes.any fun l => l.fenced then
    goFatal 2 (d.onFaults fun f => { f with lanes := tabMod f.lanes lane fun l => { l with disagreements := min (l.disagreements + 1) 65535 } })
  else
    let d := d.onFaults fun f => { f with lanes := tabMod f.lanes lane fun _ =>
      { fenced := true, disagreements := min ((tabGet f.lanes lane).disagreements + 1) 65535 } }
    raise 0x1182 3 0 (le 1 lane ++ le 3 0) d

/-- YOKE_LANE_DISAGREE. -/
def execYokeLaneDisagree (time : Nat) (lane : Fin 3) (s : State) : Host.Outcome State Fault Refusal :=
  after time (laneDisagrees lane) s

/-- The standby complex fails (R501): 0 its self-test, 1 its image check, 2 its local memory. -/
def standbyFails (reason : Nat) (d : Dev) : Dev :=
  if d.faults.standby = .failed then d
  else
    let complex := 1 - activeComplex d
    raise 0x1181 3 0 (le 1 complex ++ le 1 reason ++ le 2 0) (d.onFaults fun f => { f with standby := .failed })

/-- STANDBY_COMPLEX_FAULT. -/
def execStandbyComplexFault (time reason : Nat) (s : State) : Host.Outcome State Fault Refusal := after time (standbyFails reason) s

/-- THERMAL_TRIP (R515, R569): a sensor read 115 °C. Every engine and every output stops until a cold or power-on reset. -/
def execThermalTrip (time _sensor : Nat) (s : State) : Host.Outcome State Fault Refusal :=
  after time (fun d => (goFatal 4 d).onFaults fun f =>
    { f with thermalTrip := true, fatalCause := 4, stickyCause := 4 }) s

/-- THERMAL_TRIP is driven low (R569). -/
def thermalTripLow (d : Dev) : Bool := d.faults.thermalTrip

/-! ## Commands -/

/-- A record of the critical fault log as FAULT_LOG_READ gives it (Table 22.5). -/
def FaultRecord.bytes (r : FaultRecord) : List Byte :=
  let b := le 4 r.seq ++ le 4 r.bootCount ++ le 2 r.code ++ le 1 r.severity ++ le 1 r.domain
    ++ fullTimeBytes { seconds := r.seconds, ns := r.ns } ++ le 2 r.source ++ le 1 r.complex ++ le 1 0
    ++ (r.detail ++ List.replicate 16 0).take 16 ++ le 16 0
  b ++ le 4 (crc32c b)

/-- Fenced lanes, one bit each. -/
def fencedLanes (d : Dev) : Nat := sumOf (fun e => if e.2.fenced then 2 ^ e.1 else 0) (indexed d.faults.lanes)

/-- The standby state as FAULT_QUERY and QUERY_DEVICE show it. -/
def standbyCode (d : Dev) : Nat := match d.faults.standby with
  | .cold => 0
  | .ready => 1
  | .failed => 2

/-- FAULT_QUERY. -/
def specFaultQuery : CmdSpec where
  op := 0x1100
  length := fixed 0
  act := fun _ d =>
    let f := d.faults
    let lost := (d.fabric.drills.filter fun x => x.lost).length
    (d, some (.ok (le 1 (activeComplex d) ++ le 1 (standbyCode d) ++ le 1 (fencedLanes d) ++ le 1 f.lastBootCause ++ le 4 f.failovers
      ++ le 1 f.lastTrigger ++ le 3 0 ++ le 4 f.lastPauseUs ++ le 2 f.replayed ++ le 2 lost ++ le 4 f.repairs ++ le 4 (counterOf d 0 10))))

/-- The active complex hands over: the yoke freezes intake and sets PAUSED (R506 step 3). -/
def pauseControl (d : Dev) : Dev :=
  if d.faults.paused then d else setDevStatus 2 true (d.onFaults fun f => { f with paused := true })

/-- FAILOVER_FORCE (R502, R516): the command is journaled with its reply, which the new active complex sends when FAILOVER comes. -/
def specFailoverForce : CmdSpec where
  op := 0x1101
  length := fixed 4
  ranges := fun _ b => [rng b 0 2 0x9180 0x9180, zeroAt b 2 2]
  device := true
  against := fun d _ => if d.faults.standby = .ready then none else some (.busy 3)
  act := fun c d =>
    let q : Request := { op := c.op, pkt := { time := c.time, endpoint := c.endpoint, session := c.sid, seq := c.seq, params := c.b } }
    (pauseControl (d.onFaults fun f => { f with groups := f.groups ++ [{ request := q, reply := some { op := c.op, session := c.sid, seq := c.seq } }] }), none)

/-- YOKE_STATUS. Firmware writes a heartbeat every 10 µs (Table 22.2); where in that period a query falls is a free value. -/
def specYokeStatus : CmdSpec where
  op := 0x1102
  length := fixed 0
  act := fun _ d =>
    let (k, d) := takeFree d
    let age := Config.freeNat k 0 % 11
    let lanes := d.faults.lanes.flatMap fun l => le 1 (boolNat l.fenced) ++ le 1 0 ++ le 2 l.disagreements
    (d, some (.ok (lanes ++ le 4 age ++ le 4 d.faults.lockstepMismatches ++ le 4 d.faults.standbyVersion ++ le 1 d.faults.stickyCause ++ le 3 0)))

/-- DRILL_QUERY. -/
def specDrillQuery : CmdSpec where
  op := 0x1105
  length := fixed 0
  act := fun _ d =>
    let field := fun (f : Nat) =>
      let mask := sumOf (fun p => if (tabGet d.fabric.drills (32 * f + p)).lost then 2 ^ p else 0) (List.range 32)
      le 1 (workingDrills d f) ++ le 1 0 ++ le 2 (tabGet d.fabric.fields f).admitted ++ le 4 mask
    (d, some (.ok ((List.range 12).flatMap field)))

/-- FAULT_LOG_READ: `count` records from `first` on, oldest first; 0 stands for the oldest held. -/
def specFaultLogRead : CmdSpec where
  op := 0x1106
  length := fixed 8
  ranges := fun _ b => [rng b 4 2 1 63, zeroAt b 6 2]
  act := fun c d =>
    let log := d.faults.log.reverse
    let start := if u32 c.b 0 = 0 then log else log.dropWhile fun r => r.seq ≠ u32 c.b 0
    let got := start.take (u16 c.b 4)
    (d, some (.ok (le 2 got.length ++ le 2 0 ++ le 4 ((log.head?.map (·.seq)).getD 0) ++ le 4 ((log.getLast?.map (·.seq)).getD 0)
      ++ got.flatMap FaultRecord.bytes)))

/-- Area 0x11 but for the rank commands. -/
def faultSpecs : List CmdSpec := [specFaultQuery, specFailoverForce, specYokeStatus, specDrillQuery, specFaultLogRead]

end Sys2Proof.Machine
end

