-- ==== Sys2Proof/Machine/EventCmd.lean ====
section
/-! DEFINITION. Area 0x12 (chapter 23): event records and the event ring (R528, R529), the gleaner's evaluation and telemetry (R518 to
R523), counters (R525, R526), and the commands of Table 23.6. -/

namespace Sys2Proof.Machine

/-! ## Event records and the event ring -/

/-- A record as the ring and EVENT_READ carry it (Table 23.8). -/
def EventRec.bytes (r : EventRec) : List Byte :=
  le 2 r.code ++ le 1 r.severity ++ le 1 r.domain ++ le 2 r.source ++ le 2 (r.index % 65536) ++ le 4 r.stamp ++ le 4 r.frame
    ++ (r.detail ++ List.replicate 16 0).take 16

/-- Entries of the event ring: 6 to 16 in EV_SIZE enable it, with 2 to that power (Table 3.8). -/
def eventSlots (b : Bar0) : Nat :=
  let n := bits b.evSize.toNat 4 0
  if within n 6 16 then 2 ^ n else 0

/-- Slots of the event ring that are free. -/
def eventRoom (b : Bar0) : Nat :=
  let n := eventSlots b
  if n = 0 then 0 else (b.evHead.toNat + n - 1 - b.evTail.toNat) % n

/-- One record is written at EV_TAIL. -/
def putEvent (r : EventRec) (d : Dev) : Dev :=
  let b := d.bar0
  let base := b.evBaseHi.toNat * 2 ^ 32 + b.evBaseLo.toNat
  let d := hostWrite (base + 32 * b.evTail.toNat) r.bytes d
  (d.onBar0 fun b => { b with evTail := BitVec.ofNat 32 ((b.evTail.toNat + 1) % max 1 (eventSlots b)) }).onEvents fun e => { e with owed := true }

/-- The records that wait for the ring, oldest first. -/
def dueEvents (d : Dev) : List EventRec :=
  (d.events.records.takeWhile fun r => r.index ≥ d.events.copied).reverse

/-- Records are copied in store order while the ring has room; those that its filter stops, and those copied ahead, are passed over. -/
def copyEvents : List EventRec → Dev → Dev
  | [], d => d
  | r :: l, d =>
    let step := fun (d : Dev) => d.onEvents fun e => { e with copied := r.index + 1, early := e.early.filter fun i => i > r.index }
    if !d.events.ringFilter.passes r || r.index ∈ d.events.early then copyEvents l (step d)
    else if eventRoom d.bar0 = 0 then d
    else copyEvents l (step (putEvent r d))

/-- Losses since the last EVENT_LOSS are reported, as the first record copied (R529). -/
def reportLoss (d : Dev) : Dev :=
  let total := counterOf d 0 4
  if total = d.events.lossReported || eventRoom d.bar0 = 0 then d
  else
    let i := d.events.next
    let since := (total + 2 ^ 64 - d.events.lossReported) % 2 ^ 64
    let d := raise 0x1282 2 0 (le 4 (min (2 ^ 32 - 1) since) ++ le 8 total) d
    let d := d.onEvents fun e => { e with lossReported := total, early := i :: e.early }
    match d.events.records.head? with
    | some r => if r.index = i && d.events.ringFilter.passes r then putEvent r d else d
    | none => d

/-- INT_STATUS bit 16 is set for copied records, at most once in each coalescing interval. -/
def signalEvents (d : Dev) : Dev :=
  let wait : Bool := match d.events.lastSignal with
    | some t => decide (d.now < t + d.events.coalesceUs * 1000)
    | none => false
  if !d.events.owed || wait then d
  else setInt 16 (d.onEvents fun e => { e with owed := false, lastSignal := some d.now })

/-- Stored records go to the event ring (R529). -/
def ringCopy (d : Dev) : Dev :=
  if eventSlots d.bar0 = 0 || d.faults.paused then d
  else
    let d := reportLoss d
    signalEvents (copyEvents (dueEvents d) d)

/-- EVENT_RING_COPY. -/
def execEventRingCopy (time : Nat) (s : State) : Host.Outcome State Fault Refusal := always time ringCopy s

/-- An event filter as a command gives it. -/
def filterAt (b : List Byte) (sevOff maskOff : Nat) : EventFilter := { minSeverity := u8 b sevOff, areaMask := u32 b maskOff }

/-- EVENT_RING_SET (R533). -/
def specEventRingSet : CmdSpec where
  op := 0x1200
  length := fixed 8
  ranges := fun _ b => [rng b 0 1 0 4, zeroAt b 1 1, rng b 2 2 0 1000, chk 4 (u32 b 4 < 2 ^ 20)]
  combos := fun d c => match mapGet d.ctl.sessions c.session with
    | some s => match s.endpoint with
      | .ring _ => none
      | _ => some (.combination 0)
    | none => some (.combination 0)
  act := fun c d => (d.onEvents fun e => { e with ringFilter := filterAt c.b 0 4, coalesceUs := u16 c.b 2 }, some .ok)

/-- EVENT_FILTER_SET (R530, R531). -/
def specEventFilterSet : CmdSpec where
  op := 0x1201
  length := fixed 8
  ranges := fun _ b => [rng b 0 1 0 4, flagBits b 1 1 1, zeroAt b 2 2, chk 4 (u32 b 4 < 2 ^ 20)]
  act := fun c d =>
    let d := d.onCtl fun x => { x with sessions := match mapGet x.sessions c.session with
      | some s => mapSet x.sessions c.session { s with filter := filterAt c.b 0 4 }
      | none => x.sessions }
    let asked : Bool := bit (u8 c.b 1) 0
    let d := d.onEvents fun e =>
      { e with int0Holder := if asked then some c.session else if e.int0Holder = some c.session then none else e.int0Holder }
    (d, some .ok)

/-- Records from a cursor on that pass a filter, at most `n`, and the cursor after the last one looked at. -/
def readEvents (f : EventFilter) : Nat → List EventRec → Nat → List EventRec × Nat
  | _, [], cur => ([], cur)
  | 0, _, cur => ([], cur)
  | n + 1, r :: l, _ =>
    if f.passes r then
      let (got, cur) := readEvents f n l (r.index + 1)
      (r :: got, cur)
    else readEvents f (n + 1) l (r.index + 1)

/-- EVENT_READ (R530). -/
def specEventRead : CmdSpec where
  op := 0x1202
  length := fixed 4
  ranges := fun _ b => [rng b 0 2 1 127, zeroAt b 2 2]
  act := fun c d => match mapGet d.ctl.sessions c.session with
    | none => (d, some .ok)
    | some s =>
      let oldest := ((oldestEvent d.events).map (·.index)).getD d.events.next
      let start := max s.cursor oldest
      let waiting := (d.events.records.takeWhile fun r => r.index ≥ start).reverse
      let (got, cur) := readEvents s.filter (u16 c.b 0) waiting start
      let d := d.onCtl fun x => { x with sessions := mapSet x.sessions c.session { s with cursor := cur } }
      (d, some (.ok (le 2 got.length ++ le 2 0 ++ le 4 (min (2 ^ 32 - 1) (start - s.cursor)) ++ got.flatMap EventRec.bytes)))

/-! ## The gleaner -/

/-- The tasks that share a unit with a task (Table 23.1): scrub and zeroing share HBM bandwidth. -/
def unitTasks : Nat → List Nat
  | 0 => [0, 4]
  | 4 => [0, 4]
  | t => [t]

/-- A running furrow that the gleaner re-centres (R126). -/
def recentred (f : Furrow) : Bool := f.runs && ((f.config.map (·.mode)).getD 1 = 0)

/-- The oldest of a list of instants. -/
def earliest (l : List Nat) (dflt : Nat) : Nat := l.foldl min (l.headD dflt)

/-- The instant by which a task is due (Table 23.1). Churn has no periodic deadline: the 60 s of its condition stand for it. -/
def taskDeadline (d : Dev) (t : Nat) : Nat := match t with
  | 0 => d.hbm.scrubPassStart + 86400000000000
  | 1 => d.now + 60000000000
  | 2 => earliest ((d.furrows.filter recentred).map (·.lastRecentre)) d.now + 60000000000
  | 3 => (tabGet d.gleaner.tasks 3).mark + 100000000
  | 4 => d.now + zeroingPending d / 8
  | _ => earliest ((d.fabric.drills.filter fun x => !x.lost).map (·.lastPatrol)) d.now + 60000000000

/-- A task's time to its deadline in ms. -/
def taskMs (d : Dev) (t : Nat) : Int := ((taskDeadline d t : Int) - (d.now : Int)) / 1000000

/-- A time in ns as a share, in 0.01 %, of the time left to an instant. -/
def shareOf (ns : Rat) (now due : Nat) : Nat := (ns * 10000 / ((max 1 (due - now) : Nat) : Rat)).ceil.toNat

/-- What a task needs of its unit (R521), in 0.01 %: for scrub and zeroing the bytes that are left at the HBM's 2,355.2 GB/s, for the patrol
341.33 reference µs for each working drill, spread over all of them; for the others, whose chunks have no unit time, what is given. -/
def taskNeed (d : Dev) (given : List Nat) (t : Nat) : Nat := match t with
  | 0 => shareOf (((scrubSteps - d.hbm.scrubLine) * 4096 : Nat) / 2355.2) d.now (taskDeadline d 0)
  | 4 => if d.pails.zeroing.isEmpty then 0 else shareOf ((zeroingPending d : Rat) / 2355.2) d.now (taskDeadline d 4)
  | 5 =>
    let l := d.fabric.drills.filter fun x => !x.lost
    sumOf (fun x => shareOf (341330 * 1000 / ((kOf d.fabric.cmdStep : Nat) : Rat)) d.now (x.lastPatrol + 60000000000)) l / max 1 l.length
  | t => given.getD t 0

/-- The condition of Table 23.1 for a task holds; `need` and `share` are in 0.01 %. A pass whose projected end lies after its deadline
needs more than the share its unit has. -/
def behindPace (d : Dev) (t need share : Nat) : Bool :=
  let x := tabGet d.gleaner.tasks t
  match t with
  | 0 => need > share || d.now > taskDeadline d 0
  | 1 => need > share
  | 2 => d.furrows.any fun f => recentred f && d.now > f.lastRecentre + 60000000000
  | 3 => x.was || d.now > x.mark + 110000000
  | 4 => x.was && !d.pails.zeroing.isEmpty && (x.chunks - x.mark) * 0x200000 < 8000000000
  | _ => d.fabric.drills.any fun y => !y.lost && d.now > y.lastPatrol + 60000000000

/-- GLEAN_BEHIND of a task (R522). -/
def gleanEvent (t state : Nat) (d : Dev) : Dev :=
  raise 0x1280 (if state = 0 then 2 else 0) 0 (le 1 t ++ le 1 state ++ le 2 (tabGet d.gleaner.tasks t).share ++ leInt 4 (taskMs d t)) d

/-- One task at an evaluation (R521, R522): its share, and whether it falls behind or has been back on pace for 60 s. -/
def evaluateTask (needs : List Nat) (d : Dev) (t : Nat) : Dev :=
  let demand := sumOf (fun k => needs.getD k 0) (unitTasks t) * 5 / 4
  let share := max 200 (min 600 demand)
  let d := d.onTask t fun x => { x with share, capped := if share = 600 && demand > 600 then x.capped + 1 else 0 }
  let x := tabGet d.gleaner.tasks t
  let late := behindPace d t (needs.getD t 0) share || x.capped ≥ 10
  let d := if t = 4 then d.onTask 4 fun x => { x with mark := x.chunks, was := !d.pails.zeroing.isEmpty } else d
  if late then
    let d := d.onTask t fun y => { y with behind := true, onPaceSince := none }
    if x.behind then d else gleanEvent t 0 d
  else if x.behind then match x.onPaceSince with
    | none => d.onTask t fun y => { y with onPaceSince := some d.now }
    | some s => if d.now ≥ s + 60000000000 then gleanEvent t 1 (d.onTask t fun y => { y with behind := false, onPaceSince := none }) else d
  else d

/-- GLEANER_EVALUATE (R521): `needs` are what churn, re-centring and telemetry need in 0.01 % of their units (log 102). -/
def execGleanerEvaluate (time : Nat) (needs : List Nat) (s : State) : Host.Outcome State Fault Refusal :=
  after time (fun d => if firmwareRuns d then (List.range 6).foldl (evaluateTask ((List.range 6).map (taskNeed d needs))) d else d) s

/-- A telemetry sample is taken (R523, Table 23.2). -/
def takeSample (r : TelemetryIn) (d : Dev) : Dev :=
  if !firmwareRuns d then d
  else
    let f := d.fabric
    let t := fullTime (domainNow d 5)
    let k := kOf f.cmdStep
    let s : TelemetrySample :=
      { index := d.gleaner.nextIndex, seconds := t.seconds, ns := t.ns, stepMv := f.cmdStep, voutMv := f.vout, iout := r.iout
        power := r.power, tjMax := f.tj, stackTemp := (List.range 2).map fun i => (tabGet d.hbm.stackStates i).temp
        flags := boolNat f.lapse.isNone + 2 * boolNat (d.gleaner.tasks.any (·.behind)), busy := (List.range 10).map fun i => r.busy.getD i 0
        pacerMin := min 65535 (earliest (f.fields.map fun x => x.pacer * 1000 / k) 0), gShareMax := maxOf (·.share) d.gleaner.tasks }
    let d := d.onGleaner fun g => { g with samples := (s :: g.samples).take 600, nextIndex := (g.nextIndex + 1) % 2 ^ 32 }
    gleanChunk 3 (d.onTask 3 fun x => { x with mark := d.now, was := x.mark ≠ 0 && d.now > x.mark + 110000000 })

/-- TELEMETRY_SAMPLE. -/
def execTelemetrySample (time : Nat) (readings : TelemetryIn) (s : State) : Host.Outcome State Fault Refusal :=
  after time (takeSample readings) s

/-- A sample as TELEMETRY_READ gives it (Table 23.2). -/
def TelemetrySample.bytes (s : TelemetrySample) : List Byte :=
  le 4 s.index ++ fullTimeBytes { seconds := s.seconds, ns := s.ns } ++ le 2 s.stepMv ++ le 2 s.voutMv ++ le 2 s.iout ++ le 2 s.power
    ++ leInt 2 s.tjMax ++ s.stackTemp.flatMap (leInt 2) ++ le 2 s.flags ++ s.busy.flatMap (le 2) ++ le 2 s.pacerMin ++ le 2 s.gShareMax ++ le 8 0

/-- TELEMETRY_READ: samples from `first` on, oldest first. -/
def specTelemetryRead : CmdSpec where
  op := 0x1203
  length := fixed 8
  ranges := fun _ b => [rng b 4 1 1 63, zeroAt b 5 3]
  act := fun c d =>
    let all := d.gleaner.samples.reverse
    let start := if u32 c.b 0 = 0xFFFFFFFF then all.drop (all.length - 1) else all.dropWhile fun s => s.index ≠ u32 c.b 0
    let got := start.take (u8 c.b 4)
    (d, some (.ok (le 2 got.length ++ le 2 0 ++ le 4 ((all.head?.map (·.index)).getD 0) ++ got.flatMap TelemetrySample.bytes)))

/-- Pass progress of a task in 0.01 %. -/
def taskProgress (d : Dev) (t : Nat) : Nat := match t with
  | 0 => d.hbm.scrubLine * 10000 / scrubSteps
  | 2 =>
    let l := d.furrows.filter recentred
    if l.isEmpty then 10000 else (l.filter fun f => d.now ≤ f.lastRecentre + 60000000000).length * 10000 / l.length
  | 4 =>
    let all := sumOf (fun e => e.2) d.pails.zeroing
    if all = 0 then 10000 else d.pails.zeroed * 10000 / all
  | 5 =>
    let l := d.fabric.drills.filter fun x => !x.lost
    if l.isEmpty then 10000 else (l.filter fun x => d.now ≤ x.lastPatrol + 60000000000).length * 10000 / l.length
  | _ => 10000

/-- GLEAN_QUERY. -/
def specGleanQuery : CmdSpec where
  op := 0x1206
  length := fixed 0
  act := fun _ d =>
    let task := fun (t : Nat) =>
      let x := tabGet d.gleaner.tasks t
      le 1 t ++ le 1 (boolNat x.behind) ++ le 2 x.share ++ le 2 (taskProgress d t) ++ le 2 0 ++ leInt 4 (taskMs d t) ++ le 4 x.chunks
    (d, some (.ok (le 2 6 ++ le 2 0 ++ (List.range 6).flatMap task)))

/-! ## Counters -/

/-- The key that a counter command's object names; a type 0x9 ID names the live pail of lowest index (R418). -/
def counterObject (d : Dev) (b : List Byte) : Option Nat := if objOk (u16 b 0) then (objKeys d (u16 b 0)).head? else none

/-- Every counter of a span is listed for the object's type (R526). -/
def counterSpan (k first n : Nat) : Bool := (List.range n).all fun i => first + i < 256 && (keyCounter k (first + i)).isSome

/-- The checks of COUNTER_READ and COUNTER_READ_CLEAR (R526). -/
def counterRanges (d : Dev) (b : List Byte) : List (Nat × Bool) :=
  let k := (counterObject d b).getD 0
  [chk 0 (counterObject d b).isSome, chk 2 (counterSpan k (u8 b 2) 1), chk 3 (within (u8 b 3) 1 64 && counterSpan k (u8 b 2) (u8 b 3))]

/-- The kind's code. -/
def CounterKind.code : CounterKind → Nat
  | .wrap => 0
  | .saturate => 1
  | .threshold => 2

/-- One counter as the reply shows it. -/
def counterEntry (d : Dev) (k no : Nat) : List Byte := match keyCounter k no with
  | none => []
  | some (w, kind) =>
    let v := counterOf d k no
    let full := kind ≠ .wrap && v = 2 ^ w - 1
    le 1 no ++ le 1 w ++ le 1 kind.code ++ le 1 (boolNat full) ++ le 4 0 ++ le 8 v

/-- The reply of both counter commands. -/
def counterReply (d : Dev) (b : List Byte) : List Byte :=
  let k := (counterObject d b).getD 0
  le 1 (u8 b 3) ++ le 3 0 ++ (List.range (u8 b 3)).flatMap fun i => counterEntry d k (u8 b 2 + i)

/-- Device counter 5, the HBM bytes transferred, is brought up to date when a command reads it: by a free value, as the manual does not give
the engines' traffic in bytes. -/
def countTraffic (d : Dev) (b : List Byte) : Dev :=
  if counterObject d b = some 0 && u8 b 2 ≤ 5 && 5 < u8 b 2 + u8 b 3 then
    let (k, d) := takeFree d
    count 0 5 (Config.freeNat k 0) d
  else d

/-- COUNTER_READ. -/
def specCounterRead : CmdSpec where
  op := 0x1204
  length := fixed 4
  ranges := counterRanges
  act := fun c d => let d := countTraffic d c.b; (d, some (.ok (counterReply d c.b)))

/-- One counter is cleared (R525): a wrap counter and the retired blocks stay; a rank's clear re-arms HBM_CE_THRESHOLD. -/
def clearCounter (k no : Nat) (d : Dev) : Dev := match keyCounter k no with
  | some (_, .wrap) => d
  | some _ =>
    if k = 0 && no = 8 then d
    else
      let d := setCounter k no 0 d
      if objType (keyObj k) = 0xC && no = 0 then d.onHbm fun h => { h with ranks := tabMod h.ranks (objIndex k) fun r => { r with raised := false } } else d
  | none => d

/-- COUNTER_READ_CLEAR. -/
def specCounterReadClear : CmdSpec where
  op := 0x1205
  length := fixed 4
  ranges := counterRanges
  act := fun c d =>
    let d := countTraffic d c.b
    let k := (counterObject d c.b).getD 0
    ((List.range (u8 c.b 3)).foldl (fun d i => clearCounter k (u8 c.b 2 + i) d) d, some (.ok (counterReply d c.b)))

/-- Area 0x12. -/
def eventSpecs : List CmdSpec :=
  [specEventRingSet, specEventFilterSet, specEventRead, specTelemetryRead, specCounterRead, specCounterReadClear, specGleanQuery]

end Sys2Proof.Machine
end

