-- ==== Sys2Proof/Machine/BootCmd.lean ====
section
/-! DEFINITION. Power-up, reset and boot (chapter 24): images and their checks (R540, R541), the boot sequence (R543 to R545), the reset
kinds (R547), firmware update and trial boot (R548 to R550), and the commands of Table 24.10. -/

namespace Sys2Proof.Machine

/-! ## Images -/

/-- A byte of a region that was written in pieces, newest first, over a filler. -/
def pieceByte : List (Nat × List Byte) → Byte → Nat → Byte
  | [], fill, _ => fill
  | (o, bs) :: l, fill, a => if o ≤ a && a < o + bs.length then bs.getD (a - o) fill else pieceByte l fill a

/-- The 4 KiB header of an image (R540). -/
def imageHeader (l : List (Nat × List Byte)) (fill : Byte) : List Byte := (List.range 4096).map (pieceByte l fill)

/-- The reserved bytes of a header (Table 24.5). -/
def reservedZero (h : List Byte) : Bool :=
  [(6, 2), (13, 3), (24, 8), (177, 79), (352, 3744)].all fun e => (slice h e.1 e.2).all fun b => b = 0

/-- An image as its bytes and the cryptographic checks show it; `room` is the size of its slot or buffer. -/
def imageOf (h : List Byte) (room : Nat) (im : ImageIn) : Image :=
  { headerOk := u32 h 0 = 0x57464D5A && u16 h 4 = 1 && reservedZero h
    rangeOk := within (u32 h 16) 1 25161728 && u32 h 20 < u32 h 16 && 4096 + u32 h 16 ≤ room
    keyHash := im.keyHash, signatureOk := im.signatureOk, payloadOk := im.payloadOk, version := u32 h 8, rollback := u8 h 12 }

/-- The verify result of an image (R541, R542): the first check of Table 24.6 that fails. -/
def verifyImage (b : Boot) (i : Image) : Nat :=
  if !i.headerOk then 1
  else if !i.rangeOk then 6
  else if !(i.keyHash = b.fuses.keyHash && b.fuseKeyOk) then 2
  else if !i.signatureOk then 3
  else if !i.payloadOk then 4
  else if i.rollback < b.fuseRollback then 5
  else 0

/-- The verify result of a slot at boot; a slot that was marked unbootable (R548) does not verify. -/
def verifySlot (b : Boot) (i : Nat) : Nat :=
  let s := tabGet b.slots i
  if s.bootable then verifyImage b s.image else if s.result = 0 then 1 else s.result

/-! ## Reset (R547) -/

/-- What a reset leaves: 0 power-on, 1 cold, 2 warm. Fuses, boot flash and the magazine's media stay; a warm reset also keeps TD5, the
sticky cause and MAG_PWR_EN, and a RESET_N after a thermal trip its cause (R569). Host memory is the host's. -/
def resetDev (kind : Nat) (d : Dev) : Dev :=
  let b := d.boot
  let m := d.mag
  let keep := kind = 2
  let td5 := d.domain 5
  let fresh : TimeUnit := {}
  let powered : Bool := keep && m.powerOn && m.present
  { now := d.now, free := d.free
    faults := { log := d.faults.log, logNext := d.faults.logNext, bootCount := d.faults.bootCount
                stickyCause := if keep || (kind = 1 && d.faults.stickyCause = 4) then d.faults.stickyCause else 0 }
    time := if keep then { fresh with domains := tabMod fresh.domains 5 fun x => { x with state := td5.state, base := td5.base, anchor := td5.anchor, rate := td5.rate } }
            else fresh
    pails := { hostMem := d.pails.hostMem }
    mag := { pack := m.pack, present := m.present, powerOn := powered, powerAt := if powered then d.now else 0
             state := if powered then .mounting else .absent }
    boot := { vaon := b.vaon, resetHeld := false, mode := b.mode, resetKind := kind, resetAt := d.now, directory := b.directory, otherDirectory := b.otherDirectory, slots := b.slots
              fuses := b.fuses, fuseRollback := b.fuseRollback, fuseKeyOk := b.fuseKeyOk, serial := b.serial, macBase := b.macBase, failedBoot := b.failedBoot } }

/-! ## Boot (R543, R544) -/

/-- A rank whose delays are bad takes a spare, or its slot goes into a withdrawn region when none is left (R403, R408, R412). -/
def replaceRank (rank : Nat) (d : Dev) : Dev := match slotOf d rank with
  | none => d
  | some k =>
    let own := (fallowRanks d).filter fun x => x / 96 = rank / 96
    match own.head?.orElse fun _ => (fallowRanks d).head? with
    | some x => (d.onRank x fun r => { r with state := .inService }).onHbm fun h => { h with slots := h.slots.set k x }
    | none => d.onHbm fun h => { h with redirect := mapSet h.redirect k h.regions, regions := h.regions + 1 }

/-- The three ranks of a pseudo-channel (R393). -/
def channelRanks (pc : Nat) : List Nat := (List.range 3).map fun sid => 96 * (pc / 32) + 3 * (pc % 32) + sid

/-- Frame memory comes up (R402, R403): bad pseudo-channels stay out, their slots are served elsewhere. -/
def bringUpHbm (badOnes : List Nat) (temps : List Int) (d : Dev) : Dev :=
  let ranks := badOnes.flatMap channelRanks
  let d := ranks.foldl (fun d i => d.onRank i fun r => { r with state := .retired }) d
  let d := ranks.foldl (fun d i => replaceRank i d) d
  let temp := fun (k : Nat) => temps.getD k 250
  (List.range 2).foldl (fun d k => loadDelays k (temp k) d) <| d.onHbm fun h =>
    { h with stackStates := (List.range 2).map fun k => { temp := temp k, loadedAt := temp k, multiple := refreshMultiple (temp k) } }

/-- What a boot chose: the slot (2 a host image), its image, the directory it leaves, the slots that failed, and a trial it gave up. -/
structure BootChoice where
  slot : Nat := 0
  image : Image := {}
  directory : BootDirectory := {}
  failed : List (Nat × Nat) := []
  reverted : Option Nat := none
  deriving DecidableEq, Repr, Inhabited

/-- A directory as firmware writes it next (R539). -/
def BootDirectory.write (x : BootDirectory) : BootDirectory := { x with seq := x.seq % (2 ^ 32 - 1) + 1 }

/-- A directory is written over the copy that is not in force, and is then in force itself (R539). -/
def Boot.putDirectory (b : Boot) (x : BootDirectory) : Boot :=
  if x = b.directory then b else { b with directory := x, otherDirectory := b.directory }

/-- The slot that boots (R543, R548); none when neither verifies. -/
def chooseSlot (b : Boot) : Option BootChoice :=
  let x := b.directory
  let p := x.preferred
  let q := 1 - p
  let spent : Bool := x.trial && x.trialCount ≥ 3
  let rp := verifySlot b p
  if !spent && rp = 0 then
    some { slot := p, image := (tabGet b.slots p).image, directory := if x.trial then { x with trialCount := x.trialCount + 1 }.write else x }
  else if verifySlot b q = 0 then
    some { slot := q, image := (tabGet b.slots q).image
           directory := if x.trial then { x with preferred := q, trial := false, trialCount := 0 }.write else x
           failed := if rp = 0 then [] else [(p, rp)], reverted := if x.trial then some p else none }
  else none

/-- Firmware has started (Table 24.7, steps 6 and 7): command-ready, with BOOT_COMPLETE and then what was queued. -/
def commandReady (c : BootChoice) (badOnes : List Nat) (standbyOk : Bool) (d : Dev) : Dev :=
  let ms := (d.now - d.boot.resetAt) / 1000000
  let sticky := d.faults.stickyCause
  let d := d.onBoot fun b =>
    { b.putDirectory c.directory with
      ready := true, running := c.slot, runningImage := c.image, bootMs := ms, disabledChannels := badOnes, failedBoot := none, rom := {} }
  let d := d.onFaults fun f => { f with bootCount := (f.bootCount + 1) % 2 ^ 32, standby := if standbyOk then .ready else .failed
                                        standbyVersion := c.image.version, lastBootCause := sticky, stickyCause := 0, fatalCause := 0 }
  let d := d.onHbm fun h => { h with scrubPassStart := d.now }
  let d := d.onFabric fun f => { f with drills := f.drills.map fun x => { x with lastPatrol := d.now } }
  let d := setDevStatus 3 false (setDevStatus 0 true d)
  let d := raise 0x1380 0 0 (le 1 c.slot ++ le 1 d.boot.mode ++ le 1 d.boot.resetKind ++ le 1 badOnes.length ++ le 4 c.image.version ++ le 4 ms) d
  let d := badOnes.foldl (fun d p => raise 0x1383 3 0 (le 1 (p / 32) ++ le 1 (p % 32) ++ le 2 0) d) d
  let d := c.failed.foldl (fun d e => raise 0x1381 3 0 (le 1 e.1 ++ le 1 e.2 ++ le 2 0) d) d
  let d := match c.reverted with
    | some s => raise 0x1382 3 0 (le 1 s ++ le 3 0 ++ le 4 (tabGet d.boot.slots s).image.version) d
    | none => d
  if standbyOk then d else raise 0x1181 3 0 (le 1 1 ++ le 1 0 ++ le 2 0) d

/-- The next boot that reaches command-ready logs a boot that failed (R544) and a fatal cause that could not be written (R514); `old` is
the module before command-ready. -/
def logPast (old d : Dev) : Dev :=
  let d := match old.boot.failedBoot with
    | some (a, b, m) => raise 0x1384 4 0 (le 1 a ++ le 1 b ++ le 1 m ++ le 1 0) d
    | none => d
  if old.faults.stickyCause = 0 then d
  else logFault { code := 0x1186, severity := 4, stamp := shortStamp (domainNow d 5), detail := le 1 old.faults.stickyCause ++ List.replicate 15 0 } d

/-- The cause that stands for "no slot verified" (R544), which Table 22.6 does not number. -/
abbrev noImage : Nat := 255

/-- No slot verifies and the mode has no host boot: the boot ROM stops, fatal (R544). -/
def bootStops (d : Dev) : Dev :=
  let a := verifySlot d.boot 0
  let c := verifySlot d.boot 1
  let p := verifySlot d.boot d.boot.directory.preferred
  let d := d.onBoot fun b => { b with failedBoot := some (a, c, b.mode), rom := { b.rom with state := 4, result := p } }
  setDevStatus 3 true (d.onFaults fun f => { f with fatalCause := noImage })

/-- The boot ROM runs (Table 24.7): from flash to command-ready, or to where it waits for the host's image (R545). -/
def bootFrom (inp : BootInputs) (d : Dev) : Dev :=
  let badOnes := (inp.badChannels.filter fun p => p < 64).dedup
  let d := d.onBoot fun b => { b with fuses := inp.fuses, fuseKeyOk := inp.keyCrcOk, disabledChannels := badOnes
                                      directory := if inp.directoryBad then b.otherDirectory else b.directory }
  let d := bringUpHbm badOnes inp.stackTemps d
  let d := d.onFaults fun f => { f with standby := if inp.standbyOk then .cold else .failed }
  let waitHost := fun (d : Dev) => d.onBoot fun b => { b with rom := { state := 1 } }
  if d.boot.mode = 1 then waitHost d
  else match chooseSlot d.boot with
    | some c => logPast d (commandReady c badOnes inp.standbyOk { d with now := d.now + inp.bootMs * 1000000 })
    | none => if d.boot.mode = 2 then waitHost d else bootStops d

/-- BOOT_MODE as sampled at RESET_N (Table 24.2). -/
def bootMode (m : Nat) : Nat := if m % 4 = 3 then 0 else m % 4

/-- A reset with its boot; TD5 starts at RESET_N's release (R356). -/
def rebootDev (kind : Nat) (inp : BootInputs) (d : Dev) : Dev :=
  let d := resetDev kind { d with boot := { d.boot with vaon := true } }
  let d := if kind = 2 then d
    else (d.onBoot fun b => { b with mode := bootMode inp.bootMode }).onDomain 5 fun x => { x with base := 0, anchor := d.now }
  bootFrom inp d

/-- POWER_ON_RESET: VAON has come into range and RESET_N rises. -/
def execPowerOnReset (time : Nat) (boot : BootInputs) (s : State) : Host.Outcome State Fault Refusal := always time (rebootDev 0 boot) s

/-- COLD_RESET: RESET_N rises, or DEVICE_RESET mode 1 takes effect. -/
def execColdReset (time : Nat) (boot : BootInputs) (s : State) : Host.Outcome State Fault Refusal := always time (rebootDev 1 boot) s

/-- WARM_RESET (Table 24.9). A thermal trip ends only by RESET_N or a power-on reset (R515). -/
def execWarmReset (time : Nat) (boot : BootInputs) (s : State) : Host.Outcome State Fault Refusal := after time (rebootDev 2 boot) s

/-- Reset is held: nothing runs and outputs are high-impedance (R536). -/
def holdReset (kind : Nat) (d : Dev) : Dev := (resetDev kind d).onBoot fun b => { b with resetHeld := true, vaon := kind ≠ 0 }

/-- RESET_N_LOW: a low of RESET_N that lasts 10 µs or more starts a cold reset (R536); `duration` is in ns. -/
def execResetNLow (time duration : Nat) (s : State) : Host.Outcome State Fault Refusal :=
  always time (fun d => if duration ≥ 10000 then holdReset 1 d else d) s

/-- VAON_OUT_OF_RANGE starts a power-on reset (R536). -/
def execVaonOutOfRange (time : Nat) (s : State) : Host.Outcome State Fault Refusal := always time (holdReset 0) s

/-- Function 0's registers return to Table 3.8 and its rings are disabled; DEV_STATUS goes on showing the module's state. -/
def resetFunction0 (d : Dev) : Dev := d.onBar0 fun b => { devStatus := b.devStatus }

/-- PERST_N (0), a hot reset (1) or FLR of function 0 (2): an endpoint reset, or a warm reset that ends a fatal state of cause 1 to 3. -/
def endpointReset (kind : Nat) (d : Dev) : Dev :=
  if kind ≥ 2 then resetFunction0 d
  else if within d.faults.fatalCause 1 3 then
    (resetFunction0 (controllerDisable d)).onBoot fun b => { b with pendingReset := some (2, d.now) }
  else resetFunction0 (controllerDisable d)

/-- PCIE_ENDPOINT_RESET (R547). -/
def execPcieEndpointReset (time kind : Nat) (s : State) : Host.Outcome State Fault Refusal := always time (endpointReset kind) s

/-! ## Host boot (R545) -/

/-- The boot ROM answers on the SPI target: firmware has not started and reset is not held. -/
def romRuns (d : Dev) : Bool := !d.boot.ready && !d.boot.resetHeld

/-- BOOT_STATUS (Table 24.8): the bytes that follow the dummy byte. -/
def bootStatusBytes (d : Dev) : List Byte :=
  let r := d.boot.rom
  le 1 r.state ++ le 1 r.result ++ le 2 0 ++ le 4 r.received

/-- What BOOT_STATUS clocks out; past command-ready its byte has no meaning (R545). -/
def bootStatus (d : Dev) : Dev := clockOut (if romRuns d then [0xFF] ++ bootStatusBytes d else List.replicate 9 0xFF) d

/-- BOOT_STATUS. -/
def execBootStatus (time : Nat) (s : State) : Host.Outcome State Fault Refusal := always time bootStatus s

/-- BOOT_WRITE: data into the image buffer, refused while the ROM brings up HBM, verifies or starts. -/
def bootWrite (off : Nat) (data : List Byte) (d : Dev) : Dev :=
  let r := d.boot.rom
  let ok := off % 4 = 0 && off < 0x1800000 && within data.length 4 4096 && data.length % 4 = 0
  if romRuns d && !fatal d && (r.state = 1 || r.state = 4) && ok then
    let again : Bool := r.state = 4
    d.onBoot fun b => { b with rom := { state := 1, result := 0, received := (if again then 0 else r.received) + data.length
                                        written := (off, data) :: r.written } }
  else d

/-- BOOT_WRITE. -/
def execBootWrite (time offset : Nat) (data : List Byte) (s : State) : Host.Outcome State Fault Refusal := always time (bootWrite offset data) s

/-- BOOT_GO: the image is verified and started, or refused with its result. Bytes that the host never wrote are free values. -/
def bootGo (length : Nat) (im : ImageIn) (d : Dev) : Dev :=
  if !romRuns d || fatal d || !(d.boot.rom.state = 1 || d.boot.rom.state = 4) then d
  else
    let (k, d) := takeFree d
    let header := (List.range 4096).map fun a => pieceByte d.boot.rom.written (byte (Config.freeNat k a)) a
    let image := imageOf header (min length 0x1800000) im
    let r := verifyImage d.boot image
    if r = 0 then
      logPast d (commandReady { slot := 2, image, directory := d.boot.directory } d.boot.disabledChannels (d.faults.standby ≠ .failed) d)
    else d.onBoot fun b => { b with rom := { b.rom with state := 4, result := r } }

/-- BOOT_GO. -/
def execBootGo (time length : Nat) (image : ImageIn) (s : State) : Host.Outcome State Fault Refusal := always time (bootGo length image) s

/-! ## Firmware update (R548 to R550) -/

/-- The slot that an update writes: the one not running; after a host boot, the one the directory does not prefer. -/
def updateSlot (b : Boot) : Nat := if b.running = 2 then 1 - b.directory.preferred else 1 - b.running

/-- Changes a slot of the boot flash. -/
def Dev.onSlot (i : Nat) (f : ImageSlot → ImageSlot) (d : Dev) : Dev := d.onBoot fun b => { b with slots := tabMod b.slots i f }

/-- FW_INFO. -/
def specFwInfo : CmdSpec where
  op := 0x1300
  length := fixed 0
  act := fun _ d =>
    let b := d.boot
    let slot := fun (s : ImageSlot) => le 1 (boolNat s.bootable) ++ le 1 s.result ++ le 2 0 ++ le 4 s.image.version ++ le 1 s.image.rollback ++ le 3 0
    (d, some (.ok (le 1 b.running ++ le 1 b.mode ++ le 1 b.resetKind ++ le 1 (boolNat b.directory.trial) ++ le 4 b.runningImage.version
      ++ le 1 b.runningImage.rollback ++ le 1 b.fuseRollback ++ le 1 b.directory.trialCount ++ le 1 0
      ++ (List.range 2).flatMap (fun i => slot (tabGet b.slots i)) ++ le 4 b.bootMs)))

/-- FW_UPDATE_BEGIN. -/
def specFwUpdateBegin : CmdSpec where
  op := 0x1301
  length := fixed 8
  device := true
  ranges := fun _ b => [rng b 0 4 4097 25165824, zeroAt b 4 4]
  against := fun d _ => if d.boot.update.isSome then some (.busy 3) else none
  act := fun c d =>
    let i := updateSlot d.boot
    let d := d.onSlot i fun _ => { bootable := false, result := 1 }
    (d.onBoot fun b => { b with update := some { slot := i, length := u32 c.b 0, erasing := some c.pending } }, some (.pending (le 1 i ++ le 3 0)))

/-- FW_SLOT_ERASE_DONE: the erase that FW_UPDATE_BEGIN started ends. -/
def eraseEnds (good : Bool) (d : Dev) : Dev := match d.boot.update with
  | some u => match u.erasing with
    | some p =>
      if good then completeCmd p .ok (d.onBoot fun b => { b with update := some { u with erasing := none } })
      else completeCmd p { status := 0x0701 } (d.onBoot fun b => { b with update := none })
    | none => d
  | none => d

/-- FW_SLOT_ERASE_DONE. -/
def execFwSlotEraseDone (time : Nat) (good : Bool) (s : State) : Host.Outcome State Fault Refusal := after time (eraseEnds good) s

/-- FW_UPDATE_DATA. -/
def specFwUpdateData : CmdSpec where
  op := 0x1302
  length := counted 6 fun b => 8 + u16 b 4
  device := true
  ranges := fun d b => [chk 0 (u32 b 0 % 8 == 0 && (match d.boot.update with
      | some u => u32 b 0 < u.length
      | none => true)), chk 4 (within (u16 b 4) 8 4072 && u16 b 4 % 8 == 0), zeroAt b 6 2]
  combos := fun d c => match d.boot.update with
    | none => some (.combination 0)
    | some u => if u32 c.b 0 + u16 c.b 4 > u.length then some (.combination 4) else none
  against := fun d _ => match d.boot.update with
    | some u => if u.erasing.isSome || u.checking.isSome then some (.busy 3) else none
    | none => none
  act := fun c d => match d.boot.update with
    | some u => (d.onSlot u.slot fun s => { s with bytes := (u32 c.b 0, c.b.drop 8) :: s.bytes }, some .ok)
    | none => (d, some (.combination 0))

/-- FW_UPDATE_END: the slot is checked; the result follows the reply (R62) and stands in FW_INFO. -/
def specFwUpdateEnd : CmdSpec where
  op := 0x1303
  length := fixed 4
  device := true
  ranges := fun _ b => [zeroAt b 0 4]
  combos := fun d _ => if d.boot.update.isNone then some (.combination 0) else none
  against := fun d _ => match d.boot.update with
    | some u => if u.erasing.isSome || u.checking.isSome then some (.busy 3) else none
    | none => none
  act := fun c d => (d.onBoot fun b => { b with update := b.update.map fun u => { u with checking := some c.pending } }, some .pending)

/-- The check that FW_UPDATE_END started ends: the slot is bootable when its result is 0. -/
def checkEnds (im : ImageIn) (d : Dev) : Dev := match d.boot.update with
  | some u => match u.checking with
    | some p =>
      let image := imageOf (imageHeader (tabGet d.boot.slots u.slot).bytes 0xFF) 0x1800000 im
      let r := verifyImage d.boot image
      let d := d.onSlot u.slot fun s => { s with image, result := r, bootable := r = 0, ended := r = 0 }
      completeCmd p .ok (d.onBoot fun b => { b with update := none })
    | none => d
  | none => d

/-- FW_SLOT_CHECK_DONE. -/
def execFwSlotCheckDone (time : Nat) (image : ImageIn) (s : State) : Host.Outcome State Fault Refusal := after time (checkEnds image) s

/-- Everything staged for the magazine reaches it: every open acre goes to a stripe and is programmed and journaled. -/
def flushMag : Nat → Dev → Dev
  | 0, d => d
  | fuel + 1, d =>
    let d := padStripe (placeFull (d.onMag fun m => { m with writes := m.writes.map fun w => { w with full := true } }))
    let d := (d.mag.writes.filter fun w => w.stripe.isSome && !w.programmed).foldl (fun d w => programOk w d) d
    flushMag fuel (settleMag (journalPage d))

/-- Every record that can be formed is. -/
def formAll (n : Nat) (d : Dev) : Dev := (List.range ((recordingOf d n).elim 0 fun r => r.waiting.length)).foldl (fun d _ => formRecord n d) d

/-- The magazine is put in order as steps 1 to 4 of R469 do, MAG_PWR_EN staying high (R547). -/
def orderMagazine (d : Dev) : Dev :=
  if d.mag.state ≠ .mounted then d
  else
    let d := (d.mag.recordings.map (·.reel)).foldl (fun d n => stopRecording n 1 2 0 none (formAll n d)) d
    let d := checkpoint (flushMag 6 d)
    d.onMag fun m => { m with pack := { m.pack with clean := true } }

/-- A reset starts 10 ms after the reply. -/
def scheduleReset (kind : Nat) (d : Dev) : Dev := d.onBoot fun b => { b with pendingReset := some (kind, d.now + 10000000) }

/-- FW_ACTIVATE. -/
def specFwActivate : CmdSpec where
  op := 0x1304
  length := fixed 4
  device := true
  ranges := fun _ b => [rng b 0 2 0x9180 0x9180, zeroAt b 2 2]
  combos := fun d _ => if (tabGet d.boot.slots (updateSlot d.boot)).ended then none else some (.combination 0)
  act := fun _ d =>
    let d := orderMagazine d
    let i := updateSlot d.boot
    (scheduleReset 2 (d.onBoot fun b => b.putDirectory { b.directory with preferred := i, trial := true, trialCount := 0 }.write), some .ok)

/-- DEVICE_RESET. -/
def specDeviceReset : CmdSpec where
  op := 0x1305
  length := fixed 4
  device := true
  ranges := fun _ b => [rng b 0 2 0x9180 0x9180, rng b 2 1 0 1, zeroAt b 3 1]
  act := fun c d =>
    if u8 c.b 2 = 0 then (scheduleReset 2 (orderMagazine d), some .ok) else (scheduleReset 1 d, some .ok)

/-- What the rollback counter becomes when bits are blown one at a time up to an index (R542): it stops at a bit that fails to blow. -/
def blownTo (b : Boot) (index : Nat) : Nat :=
  let c := b.fuseRollback
  match ((List.range (index - c)).map (c + ·)).find? (· ∈ b.fuses.weakBits) with
  | some k => k
  | none => max c index

/-- ROLLBACK_COMMIT (R542, R550): the trial is over; with ADVANCE counter bits are blown up to the running image's index. -/
def specRollbackCommit : CmdSpec where
  op := 0x1306
  length := fixed 4
  device := true
  ranges := fun _ b => [flagBits b 0 1 1, zeroAt b 1 3]
  act := fun c d =>
    let advance := bit (u8 c.b 0) 0
    let failed : Bool := advance && blownTo d.boot d.boot.runningImage.rollback < d.boot.runningImage.rollback
    let d := d.onBoot fun b =>
      { (if b.directory.trial then b.putDirectory { b.directory with trial := false, trialCount := 0 }.write else b) with
        fuseRollback := if advance then blownTo b b.runningImage.rollback else b.fuseRollback }
    (d, some (if failed then { status := 0x0701 } else .ok (le 1 d.boot.fuseRollback ++ le 3 0)))

/-- Area 0x13. -/
def bootSpecs : List CmdSpec :=
  [specFwInfo, specFwUpdateBegin, specFwUpdateData, specFwUpdateEnd, specFwActivate, specDeviceReset, specRollbackCommit]

end Sys2Proof.Machine
end

