-- ==== Sys2Proof/Machine/Control.lean ====
section
/-! DEFINITION. Areas 0x00 and 0x01: sessions (R63 to R71), ownership commands (R74, R572), the device (Table 3.7), transactions (R88, R97,
R98, R107, R110), and the index of every command (Table 3.13). -/

namespace Sys2Proof.Machine

/-! ## Sessions -/

/-- A tombstone lasts 60 s (R70). -/
abbrev tombNs : Nat := 60000000000

/-- A session index is held by a tombstone. -/
def entombed (d : Dev) (i : Nat) : Bool := match mapGet d.ctl.tombs i with
  | some t => d.now < t.closedAt + tombNs
  | none => false

/-- The index of a new session (R63): the lowest that is neither open nor a tombstone, or else that of the oldest tombstone. -/
def newSessionIndex (d : Dev) : Option Nat :=
  let shut := (List.range 256).filter fun i => (mapGet d.ctl.sessions i).isNone
  match shut.find? fun i => !entombed d i with
  | some i => some i
  | none => shut.foldl (fun best i => match best with
    | none => some i
    | some b => if ((mapGet d.ctl.tombs i).map (·.closedAt)).getD 0 < ((mapGet d.ctl.tombs b).map (·.closedAt)).getD 0 then some i else some b) none

/-- The generation of an index when it is used again (R63). -/
def nextGeneration (d : Dev) (i : Nat) : Nat := match mapGet d.ctl.generations i with
  | some g => if g ≥ 254 then 1 else g + 1
  | none => 1

/-- An endpoint as events and SESSION_LIST show it. -/
def endpointBytes : Endpoint → List Byte
  | .ring r => le 1 0 ++ le 1 r
  | .udp p _ _ => le 1 1 ++ le 1 p
  | .spi => le 1 2 ++ le 1 0

/-- The open session with a nonce on an endpoint (R67). -/
def sameNonce (d : Dev) (e : Endpoint) (nonce : Nat) : Option Session :=
  (d.ctl.sessions.find? fun x => x.2.nonce = nonce && x.2.endpoint = e).map (·.2)

/-- OPEN_SESSION (R66, R67). -/
def specOpenSession : CmdSpec where
  op := 0x0001
  length := fixed 32
  ranges := fun _ b => [chk 0 (u64 b 0 ≥ 1), chk 8 (u32 b 8 == 0 || within (u32 b 8) 250 30000), rng b 12 2 0 1, zeroAt b 14 2, ascii b 16 16]
  act := fun c d => match sameNonce d c.endpoint (u64 c.b 0) with
    | some s => (d, some { status := 0x0105, params := le 2 0 ++ le 2 0 ++ s.openParams })
    | none => match newSessionIndex d with
      | none => (d, some { status := 0x0203, detail := 256 })
      | some i =>
        let gen := nextGeneration d i
        let lease := if u32 c.b 8 = 0 then 2000 else u32 c.b 8
        let id := sessionId i gen
        let params := le 2 id ++ le 2 0 ++ le 4 lease ++ le 4 c.seq ++ le 2 4080 ++ le 2 64
        let s : Session :=
          { gen, endpoint := c.endpoint, nonce := u64 c.b 0, leaseMs := lease, policy := u16 c.b 12, name := slice c.b 16 16
            deadline := d.now + lease * 1000000, h := c.seq, recs := [{ seq := c.seq, done := true }], openParams := params, cursor := d.events.next }
        let d := clearCounters (sessionObj i) d
        let d := d.onCtl fun x => { x with sessions := mapSet x.sessions i s, tombs := mapDel x.tombs i, generations := mapSet x.generations i gen }
        (raise 0x0080 0 (sessionObj i) (le 2 id ++ endpointBytes c.endpoint) d, some (.ok params))

/-- A command as the owner of an object sends it when its session ends under RELEASE (R69). -/
def ownerCommand (i op : Nat) (b : List Byte) (d : Dev) : Dev := match engineSpec op, mapGet d.ctl.sessions i with
  | some sp, some s =>
    let c : Ctx := { session := i, sid := sessionId i s.gen, op, b, endpoint := s.endpoint, time := d.now }
    if sp.stageable b then match commitOne c sp d with
      | (d', some r) => if r.good then d' else sp.settle c d
      | (_, none) => sp.settle c d
    else if (sp.against d c).isSome then d else (sp.act c d).1
  | _, _ => d

/-- What RELEASE does to an owned object (R69): streams released, sessions of codecs closed, flows stopped, pails freed, channels aborted. -/
def releaseObject (i : Nat) (d : Dev) (k : Nat) : Dev :=
  let o := keyObj k
  match objType o with
  | 0x2 => ownerCommand i 0x0202 (le 2 o ++ le 2 0) d
  | 0x5 => ownerCommand i 0x0801 (le 2 o ++ le 2 0) d
  | 0x6 => ownerCommand i 0x0901 (le 2 o ++ le 2 0) d
  | 0x8 => ownerCommand i 0x0C06 (le 2 o ++ le 2 0) d
  | 0x9 => match mapGet d.pails.table (k - 0x10000) with
    | some p => ownerCommand i 0x0E02 (le 4 (pailHandle (k - 0x10000) p.gen)) d
    | none => d
  | 0xA => ownerCommand i 0x0F04 (le 2 o ++ le 1 1 ++ le 1 0) d
  | _ => d

/-- A session closes (R69): `reason` 0 by CLOSE_SESSION, 1 by expiry. -/
def closeSession (i reason policy : Nat) (d : Dev) : Dev := match mapGet d.ctl.sessions i with
  | none => d
  | some s =>
    let d := ((d.ctl.txns.filter fun t => t.2.session = i).map (·.1)).foldl (fun d t => abortTxn t (some 1) d) d
    let theirs := fun (bs : List Byte) => u16 bs 6 ≠ sessionId i s.gen
    let d := d.onSpi fun x => { x with replies := x.replies.filter theirs, waiting := x.waiting.filter theirs }
    let d := { d with bar0 := { d.bar0 with rings := d.bar0.rings.map fun r => { r with waiting := r.waiting.filter theirs } } }
    let mine := fun (d : Dev) => (d.ctl.owners.filter fun e => e.2 = i).map (·.1)
    let d := if policy = 1 then (mine d).foldl (releaseObject i) d else d
    let d := (mine d).foldl (fun d k => setOwner k none d) d
    let d := d.onCtl fun x => { x with sessions := mapDel x.sessions i
                                       tombs := mapSet x.tombs i { gen := s.gen, byExpiry := reason = 1, endpoint := s.endpoint, closedAt := d.now } }
    let d := d.onEvents fun e => { e with int0Holder := if e.int0Holder = some i then none else e.int0Holder }
    raise 0x0081 1 (sessionObj i) (le 2 (sessionId i s.gen) ++ le 1 reason ++ le 1 policy) (syncPool d)

/-- CLOSE_SESSION. -/
def specCloseSession : CmdSpec where
  op := 0x0002
  length := fixed 4
  ranges := fun _ b => [rng b 0 2 0 1, zeroAt b 2 2]
  act := fun c d => (closeSession c.session 0 (u16 c.b 0) d, some .ok)

/-- Time left on a lease, in ms. -/
def leaseLeft (d : Dev) (s : Session) : Nat := (s.deadline - d.now) / 1000000

/-- KEEPALIVE (R68). -/
def specKeepalive : CmdSpec where
  op := 0x0003
  length := fixed 0
  act := fun c d => (d, some (.ok (le 4 (((mapGet d.ctl.sessions c.session).map (leaseLeft d)).getD 0))))

/-! ## Ownership -/

/-- The object IDs of Table 3.6. -/
def claimList (b : List Byte) : List Nat := u16s b 4 (u16 b 0)

/-- An object of an ownership command exists: a type 0x9 ID has a live pail behind it (R418). -/
def objNamed (d : Dev) (o : Nat) : Bool := objOk o && !(objKeys d o).isEmpty

/-- An object that can have an owner (R72). -/
def ownable (d : Dev) (o : Nat) : Bool := objType o ≤ 0xB && objNamed d o

/-- The owner of an object other than a session; for a pail ID, of any pail it names. -/
def otherOwner (d : Dev) (i o : Nat) : Option Nat := (objKeys d o).findSome? fun k => (keyOwner d k).filter fun x => x ≠ i

/-- OBJ_CLAIM (R74). -/
def specObjClaim : CmdSpec where
  op := 0x0004
  length := counted 2 fun b => 4 + 2 * u16 b 0
  ranges := fun d b => [rng b 0 2 1 64, flagBits b 2 2 1] ++ eachAt 4 2 (u16 b 0) fun o => ownable d (u16 b o)
  act := fun c d =>
    let force : Bool := bit (u16 c.b 2) 0 && keyOwner d 0 = some c.session
    let refused := if force then none else (indexed (claimList c.b)).findSome? fun e => (otherOwner d c.session e.2).map fun w => (e.1, w)
    match refused with
    | some (i, w) => (d, some { status := 0x0601, detail := sessionObj w, params := le 2 i })
    | none => (((claimList c.b).flatMap (objKeys d)).foldl (fun d k => setOwner k (some c.session) d) d, some .ok)

/-- OBJ_RELEASE (R572). -/
def specObjRelease : CmdSpec where
  op := 0x0005
  length := counted 2 fun b => 4 + 2 * u16 b 0
  ranges := fun d b => [rng b 0 2 1 64, zeroAt b 2 2] ++ eachAt 4 2 (u16 b 0) fun o => ownable d (u16 b o)
  act := fun c d =>
    let refused := (indexed (claimList c.b)).findSome? fun e =>
      ((objKeys d e.2).find? fun k => keyOwner d k ≠ some c.session).map fun k => (e.1, keyOwner d k)
    match refused with
    | some (i, w) => (d, some { Rsp.notOwner w with params := le 2 i })
    | none => (((claimList c.b).flatMap (objKeys d)).foldl (fun d k => setOwner k none d) d, some .ok)

/-- OBJ_QUERY_OWNER. -/
def specObjQueryOwner : CmdSpec where
  op := 0x0006
  length := counted 2 fun b => 4 + 2 * u16 b 0
  ranges := fun d b => [rng b 0 2 1 64, zeroAt b 2 2] ++ eachAt 4 2 (u16 b 0) fun o => objNamed d (u16 b o)
  act := fun c d => (d, some (.ok ((claimList c.b).flatMap fun o => le 2 (ownerObj (objOwner d o)))))

/-- SESSION_LIST. -/
def specSessionList : CmdSpec where
  op := 0x0007
  length := fixed 4
  ranges := fun _ b => [rng b 0 2 0 255, zeroAt b 2 2]
  act := fun c d =>
    let l := (d.ctl.sessions.filter fun e => e.1 ≥ u16 c.b 0).take 128
    let entry := fun (e : Nat × Session) =>
      le 2 (sessionId e.1 e.2.gen) ++ endpointBytes e.2.endpoint ++ le 4 (leaseLeft d e.2) ++ (e.2.name ++ List.replicate 16 0).take 16
    (d, some (.ok (le 2 l.length ++ le 2 0 ++ l.flatMap entry)))

/-- QUERY_DEVICE. -/
def specQueryDevice : CmdSpec where
  op := 0x0010
  length := fixed 0
  act := fun _ d =>
    (d, some (.ok (le 2 0x9180 ++ le 2 0x00A1 ++ le 4 d.boot.runningImage.version ++ le 1 (activeComplex d) ++ le 1 (standbyCode d)
      ++ le 2 d.ctl.sessions.length ++ le 8 d.boot.serial)))

/-! ## Transactions -/

/-- TXN_BEGIN (R88, R89). -/
def specTxnBegin : CmdSpec where
  op := 0x0100
  length := fixed 8
  ranges := fun _ b => [chk 0 (u32 b 0 == 0 || within (u32 b 0) 100 60000), zeroAt b 4 4]
  against := fun d _ => if txnCount d ≥ 32 then some { status := 0x0305, detail := 2 } else none
  act := fun c d =>
    let (n, d) := takeTxn d
    let idle := (if u32 c.b 0 = 0 then 10000 else u32 c.b 0) * 1000000
    (d.onCtl fun x => { x with txns := mapSet x.txns n { session := c.session, idleNs := idle, idleDeadline := d.now + idle } },
      some (.ok (le 4 n ++ le 4 65536)))

/-- Changes an open transaction. -/
def onTxn (n : Nat) (f : Txn → Txn) (d : Dev) : Dev :=
  d.onCtl fun x => { x with txns := match mapGet x.txns n with
    | some t => mapSet x.txns n (f t)
    | none => x.txns }

/-- The idle timer of a transaction whose commit is at hand stands still (R110). -/
abbrev noDeadline : Nat := 2 ^ 80

/-- TXN_COMMIT (R97, R98). -/
def commitTxn (c : Ctx) (d : Dev) : Dev × Option Rsp :=
  let n := u32 c.b 0
  match openTxn d c.session n with
  | none => (d, some (commitRefusal false [] none (unknownTxn d c.session n)))
  | some t =>
    let flags := u16 c.b 6
    let want : Option Nat := if bit flags 1 then some (u64 c.b 8) else none
    let q : CommitRequest := { txn := n, cmds := t.staged, bytes := t.bytes, versions := t.versions, owned := t.owned, anchor := u16 c.b 4, split := bit flags 0, want, ctx := c }
    match tryCommit false q (onTxn n (fun t => { t with idleDeadline := noDeadline }) d) with
    | (d, none) => (d, none)
    | (d, some r) =>
      if r.good then (d, some r)
      else (onTxn n (fun t => { t with idleDeadline := d.now + t.idleNs, lastStatus := r.status, lastDetail := r.detail }) d, some r)

/-- TXN_COMMIT. -/
def specTxnCommit : CmdSpec where
  op := 0x0101
  length := fixed 16
  ranges := fun _ b => [chk 4 (objOk (u16 b 4)), flagBits b 6 2 2]
  act := commitTxn

/-- A commit of a session that is in progress. -/
def commitInProgress (d : Dev) (session n : Nat) : Option Commit :=
  d.ctl.commits.find? fun c => c.txn = n && sessionIndex c.session = session

/-- TXN_ABORT (R110). -/
def specTxnAbort : CmdSpec where
  op := 0x0102
  length := fixed 4
  act := fun c d =>
    let n := u32 c.b 0
    if (openTxn d c.session n).isSome then (abortTxn n none d, some .ok)
    else if (commitInProgress d c.session n).isSome then (d, some (.busy 3))
    else (d, some (unknownTxn d c.session n))

/-- The state codes of Table 4.7. -/
def TxnState.code : TxnState → Nat
  | .opened => 0
  | .committing => 1
  | .applied => 2
  | .failed => 3
  | .aborted => 4

/-- The reply of TXN_STATUS (Table 4.7). -/
def ClosedTxn.report (t : ClosedTxn) : List Byte :=
  le 1 t.state.code ++ le 1 0 ++ le 2 t.staged ++ le 4 t.bytes ++ le 4 t.epoch ++ le 8 t.effective ++ le 2 t.status ++ le 2 t.detail

/-- What TXN_STATUS knows of a transaction (R107). -/
def txnReport (d : Dev) (session n : Nat) : Option ClosedTxn := match openTxn d session n with
  | some t => some { id := n, state := .opened, staged := t.staged.length, bytes := t.bytes, status := t.lastStatus, detail := t.lastDetail }
  | none => match commitInProgress d session n with
    | some c => some { id := n, state := .committing, staged := c.staged, bytes := c.bytes, epoch := c.epoch, effective := c.effective.getD 0 }
    | none => (mapGet d.ctl.sessions session).bind fun s => s.closed.find? fun t => t.id = n

/-- TXN_STATUS. -/
def specTxnStatus : CmdSpec where
  op := 0x0103
  length := fixed 4
  act := fun c d => (d, some (match txnReport d c.session (u32 c.b 0) with
    | some t => .ok t.report
    | none => unknownTxn d c.session (u32 c.b 0)))

/-- TXN_EPOCH_QUERY (R109, Table 4.7). An epoch that is not kept is out of range. -/
def specTxnEpochQuery : CmdSpec where
  op := 0x0104
  length := fixed 4
  ranges := fun d b => [chk 0 (d.ctl.epochs.any fun e => e.epoch = u32 b 0)]
  act := fun c d => match d.ctl.epochs.find? fun e => e.epoch = u32 c.b 0 with
    | some e => (d, some (.ok (le 1 e.state.code ++ le 1 0 ++ le 2 e.anchor ++ le 4 e.txn ++ le 8 e.effective
        ++ fullTimeBytes { seconds := e.sofSeconds, ns := e.sofNs } ++ le 2 e.parts.length ++ e.parts.flatMap fun p => le 2 (keyObj p.1) ++ le 8 p.2)))
    | none => (d, some (.range 0))

/-! ## The index of commands (Table 3.13) -/

/-- Areas 0x00 and 0x01. -/
def controlSpecs : List CmdSpec :=
  [specOpenSession, specCloseSession, specKeepalive, specObjClaim, specObjRelease, specObjQueryOwner, specSessionList, specQueryDevice,
   specTxnBegin, specTxnCommit, specTxnAbort, specTxnStatus, specTxnEpochQuery]

/-- Every command of Table 3.13. -/
def commandSpecs : List CmdSpec := controlSpecs ++ engineSpecs ++ faultSpecs ++ eventSpecs ++ bootSpecs

/-- The command of an opcode. -/
def commandSpec (op : Nat) : Option CmdSpec := commandSpecs.find? fun s => s.op = op

end Sys2Proof.Machine
end

