-- ==== Sys2Proof/Machine/Intake.lean ====
section
/-! DEFINITION. How packets reach the controller and how it answers: the acceptance order (R54, Table 3.2), sequence windows (R57 to R60),
replies on the three transports (R53, R76, R79, R82), intake in round-robin (R61), and fail-over (R506 to R509). -/

namespace Sys2Proof.Machine

/-! ## Replies -/

/-- Slots of a ring (Table 3.9). -/
def Ring.slots (r : Ring) : Nat := 2 ^ bits r.size.toNat 3 0

/-- A ring that is enabled and not stopped. -/
def Ring.runs (r : Ring) : Bool := bit r.ctrl.toNat 0 && !bit r.status.toNat 0

/-- The reply ring has a free slot. -/
def Ring.replyRoom (r : Ring) : Bool := (r.cqTail.toNat + 1) % r.slots ≠ r.cqHead.toNat

/-- Bytes of a ring slot (R76). -/
abbrev slotBytes : Nat := 4160

/-- A reply is written into the slot at CQ_TAIL of a ring (R76). -/
def writeReply (i : Nat) (bytes : List Byte) (d : Dev) : Dev :=
  let x := d.ring i
  let base := x.cqBaseHi.toNat * 2 ^ 32 + x.cqBaseLo.toNat
  let d := hostWrite (base + slotBytes * x.cqTail.toNat) bytes d
  setInt i (d.onRing i fun x => { x with cqTail := BitVec.ofNat 32 ((x.cqTail.toNat + 1) % x.slots) })

/-- A reply for which there is no place in its ring or in the SPI target's queue of 8 waits (R76, R83). -/
def putReply (e : Endpoint) (toAddr toPort : Nat) (bytes : List Byte) (d : Dev) : Dev := match e with
  | .ring i =>
    if !(d.ring i).runs then d
    else if (d.ring i).replyRoom then writeReply i bytes d
    else d.onRing i fun x => { x with waiting := x.waiting ++ [bytes] }
  | .udp p a u => d.onUdp fun x => { x with sent := x.sent ++ [.reply p a u toAddr toPort bytes] }
  | .spi =>
    if d.spi.replies.length < 8 then d.onSpi fun x => { x with replies := x.replies ++ [bytes] }
    else d.onSpi fun x => { x with waiting := x.waiting ++ [bytes] }

/-- Replies that waited take the slots that have come free on a ring. -/
def flushRing (i : Fin 16) (d : Dev) : Dev :=
  let l := (d.ring i).waiting
  l.foldl (fun d b => putReply (.ring i) 0 0 b d) (d.onRing i fun x => { x with waiting := [] })

/-- A reply that waited takes the place that has come free in the SPI target's queue. -/
def flushSpi (d : Dev) : Dev :=
  let l := d.spi.waiting
  l.foldl (fun d b => putReply .spi 0 0 b d) (d.onSpi fun x => { x with waiting := [] })

/-- A reply leaves on the endpoint that its request came from, by UDP from the address and port that received it (R65, R79). -/
def sendReply (p : Packet) (r : Reply) (d : Dev) : Dev := putReply p.endpoint p.toAddr p.toPort r.bytes d

/-- The answer to a request, in a reply that repeats its opcode, session, sequence and transaction (R53). -/
def replyTo (q : Request) (r : Rsp) (d : Dev) : Reply :=
  { op := q.op, flags := replyFlags d q.pkt.session, session := q.pkt.session, seq := q.pkt.seq, txn := q.pkt.txn
    status := r.status, detail := r.detail, params := r.params }

/-- The answer is sent, unless QUIET suppresses an OK or DONE_DEFERRED (R51). -/
def answer (q : Request) (r : Rsp) (d : Dev) : Dev :=
  if quiet q.pkt.flags && (r.status = 0 || r.status = 1) then d else sendReply q.pkt (replyTo q r d) d

/-- A reply is kept for duplicates (R58). -/
def recordReply (i seq : Nat) (r : Rsp) (d : Dev) : Dev :=
  d.onCtl fun x => { x with sessions := match mapGet x.sessions i with
    | some s => mapSet x.sessions i { s with recs := (indexed s.recs).map fun e =>
        if e.2.seq = seq && !e.2.done then
          { e.2 with done := true, status := r.status, detail := r.detail, cached := if e.1 < 64 then some r.params else none }
        else e.2 }
    | none => x.sessions }

/-- The reply of an accepted request: kept, and sent. A command that a fail-over executed again answers FAILOVER_REPLAY (R507). -/
def finish (q : Request) (replay : Bool) (r : Rsp) (d : Dev) : Dev :=
  let shown : Rsp := if replay then { status := 0x0702, detail := r.status, params := r.params } else r
  let mine : Bool := sessionOpen d q.pkt.session
  let d := if mine then recordReply (sessionIndex q.pkt.session) q.pkt.seq shown d else d
  let pend : PendingCmd := { session := q.pkt.session, seq := q.pkt.seq, op := q.op }
  let d := if r.status = 2 then d.onCtl fun x => { x with pendingCmds := x.pendingCmds ++ [pend] } else d
  answer q shown d

/-! ## Carrying out -/

/-- The context of a request: its instant is that of its intake. -/
def contextOf (_ : Dev) (q : Request) : Ctx :=
  { session := sessionIndex q.pkt.session, sid := q.pkt.session, op := q.op, seq := q.pkt.seq, txn := q.pkt.txn, b := packetBody q.pkt
    endpoint := q.pkt.endpoint, time := q.pkt.time, flags := q.pkt.flags, listFailed := q.pkt.listFailed }

/-- STREAM_ADMIT with DRY_RUN (R45, R574): what an admission of the stream, with the requests staged in a transaction, would answer. -/
def dryRun (c : Ctx) (d : Dev) : Rsp :=
  let base := baseDev d
  let staged := match mapGet d.ctl.txns c.txn with
    | some t => t.staged
    | none => []
  let trial := admitSettle c (staged.foldl (settleStaged c.sid c.txn) base)
  match admitTest base trial (bit (u16 c.b 2) 1) .query with
  | .refuse r => r
  | .step v => .ok (le 2 v ++ le 2 0 ++ (utilisation trial (loadOf trial) v).flatMap (le 2))

/-- A command's objects are its sender's from here on, and their versions move (R73, R92). -/
def claimTargets (i : Nat) (sp : CmdSpec) (keys : List Nat) (d : Dev) : Dev :=
  let d := keys.foldl (fun d k => claimFirst i k d) d
  if sp.bumps then keys.foldl (fun d k => bumpVersion k d) d else d

/-- An immediate command meets the present state (step 14) and acts; the answer is none while VCORE rises or a fail-over is due. -/
def carryImmediate (c : Ctx) (sp : CmdSpec) (d : Dev) : Dev × Option Rsp :=
  match stateRefusal d c sp with
  | some r => (d, some r)
  | none =>
    let go := fun (d : Dev) =>
      let keys := sp.targets d c.b
      match sp.act c d with
      | (d', some r) => (if r.good then syncPool (claimTargets c.session sp keys d') else d', some r)
      | (d', none) => (d', none)
    if sp.raises then
      let base := baseDev d
      let trial := sp.settle c base
      if !depthsOk base trial then (d, some (.combination 0x11))
      else match admitTest base trial false .change with
        | .refuse r => (d, some r)
        | .step v =>
          if v > d.fabric.admStep then (startRaise c v d, none)
          else go (settleAdmission .change base trial d)
    else go d

/-- A request from step 14 on. -/
def carryOut (c : Ctx) (sp : CmdSpec) (d : Dev) : Dev × Option Rsp :=
  if c.op = 0x0201 && bit (u16 c.b 2) 0 then (d, some (dryRun c d))
  else if sp.stageable c.b then
    if c.txn = 0 then commitOne c sp d
    else
      let (d, r) := stageCmd c sp d
      (d, some r)
  else carryImmediate c sp d

/-- Step 10 of Table 3.2: reserved header bits, then the transaction. -/
def headerRefusal (d : Dev) (c : Ctx) (q : Request) (sp : CmdSpec) : Option Rsp :=
  if q.pkt.flags ≥ 4 then some (.range 0x8003)
  else if q.pkt.reserved ≠ 0 then some (.range 0x8012)
  else if c.txn = 0 then none
  else if q.pkt.session = noSession then some (.txnUnknown 0)
  else if (openTxn d c.session c.txn).isNone then some (unknownTxn d c.session c.txn)
  else if sp.stageable c.b || (c.op = 0x0201 && c.b.length = 16) then none
  else some (.combination 0x800C)

/-- Steps 9 to 13 of Table 3.2. -/
def refusal (d : Dev) (c : Ctx) (q : Request) (sp : CmdSpec) : Option Rsp :=
  match sp.length c.b with
  | none => some (.badLength 0xFFFF)
  | some n =>
    if n ≠ c.b.length then some (.badLength (if n > 4080 then 0xFFFF else n))
    else (headerRefusal d c q sp).orElse fun _ => ((firstBad (sp.ranges d c.b)).map Rsp.range).orElse fun _ =>
      (sp.combos d c).orElse fun _ => ownerRefusal d c.session (sp.targets d c.b) sp.device

/-- A request from step 8 on, with its reply. -/
def executeNow (q : Request) (replay : Bool) (d : Dev) : Dev :=
  let c := contextOf d q
  match commandSpec q.op with
  | none => finish q replay { status := 0x0103 } d
  | some sp => match refusal d c q sp with
    | some r => finish q replay r d
    | none => match carryOut c sp d with
      | (d, some r) => finish q replay r d
      | (d, none) => d

/-- The reels on which a request starts a recording: REEL_RECORD_START itself, or a commit that applies it. -/
def startsOn (d : Dev) (q : Request) : List Nat :=
  let b := packetBody q.pkt
  if q.op = 0x1005 && q.pkt.txn = 0 then [objIndex (u16 b 0)]
  else if q.op = 0x0101 then match mapGet d.ctl.txns (u32 b 0) with
    | some t => (t.staged.filter fun c => c.op = 0x1005).map fun c => objIndex (u16 c.params 0)
    | none => []
  else []

/-- A request from step 8 on. One that starts a recording first waits until every host write to the reel fetched before is durable (R486);
nothing else is taken meanwhile. -/
def execute (q : Request) (replay : Bool) (d : Dev) : Dev :=
  let reels := startsOn d q
  let writes := d.nvme.staged.filter fun w => w.nsid ∈ reels
  if writes.isEmpty then executeNow q replay d
  else d.onMag fun m => { m with startWait := some (q, replay, writes.map (·.order)) }

/-! ## Steps 1 to 7 -/

/-- RFC 1982 distance of a sequence number from h, from −2^31 to 2^31 − 1 (R57). -/
def seqDistance (seq h : Nat) : Int :=
  let x : Nat := (seq + 2 ^ 32 - h % 2 ^ 32) % 2 ^ 32
  if x < 2 ^ 31 then (x : Int) else (x : Int) - 2 ^ 32

/-- A session after accepting a sequence number: h, and the numbers it still remembers. Only the last 64 keep their replies. -/
def acceptSeq (seq : Nat) (s : Session) : Session :=
  let h := if seqDistance seq s.h > 0 then seq else s.h
  let old := s.recs.filter fun r => seqDistance r.seq h > -1024
  let all := { seq } :: old
  { s with h, recs := (indexed all).map fun e => if e.1 < 64 then e.2 else { e.2 with cached := none } }

/-- Step 6 and 7 for an open session, and then the command. -/
def acceptIn (i : Nat) (s : Session) (q : Request) (d : Dev) : Dev :=
  let seq := q.pkt.seq
  let dist := seqDistance seq s.h
  if dist > 1024 || dist ≤ -1024 then answer q { status := 0x0104, params := le 4 s.h } (count (sessionObj i) 2 1 d)
  else match s.recs.find? fun r => r.seq = seq with
    | some r =>
      let d := count (sessionObj i) 1 1 d
      if !r.done then d
      else answer q { status := 0x0105, detail := r.status
                      params := le 2 r.detail ++ le 2 (boolNat r.cached.isNone) ++ r.cached.getD [] } d
    | none =>
      if (s.recs.countP fun r => !r.done) ≥ 64 then answer q (.busy 1) d
      else
        let d := d.onCtl fun x => { x with sessions := mapSet x.sessions i (acceptSeq seq s) }
        execute q false (count (sessionObj i) 0 1 d)

/-- Step 5: a packet that names a session (R65, R68, R70). -/
def inSession (q : Request) (d : Dev) : Dev :=
  let id := q.pkt.session
  let i := sessionIndex id
  let gone := answer q { status := 0x0201 } d
  match mapGet d.ctl.sessions i with
  | some s =>
    if id ≠ sessionId i s.gen || s.endpoint ≠ q.pkt.endpoint then gone
    else if d.now > s.deadline then answer q { status := 0x0202 } (closeSession i 1 s.policy d)
    else
      let s := { s with deadline := d.now + s.leaseMs * 1000000 }
      acceptIn i s q (d.onCtl fun x => { x with sessions := mapSet x.sessions i s })
  | none => match mapGet d.ctl.tombs i with
    | some t =>
      if !entombed d i || id ≠ sessionId i t.gen || t.endpoint ≠ q.pkt.endpoint then gone
      else if q.op = 0x0002 then answer q .ok d
      else if t.byExpiry then answer q { status := 0x0202 } d
      else gone
    | none => gone

/-- A request with the instant of its intake. -/
def Request.at_ (t : Nat) (q : Request) : Request := { q with pkt := { q.pkt with time := t } }

/-- A packet is taken into intake (Table 3.2). -/
def intake (q0 : Request) (d : Dev) : Dev :=
  let q := q0.at_ d.now
  let p := q.pkt
  if p.len < 24 || p.magic ≠ 0xB7E5 then count 0 0 1 d
  else
    let d := if bit p.flags 1 then count 0 3 1 d else d
    if p.paramLength > 4080 || p.paramLength + 24 ≠ p.len then answer q (.badLength 0xFFFF) d
    else if p.crc ≠ packetCrc q.op p then answer q { status := 0x0101 } d
    else if p.version ≠ 1 then answer q { status := 0x0106, detail := 1 } d
    else if p.session ≠ noSession then inSession q d
    else if q.op = 0x0001 || q.op = 0x0010 then execute q false d
    else answer q { status := 0x0201 } d

/-! ## Taking packets (R61) -/

/-- The controller takes packets: it is ready, not paused, not fatal, and no admission waits for VCORE, no recording for host writes. -/
def takes (d : Dev) : Bool := d.boot.ready && !d.faults.paused && !fatal d && d.fabric.raise.isNone && d.mag.startWait.isNone

/-- A ring whose next request can be taken (R76). -/
def ringReady (r : Ring) : Bool := r.runs && r.replyRoom && !r.posted.isEmpty

/-- A ring stops with an error code (R77). -/
def stopRing (i code : Nat) (d : Dev) : Dev :=
  let d := d.onRing i fun r => { r with status := BitVec.ofNat 32 (1 + 256 * code) }
  setInt 18 (raise 0x0084 3 0 (le 1 i ++ le 1 code ++ le 2 (d.ring i).sqHead.toNat) d)

/-- An endpoint has a packet that can be taken. -/
def endpointReady (d : Dev) (e : Endpoint) : Bool := match e with
  | .ring i => ringReady (d.ring i)
  | .udp .. => d.udp.held.any fun q => q.pkt.endpoint = e
  | .spi => !d.spi.input.isEmpty && d.spi.replies.length < 8

/-- The next packet of an endpoint. -/
def takeFrom (e : Endpoint) (d : Dev) : Option (Request × Dev) := match e with
  | .ring i => match (d.ring i).posted with
    | q :: l => some (q, d.onRing i fun r => { r with posted := l, sqHead := BitVec.ofNat 32 ((r.sqHead.toNat + 1) % r.slots) })
    | [] => none
  | .udp .. => match d.udp.held.find? fun q => q.pkt.endpoint = e with
    | some q => some (q, d.onUdp fun u => { u with held := u.held.erase q })
    | none => none
  | .spi => match d.spi.input with
    | q :: l => some (q, d.onSpi fun s => { s with input := l })
    | [] => none

/-- An endpoint that was served goes behind the others; a UDP endpoint with nothing left leaves (R61). -/
def turnOver (e : Endpoint) (d : Dev) : Dev :=
  let stays : Bool := match e with
    | .udp .. => d.udp.held.any fun q => q.pkt.endpoint = e
    | _ => true
  d.onCtl fun x => { x with turns := x.turns.erase e ++ (if stays then [e] else []) }

/-- The slot of the packet that a ring offers next cannot be read from host memory. -/
def slotFails (d : Dev) (e : Endpoint) : Option Nat := match e with
  | .ring i => if (d.ring i).posted.head?.any (·.pkt.hostFailed) then some i else none
  | _ => none

/-- Packets are taken, one at a time in round-robin over the endpoints, while the controller can; a ring whose slot cannot be read
stops (R61, R77). -/
def drain : Nat → Dev → Dev
  | 0, d => d
  | fuel + 1, d =>
    if !takes d then d
    else match d.ctl.turns.find? (endpointReady d) with
      | none => d
      | some e => match slotFails d e with
        | some i => drain fuel (stopRing i 2 d)
        | none => match takeFrom e d with
          | none => d
          | some (q, d) => drain fuel (intake q (turnOver e d))

/-- All packets that wait. -/
def waitingPackets (d : Dev) : Nat := sumOf (fun r => r.posted.length) d.bar0.rings + d.udp.held.length + d.spi.input.length

/-- Every packet that can be taken is. -/
def drainAll (d : Dev) : Dev := drain (waitingPackets d) d

/-! ## VCORE answers (R25) -/

/-- The step of a waiting admission is confirmed: it becomes the admission step, and the request goes on. -/
def raiseConfirmed (vout : Nat) (speeds : List Nat) (d : Dev) : Dev := match d.fabric.raise with
  | none => stepConfirmed vout speeds d
  | some x =>
    if !confirms x.commanded x.step vout speeds then d
    else
      let d := d.onFabric fun f => { f with admStep := x.step, raise := none, vout, extraGoodSince := none }
      drainAll (execute x.request x.replay d)

/-- VCORE_CONFIRMED. -/
def execVcoreConfirmed (time vout : Nat) (speeds : List Nat) (s : State) : Host.Outcome State Fault Refusal :=
  after time (fun d => if firmwareRuns d then raiseConfirmed vout speeds d else d) s

/-- The transaction of a refused TXN_COMMIT stays open, its timer running again (R110). -/
def reopenTxn (q : Request) (r : Rsp) (d : Dev) : Dev :=
  if q.op = 0x0101 then onTxn (u32 (packetBody q.pkt) 0) (fun t => { t with idleDeadline := d.now + t.idleNs, lastStatus := r.status, lastDetail := r.detail }) d
  else d

/-- The step was not confirmed within 5 ms: the previous one is commanded again and the admission refused (R25, R46). -/
def raiseTimedOut (d : Dev) : Dev := match d.fabric.raise with
  | none => stepReverted d
  | some x =>
    if d.now < x.started + 5000000 then d
    else
      let kept := d.fabric.admStep
      let back := if d.fabric.extra then min 900 (kept + 10) else kept
      let d := (commandStep back 0 d).onFabric fun f => { f with raise := none }
      let r := (denial 11 4 x.step 0 x.step kept).rsp
      let r := if x.request.op = 0x0101 then commitRefusal false [] none r else r
      drainAll (finish x.request x.replay r (reopenTxn x.request r d))

/-- VCORE_CONFIRM_TIMEOUT. -/
def execVcoreConfirmTimeout (time : Nat) (s : State) : Host.Outcome State Fault Refusal :=
  after time (fun d => if firmwareRuns d then raiseTimedOut d else d) s

/-! ## Fail-over (R506 to R509) -/

/-- Every group that is not confirmed is written again from its first write while its window is open; a commit with a group whose window
closed fails (R111). -/
def rewriteGroups (d : Dev) : Dev :=
  d.ctl.commits.foldl (fun d c0 => match commitOf d c0.txn with
    | none => d
    | some c =>
      let late := c.groups.find? fun g => g.confirmed < g.writes.length && (match timedStream d g.furrow, groupDesc d g.furrow g.group, g.closeFrame with
        | some n, some x, some f => (timelineNow d (.stream n) : Int) > windowClose d n x f
        | _, _, _ => false)
      match late with
      | some g => failCommit c.txn (3 * 256 + g.group) d
      | none => onCommit c.txn (fun c => { c with groups := c.groups.map fun g =>
          if g.confirmed < g.writes.length && windowOpen d c g then (d.beginWrites g).rewritten else g }) d) d

/-- Every lease, idle time-out and wait moves later by the pause (R71, Table 22.3 step 7). -/
def shiftDeadlines (ns : Nat) (d : Dev) : Dev :=
  let d := d.onCtl fun x => { x with sessions := x.sessions.map fun e => (e.1, { e.2 with deadline := e.2.deadline + ns })
                                     txns := x.txns.map fun e => (e.1, { e.2 with idleDeadline := e.2.idleDeadline + ns }) }
  let d := d.onMag fun m => { m with startWait := m.startWait.map fun w => (w.1, true, w.2.2) }
  d.onFabric fun f => { f with raise := f.raise.map fun r => { r with started := r.started + ns, replay := true } }

/-- A firmware update that a fail-over interrupts ends, its slot unbootable (R548). -/
def dropUpdate (d : Dev) : Dev := match d.boot.update with
  | none => d
  | some u =>
    let d := d.onBoot fun b => { b with update := none }
    ((u.erasing.toList) ++ u.checking.toList).foldl (fun d p => completeCmd p { status := 0x0701 } d) d

/-- Control passes to the standby complex: what Table 22.3 leaves when intake resumes, `pauseUs` after the fault. -/
def failover (trigger pauseUs : Nat) (d : Dev) : Dev :=
  if fatal d || !d.boot.ready then d
  else if d.faults.standby ≠ .ready then goFatal 1 d
  else
    let d := pauseControl d
    let groups := d.faults.groups
    let fifo := d.faults.yokeFifo
    let redone := boolNat d.fabric.raise.isSome + boolNat d.mag.startWait.isSome
    let d := d.onFaults fun f =>
      { f with activeB := !f.activeB, standby := .failed, failovers := (f.failovers + 1) % 2 ^ 32, lastTrigger := trigger, lastPauseUs := pauseUs
               replayed := min 65535 (f.replayed + groups.length + redone), groups := [], yokeFifo := [], paused := false
               lockstepMismatches := if trigger = 1 then min (2 ^ 32 - 1) (f.lockstepMismatches + 1) else f.lockstepMismatches }
    let d := runHeld (dropUpdate (rewriteGroups (shiftDeadlines (pauseUs * 1000) d)))
    let d := setDevStatus 1 d.faults.activeB (setDevStatus 2 false d)
    let d := groups.foldl (fun d g => match g.reply with
      | some r => finish g.request true { status := r.status, detail := r.detail, params := r.params } d
      | none => execute g.request true d) d
    let d := fifo.foldl (fun d r => storeEvent r d) d
    let d := raise 0x1180 3 0 (le 1 trigger ++ le 1 (activeComplex d) ++ le 2 0 ++ le 4 pauseUs ++ le 2 groups.length ++ le 2 redone) d
    drainAll d

/-- FAILOVER: a trigger of Table 22.2 moves control, and intake has resumed at this instant. -/
def execFailover (time trigger pauseUs : Nat) (s : State) : Host.Outcome State Fault Refusal := after time (failover trigger pauseUs) s

/-! ## Leases -/

/-- The 1 ms test of a lease (R68). During a pause it waits (R508), and so it does while the session's own admission rises. -/
def leaseExpiry (i : Nat) (d : Dev) : Dev := match mapGet d.ctl.sessions i with
  | none => d
  | some s =>
    let busy : Bool := (d.fabric.raise.any fun r => r.session = i) || d.mag.startWait.any fun w => sessionIndex w.1.pkt.session = i
    if d.now > s.deadline && firmwareRuns d && !busy then drainAll (closeSession i 1 s.policy d) else d

/-- LEASE_EXPIRY. -/
def execLeaseExpiry (time index : Nat) (s : State) : Host.Outcome State Fault Refusal := after time (leaseExpiry index) s

/-- TOMBSTONE_EXPIRY (R70). -/
def execTombstoneExpiry (time index : Nat) (s : State) : Host.Outcome State Fault Refusal :=
  after time (fun d => if entombed d index then d else d.onCtl fun x => { x with tombs := mapDel x.tombs index }) s

end Sys2Proof.Machine
end

