-- ==== Sys2Proof/Machine/Transports.lean ====
section
/-! DEFINITION. The three transports (R75 to R83): BAR0 and its rings, UDP with reassembly and filter, the SPI target, and a packet's arrival
on each. -/

namespace Sys2Proof.Machine

/-! ## Rings -/

/-- The request in a slot of host memory (R76, Table 3.1). -/
def slotRequest (bs : List Byte) : Request :=
  let n := u16 bs 16
  { op := u16 bs 4
    pkt := { len := if n + 24 ≤ slotBytes then n + 24 else slotBytes, magic := u16 bs 0, version := u8 bs 2, flags := u8 bs 3, session := u16 bs 6
             seq := u32 bs 8, txn := u32 bs 12, paramLength := n, reserved := u16 bs 18, crc := u32 bs 20, params := (bs.drop 24).take n } }

/-- The request in slot `k` of a ring. -/
def readSlot (d : Dev) (i : Fin 16) (k : Nat) : Request :=
  let r := d.ring i
  let base := r.sqBaseHi.toNat * 2 ^ 32 + r.sqBaseLo.toNat
  let q := slotRequest (memRead d.pails.hostMem (base + slotBytes * k) slotBytes)
  { q with pkt := { q.pkt with time := d.now, endpoint := .ring i } }

/-- The requests that stand in a ring from SQ_HEAD up to a tail (R76): a ring is empty when the two are equal. Those that are known already
stay; further slots are read. -/
def postedUpTo (i : Fin 16) (v : Nat) (d : Dev) : List Request :=
  let r := d.ring i
  let head := r.sqHead.toNat
  let n := (v + r.slots - head) % r.slots
  let have' := r.posted.length
  r.posted.take n ++ (List.range (n - have')).map fun j => readSlot d i ((head + have' + j) % r.slots)

/-- The host writes SQ_TAIL (R75, R76); a value outside a ring that runs stops it (R77). -/
def sqTail (i : Fin 16) (v : Nat) (d : Dev) : Dev :=
  let r := d.ring i
  let set := fun (f : Ring → Ring) => d.onRing i fun r => f { r with sqTail := BitVec.ofNat 32 v }
  if !r.runs then set id
  else if v ≥ r.slots then stopRing i 1 (set id)
  else drainAll (set fun r => { r with posted := postedUpTo i v d })

/-- The host writes CQ_HEAD (R75, R76): replies that waited take the free slots. -/
def cqHead (i : Fin 16) (v : Nat) (d : Dev) : Dev :=
  let r := d.ring i
  let moved := d.onRing i fun r => { r with cqHead := BitVec.ofNat 32 v }
  if !r.runs then moved
  else if v ≥ r.slots then stopRing i 1 moved
  else drainAll (flushRing i moved)

/-- RING_CTRL (Table 3.9, R77): setting ENABLE resets the pointers and checks the bases and the size. -/
def ringCtrl (i v : Nat) (d : Dev) : Dev :=
  let r := d.ring i
  let on := bit v 0
  let was := bit r.ctrl.toNat 0
  let d := d.onRing i fun r => { r with ctrl := BitVec.ofNat 32 (boolNat on) }
  if on && !was then
    let d := d.onRing i fun r => { r with sqTail := 0, sqHead := 0, cqTail := 0, cqHead := 0, status := 0, posted := [], waiting := [] }
    let ok := within (bits r.size.toNat 3 0) 2 10 && r.sqBaseLo.toNat % 4096 = 0 && r.cqBaseLo.toNat % 4096 = 0
    if ok then d else stopRing i 3 d
  else d

/-! ## BAR0 (Table 3.8) -/

/-- BAR0 answers: PCIe gives CRS until command-ready (R546). -/
def bar0Answers (d : Dev) : Bool := d.boot.ready || fatal d

/-- INT_STATUS is write-one-to-clear. -/
def intStatus (v : Nat) (d : Dev) : Dev := d.onBar0 fun b => { b with intStatus := b.intStatus &&& ~~~ (BitVec.ofNat 32 v) }

/-- EV_HEAD moves; copying goes on (R529). -/
def evHead (v : Nat) (d : Dev) : Dev := ringCopy (d.onBar0 fun b => { b with evHead := BitVec.ofNat 32 v })

/-- An MSI-X table word is written; an entry that is no longer masked sends what was pending (R78). -/
def msixWrite (off v : Nat) (d : Dev) : Dev :=
  let d := d.onBar0 fun b => { b with msixTable := mapSet b.msixTable off (BitVec.ofNat 32 v) }
  let k := off / 16
  if off % 16 = 12 && !bit v 0 && k ∈ d.bar0.msixPending then
    sendMsix k (d.onBar0 fun b => { b with msixPending := b.msixPending.filter fun x => x ≠ k })
  else d

/-- A word of a ring block is written. Bases and size hold while ENABLE is 1. -/
def ringWrite (i : Fin 16) (off v : Nat) (d : Dev) : Dev :=
  let held := bit (d.ring i).ctrl.toNat 0
  let w : Reg := BitVec.ofNat 32 v
  let set := fun (f : Ring → Ring) => if held then d else d.onRing i f
  match off with
  | 0x00 => set fun r => { r with sqBaseLo := w }
  | 0x04 => set fun r => { r with sqBaseHi := w }
  | 0x08 => set fun r => { r with cqBaseLo := w }
  | 0x0C => set fun r => { r with cqBaseHi := w }
  | 0x10 => set fun r => { r with size := BitVec.ofNat 32 (v % 16) }
  | 0x14 => ringCtrl i v d
  | 0x18 => sqTail i v d
  | 0x24 => cqHead i v d
  | _ => d

/-- A 32-bit word of BAR0 is written. Read-only and unlisted offsets ignore it. -/
def bar0Write (off v : Nat) (d : Dev) : Dev :=
  let w : Reg := BitVec.ofNat 32 v
  if 0x8000 ≤ off ∧ off < 0x8130 then msixWrite (off - 0x8000) v d
  else if 0x1000 ≤ off ∧ off < 0x1400 then ringWrite (Fin.ofNat 16 ((off - 0x1000) / 64)) ((off - 0x1000) % 64) v d
  else match off with
    | 0x10 => intStatus v d
    | 0x14 => d.onBar0 fun b => { b with intMask := w }
    | 0x20 => d.onBar0 fun b => { b with evBaseLo := w }
    | 0x24 => d.onBar0 fun b => { b with evBaseHi := w }
    | 0x28 => d.onBar0 fun b => { b with evSize := BitVec.ofNat 32 (v % 32) }
    | 0x30 => evHead v d
    | _ => d

/-- A word of a ring block as a read shows it. -/
def ringRead (r : Ring) (off : Nat) : Reg := match off with
  | 0x00 => r.sqBaseLo
  | 0x04 => r.sqBaseHi
  | 0x08 => r.cqBaseLo
  | 0x0C => r.cqBaseHi
  | 0x10 => r.size
  | 0x14 => r.ctrl
  | 0x18 => r.sqTail
  | 0x1C => r.sqHead
  | 0x20 => r.cqTail
  | 0x24 => r.cqHead
  | 0x28 => r.status
  | _ => 0

/-- A 32-bit word of BAR0 as a read shows it. -/
def bar0Read (d : Dev) (off : Nat) : Reg :=
  let b := d.bar0
  if 0x8000 ≤ off ∧ off < 0x8130 then (mapGet b.msixTable (off - 0x8000)).getD (if off % 16 = 12 then 1 else 0)
  else if 0x9000 ≤ off ∧ off < 0x9008 then BitVec.ofNat 32 (sumOf (fun v => if v / 32 = (off - 0x9000) / 4 then 2 ^ (v % 32) else 0) b.msixPending)
  else if 0x1000 ≤ off ∧ off < 0x1400 then ringRead (tabGet b.rings ((off - 0x1000) / 64)) ((off - 0x1000) % 64)
  else match off with
    | 0x00 => 0x918000A1
    | 0x04 => b.devStatus
    | 0x08 => 0x10
    | 0x10 => b.intStatus
    | 0x14 => b.intMask
    | 0x20 => b.evBaseLo
    | 0x24 => b.evBaseHi
    | 0x28 => b.evSize
    | 0x2C => b.evTail
    | 0x30 => b.evHead
    | _ => 0

/-- What the host does in BAR0 takes effect once it answers. -/
def onHostAccess (f : Dev → Dev) (d : Dev) : Dev := if bar0Answers d then f d else d

/-- INT_STATUS_WRITE. -/
def execIntStatusWrite (time value : Nat) (s : State) : Host.Outcome State Fault Refusal := always time (onHostAccess (intStatus value)) s
/-- RING_CTRL_WRITE. -/
def execRingCtrlWrite (time : Nat) (ring : Fin 16) (value : Nat) (s : State) : Host.Outcome State Fault Refusal :=
  always time (onHostAccess (ringCtrl ring value)) s
/-- CQ_HEAD_WRITE. -/
def execCqHeadWrite (time : Nat) (ring : Fin 16) (value : Nat) (s : State) : Host.Outcome State Fault Refusal :=
  always time (onHostAccess (cqHead ring value)) s
/-- SQ_TAIL_WRITE. -/
def execSqTailWrite (time : Nat) (ring : Fin 16) (value : Nat) (s : State) : Host.Outcome State Fault Refusal :=
  always time (onHostAccess (sqTail ring value)) s
/-- EV_HEAD_WRITE. -/
def execEvHeadWrite (time value : Nat) (s : State) : Host.Outcome State Fault Refusal := always time (onHostAccess (evHead value)) s
/-- BAR0_REGISTER_WRITE. -/
def execBar0RegisterWrite (time offset value : Nat) (s : State) : Host.Outcome State Fault Refusal :=
  always time (onHostAccess (bar0Write offset value)) s

/-! ## UDP (R79, R80, R360) -/

/-- A source address passes the filter: the leading bits of the 128-bit addresses agree. -/
def udpPasses (u : UdpTransport) (addr : Nat) : Bool :=
  let n := 128 - min 128 u.filterPrefix
  addr / 2 ^ n = u.filterAddr / 2 ^ n

/-- A datagram that is whole joins those that wait; 256 wait at most on a port (R508). -/
def holdDatagram (port : Nat) (q : Request) (d : Dev) : Dev :=
  let onPort := fun (x : Request) => match x.pkt.endpoint with
    | .udp p _ _ => (p : Nat) = port
    | _ => false
  if d.udp.held.countP onPort ≥ 256 then count 0 1 1 d
  else
    let e := q.pkt.endpoint
    (d.onUdp fun u => { u with held := u.held ++ [q] }).onCtl fun x => { x with turns := if e ∈ x.turns then x.turns else x.turns ++ [e] }

/-- Reassemblies without the oldest live one. -/
def dropOldest : List Reassembly → List Reassembly
  | [] => []
  | r :: l => if r.dead then r :: dropOldest l else l

/-- The reassembly that a fragment belongs to: one in progress, or a new one. A datagram of more than 4 fragments is discarded and counted once
for all its pieces; past 32 in progress the oldest is discarded (R80). -/
def reassemblyFor (port addr : Nat) (f : Fragment) (d : Dev) : Dev × Reassembly :=
  match d.udp.reassemblies.find? fun r => r.port = port && r.addr = addr && r.ident = f.ident with
  | some r => if f.total > 4 && !r.dead then (count 0 1 1 d, { r with dead := true }) else (d, r)
  | none =>
    let new : Reassembly := { port, addr, ident := f.ident, started := d.now }
    if f.total > 4 then (count 0 1 1 d, { new with dead := true })
    else if (d.udp.reassemblies.countP fun r => !r.dead) ≥ 32 then
      (count 0 1 1 (d.onUdp fun u => { u with reassemblies := dropOldest u.reassemblies }), new)
    else (d, new)

/-- A fragment joins its datagram (R80); true when the datagram is whole and was not discarded. -/
def reassemble (port addr : Nat) (f : Fragment) (d : Dev) : Bool × Dev :=
  let own := fun (r : Reassembly) => r.port = port && r.addr = addr && r.ident = f.ident
  let (d, cur) := reassemblyFor port addr f d
  let got := (f.index :: cur.fragments.filter fun i => i ≠ f.index)
  let rest := d.udp.reassemblies.filter fun r => !own r
  if (List.range f.total).all fun i => i ∈ got then (!cur.dead, d.onUdp fun u => { u with reassemblies := rest })
  else (false, d.onUdp fun u => { u with reassemblies := rest ++ [{ cur with fragments := got }] })

/-- A whole datagram to the transport's port: one whose checksum is not zero and fails is discarded (R79). -/
def takeDatagram (port : Fin 5) (q : Request) (d : Dev) : Dev :=
  if q.pkt.toPort ≠ d.udp.udpPort then d
  else if q.pkt.checksumBad then count 0 1 1 d
  else drainAll (holdDatagram port q d)

/-- A datagram, or a fragment of one, arrives. -/
def udpArrives (port : Fin 5) (addr : Nat) (q : Request) (d : Dev) : Dev :=
  if !bit d.udp.ports port then d
  else if !udpPasses d.udp addr then count 0 1 1 d
  else match q.pkt.frag with
    | none => takeDatagram port q d
    | some f => match reassemble port addr f d with
      | (true, d) => takeDatagram port q d
      | (false, d) => d

/-- FRAGMENT_REASSEMBLY_TIMEOUT: datagrams in reassembly for 20 ms are discarded and counted. -/
def dropReassemblies (d : Dev) : Dev :=
  let late := fun (r : Reassembly) => r.started + 20000000 ≤ d.now
  count 0 1 (d.udp.reassemblies.countP fun r => late r && !r.dead) (d.onUdp fun u => { u with reassemblies := u.reassemblies.filter fun r => !late r })

/-- FRAGMENT_REASSEMBLY_TIMEOUT. -/
def execFragmentReassemblyTimeout (time : Nat) (s : State) : Host.Outcome State Fault Refusal := after time dropReassemblies s

/-! ## The SPI target (R82, R83) -/

/-- A write to the SPI target is discarded. -/
def spiDiscard (d : Dev) : Dev := count 0 2 1 (d.onSpi fun s => { s with overrun := true })

/-- A WRITE_PACKET whose bytes form a packet. -/
def spiArrives (q : Request) (d : Dev) : Dev :=
  if d.spi.input.length ≥ 2 || q.pkt.len ≠ 24 + q.pkt.paramLength then spiDiscard d
  else drainAll (d.onSpi fun s => { s with input := s.input ++ [q] })

/-- WRITE_PACKET with the bytes that were clocked in. -/
def spiWrite (bs : List Byte) (d0 : Dev) : Dev :=
  let d := clockOut (List.replicate bs.length 0xFF) d0
  if !d.boot.ready then d
  else if bs.length < 24 then spiDiscard d
  else
    let q := slotRequest bs
    spiArrives { q with pkt := { q.pkt with len := bs.length, time := d.now, endpoint := .spi, params := bs.drop 24 } } d

/-- WRITE_PACKET. -/
def execWritePacket (time : Nat) (bytes : List Byte) (s : State) : Host.Outcome State Fault Refusal := always time (spiWrite bytes) s

/-- What READ_REPLY clocks out (Table 3.10): a dummy byte, the length, and `clocked` bytes of the reply, or undefined ones past its end. -/
def replyOut (d : Dev) (clocked : Nat) : List Byte :=
  let r := d.spi.replies.headD []
  [0xFF] ++ le 2 r.length ++ (r ++ List.replicate clocked 0xFF).take clocked

/-- READ_REPLY: the reply leaves once all its bytes were clocked; `clocked` counts the bytes after the length. -/
def readReply (clocked : Nat) (d0 : Dev) : Dev :=
  let d := clockOut (if d0.boot.ready then replyOut d0 clocked else List.replicate (3 + clocked) 0xFF) d0
  if !d.boot.ready then d
  else match d.spi.replies with
    | r :: l => if clocked ≥ r.length then drainAll (flushSpi (d.onSpi fun s => { s with replies := l })) else d
    | [] => d

/-- READ_REPLY. -/
def execReadReply (time clocked : Nat) (s : State) : Host.Outcome State Fault Refusal := always time (readReply clocked) s

/-- READ_STATUS clocks a dummy byte and `spiStatus` out, and clears OVERRUN. -/
def readStatus (d : Dev) : Dev :=
  if d.boot.ready then (clockOut [0xFF, byte (spiStatus d)] d).onSpi fun x => { x with overrun := false }
  else clockOut [0xFF, 0xFF] d

/-- READ_STATUS. -/
def execReadStatus (time : Nat) (s : State) : Host.Outcome State Fault Refusal := always time readStatus s

/-- SPI_CS_TIMEOUT: CS_N was held longer than 10 ms. -/
def execSpiCsTimeout (time : Nat) (s : State) : Host.Outcome State Fault Refusal :=
  always time (fun d => if d.boot.ready then spiDiscard d else d) s

/-! ## A packet arrives -/

/-- A request arrives on its endpoint. Until command-ready no transport carries packets (R543, R545, R546). On a ring the host has filled the
slot at SQ_TAIL and advanced the doorbell. -/
def arrive (op : Nat) (p : Packet) (d : Dev) : Dev :=
  let d := hostWrites p.host d
  let q : Request := { op, pkt := { p with host := [] } }
  if !d.boot.ready then d
  else match p.endpoint with
    | .ring i =>
      let r := d.ring i
      let next := (r.sqTail.toNat + 1) % r.slots
      if r.runs && next ≠ r.sqHead.toNat then
        drainAll (d.onRing i fun r => { r with sqTail := BitVec.ofNat 32 next, posted := r.posted ++ [q] })
      else d
    | .udp port addr _ => udpArrives port addr q d
    | .spi => spiArrives q d

/-- UNKNOWN_OPCODE_PACKET. -/
def execUnknownOpcodePacket (op : Nat) (p : Packet) (s : State) : Host.Outcome State Fault Refusal := always p.time (arrive op p) s

end Sys2Proof.Machine
end

