-- ==== Sys2Proof/Machine/Commands.lean ====
section
/-! DEFINITION. The commands of Table 3.13, one by one: each arrives as a packet with its opcode; what it does is its `CmdSpec`. -/

namespace Sys2Proof.Machine

/-- OPEN_SESSION. -/
def execOpenSession (p : Packet) (s : State) : Host.Outcome State Fault Refusal := always p.time (arrive 0x0001 p) s
/-- CLOSE_SESSION. -/
def execCloseSession (p : Packet) (s : State) : Host.Outcome State Fault Refusal := always p.time (arrive 0x0002 p) s
/-- KEEPALIVE. -/
def execKeepalive (p : Packet) (s : State) : Host.Outcome State Fault Refusal := always p.time (arrive 0x0003 p) s
/-- OBJ_CLAIM. -/
def execObjClaim (p : Packet) (s : State) : Host.Outcome State Fault Refusal := always p.time (arrive 0x0004 p) s
/-- OBJ_RELEASE. -/
def execObjRelease (p : Packet) (s : State) : Host.Outcome State Fault Refusal := always p.time (arrive 0x0005 p) s
/-- OBJ_QUERY_OWNER. -/
def execObjQueryOwner (p : Packet) (s : State) : Host.Outcome State Fault Refusal := always p.time (arrive 0x0006 p) s
/-- SESSION_LIST. -/
def execSessionList (p : Packet) (s : State) : Host.Outcome State Fault Refusal := always p.time (arrive 0x0007 p) s
/-- QUERY_DEVICE. -/
def execQueryDevice (p : Packet) (s : State) : Host.Outcome State Fault Refusal := always p.time (arrive 0x0010 p) s
/-- TXN_BEGIN. -/
def execTxnBegin (p : Packet) (s : State) : Host.Outcome State Fault Refusal := always p.time (arrive 0x0100 p) s
/-- TXN_COMMIT. -/
def execTxnCommit (p : Packet) (s : State) : Host.Outcome State Fault Refusal := always p.time (arrive 0x0101 p) s
/-- TXN_ABORT. -/
def execTxnAbort (p : Packet) (s : State) : Host.Outcome State Fault Refusal := always p.time (arrive 0x0102 p) s
/-- TXN_STATUS. -/
def execTxnStatus (p : Packet) (s : State) : Host.Outcome State Fault Refusal := always p.time (arrive 0x0103 p) s
/-- TXN_EPOCH_QUERY. -/
def execTxnEpochQuery (p : Packet) (s : State) : Host.Outcome State Fault Refusal := always p.time (arrive 0x0104 p) s
/-- STREAM_QUERY. -/
def execStreamQuery (p : Packet) (s : State) : Host.Outcome State Fault Refusal := always p.time (arrive 0x0200 p) s
/-- STREAM_ADMIT. -/
def execStreamAdmit (p : Packet) (s : State) : Host.Outcome State Fault Refusal := always p.time (arrive 0x0201 p) s
/-- STREAM_RELEASE. -/
def execStreamRelease (p : Packet) (s : State) : Host.Outcome State Fault Refusal := always p.time (arrive 0x0202 p) s
/-- ADMIT_QUERY. -/
def execAdmitQuery (p : Packet) (s : State) : Host.Outcome State Fault Refusal := always p.time (arrive 0x0203 p) s
/-- PACE_QUERY. -/
def execPaceQuery (p : Packet) (s : State) : Host.Outcome State Fault Refusal := always p.time (arrive 0x0204 p) s
/-- FURROW_CONFIG. -/
def execFurrowConfig (p : Packet) (s : State) : Host.Outcome State Fault Refusal := always p.time (arrive 0x0300 p) s
/-- FURROW_LANE_MAP. -/
def execFurrowLaneMap (p : Packet) (s : State) : Host.Outcome State Fault Refusal := always p.time (arrive 0x0301 p) s
/-- FURROW_SYNC_CODES. -/
def execFurrowSyncCodes (p : Packet) (s : State) : Host.Outcome State Fault Refusal := always p.time (arrive 0x0302 p) s
/-- FURROW_TRAIN. -/
def execFurrowTrain (p : Packet) (s : State) : Host.Outcome State Fault Refusal := always p.time (arrive 0x0303 p) s
/-- FURROW_GANG. -/
def execFurrowGang (p : Packet) (s : State) : Host.Outcome State Fault Refusal := always p.time (arrive 0x0304 p) s
/-- FURROW_STATUS. -/
def execFurrowStatus (p : Packet) (s : State) : Host.Outcome State Fault Refusal := always p.time (arrive 0x0305 p) s
/-- SENSOR_PROFILE_LOAD. -/
def execSensorProfileLoad (p : Packet) (s : State) : Host.Outcome State Fault Refusal := always p.time (arrive 0x0306 p) s
/-- SENSOR_REG_WRITE. -/
def execSensorRegWrite (p : Packet) (s : State) : Host.Outcome State Fault Refusal := always p.time (arrive 0x0307 p) s
/-- SENSOR_REG_READ. -/
def execSensorRegRead (p : Packet) (s : State) : Host.Outcome State Fault Refusal := always p.time (arrive 0x0308 p) s
/-- SENSOR_MCLK_SET. -/
def execSensorMclkSet (p : Packet) (s : State) : Host.Outcome State Fault Refusal := always p.time (arrive 0x0309 p) s
/-- SYNC_PIN_SET. -/
def execSyncPinSet (p : Packet) (s : State) : Host.Outcome State Fault Refusal := always p.time (arrive 0x030A p) s
/-- FURROW_START. -/
def execFurrowStart (p : Packet) (s : State) : Host.Outcome State Fault Refusal := always p.time (arrive 0x030B p) s
/-- FURROW_STOP. -/
def execFurrowStop (p : Packet) (s : State) : Host.Outcome State Fault Refusal := always p.time (arrive 0x030C p) s
/-- RAW_BLACK_SET. -/
def execRawBlackSet (p : Packet) (s : State) : Host.Outcome State Fault Refusal := always p.time (arrive 0x0400 p) s
/-- RAW_DEFECT_LOAD. -/
def execRawDefectLoad (p : Packet) (s : State) : Host.Outcome State Fault Refusal := always p.time (arrive 0x0401 p) s
/-- RAW_FPN_LOAD. -/
def execRawFpnLoad (p : Packet) (s : State) : Host.Outcome State Fault Refusal := always p.time (arrive 0x0402 p) s
/-- RAW_NOISE_MODEL_SET. -/
def execRawNoiseModelSet (p : Packet) (s : State) : Host.Outcome State Fault Refusal := always p.time (arrive 0x0403 p) s
/-- RAW_SNR_SET. -/
def execRawSnrSet (p : Packet) (s : State) : Host.Outcome State Fault Refusal := always p.time (arrive 0x0404 p) s
/-- RAW_TNR_SET. -/
def execRawTnrSet (p : Packet) (s : State) : Host.Outcome State Fault Refusal := always p.time (arrive 0x0405 p) s
/-- RAW_DUAL_GAIN_SET. -/
def execRawDualGainSet (p : Packet) (s : State) : Host.Outcome State Fault Refusal := always p.time (arrive 0x0406 p) s
/-- RAW_SHADING_LOAD. -/
def execRawShadingLoad (p : Packet) (s : State) : Host.Outcome State Fault Refusal := always p.time (arrive 0x0407 p) s
/-- RAW_WB_SET. -/
def execRawWbSet (p : Packet) (s : State) : Host.Outcome State Fault Refusal := always p.time (arrive 0x0408 p) s
/-- RAW_QUERY. -/
def execRawQuery (p : Packet) (s : State) : Host.Outcome State Fault Refusal := always p.time (arrive 0x0409 p) s
/-- DEMOSAIC_SET. -/
def execDemosaicSet (p : Packet) (s : State) : Host.Outcome State Fault Refusal := always p.time (arrive 0x0500 p) s
/-- COLOUR_SPACE_SET. -/
def execColourSpaceSet (p : Packet) (s : State) : Host.Outcome State Fault Refusal := always p.time (arrive 0x0501 p) s
/-- MATRIX_SET. -/
def execMatrixSet (p : Packet) (s : State) : Host.Outcome State Fault Refusal := always p.time (arrive 0x0502 p) s
/-- CDL_SET. -/
def execCdlSet (p : Packet) (s : State) : Host.Outcome State Fault Refusal := always p.time (arrive 0x0503 p) s
/-- LUT1D_LOAD. -/
def execLut1dLoad (p : Packet) (s : State) : Host.Outcome State Fault Refusal := always p.time (arrive 0x0504 p) s
/-- LUT3D_LOAD. -/
def execLut3dLoad (p : Packet) (s : State) : Host.Outcome State Fault Refusal := always p.time (arrive 0x0505 p) s
/-- TRANSFER_SET. -/
def execTransferSet (p : Packet) (s : State) : Host.Outcome State Fault Refusal := always p.time (arrive 0x0506 p) s
/-- BRANCH_CONFIG. -/
def execBranchConfig (p : Packet) (s : State) : Host.Outcome State Fault Refusal := always p.time (arrive 0x0507 p) s
/-- BRANCH_SCALER_SET. -/
def execBranchScalerSet (p : Packet) (s : State) : Host.Outcome State Fault Refusal := always p.time (arrive 0x0508 p) s
/-- BRANCH_ENABLE. -/
def execBranchEnable (p : Packet) (s : State) : Host.Outcome State Fault Refusal := always p.time (arrive 0x0509 p) s
/-- BRANCH_QUERY. -/
def execBranchQuery (p : Packet) (s : State) : Host.Outcome State Fault Refusal := always p.time (arrive 0x050A p) s
/-- STATS_CONFIG. -/
def execStatsConfig (p : Packet) (s : State) : Host.Outcome State Fault Refusal := always p.time (arrive 0x0600 p) s
/-- STATS_ZONES_SET. -/
def execStatsZonesSet (p : Packet) (s : State) : Host.Outcome State Fault Refusal := always p.time (arrive 0x0601 p) s
/-- TAP_CONFIG. -/
def execTapConfig (p : Packet) (s : State) : Host.Outcome State Fault Refusal := always p.time (arrive 0x0602 p) s
/-- TAP_ENABLE. -/
def execTapEnable (p : Packet) (s : State) : Host.Outcome State Fault Refusal := always p.time (arrive 0x0603 p) s
/-- STATS_QUERY. -/
def execStatsQuery (p : Packet) (s : State) : Host.Outcome State Fault Refusal := always p.time (arrive 0x0604 p) s
/-- MOTION_CONFIG. -/
def execMotionConfig (p : Packet) (s : State) : Host.Outcome State Fault Refusal := always p.time (arrive 0x0700 p) s
/-- MOTION_SEARCH_SET. -/
def execMotionSearchSet (p : Packet) (s : State) : Host.Outcome State Fault Refusal := always p.time (arrive 0x0701 p) s
/-- MOTION_EXPORT. -/
def execMotionExport (p : Packet) (s : State) : Host.Outcome State Fault Refusal := always p.time (arrive 0x0702 p) s
/-- MOTION_QUERY. -/
def execMotionQuery (p : Packet) (s : State) : Host.Outcome State Fault Refusal := always p.time (arrive 0x0703 p) s
/-- ENC_OPEN. -/
def execEncOpen (p : Packet) (s : State) : Host.Outcome State Fault Refusal := always p.time (arrive 0x0800 p) s
/-- ENC_CLOSE. -/
def execEncClose (p : Packet) (s : State) : Host.Outcome State Fault Refusal := always p.time (arrive 0x0801 p) s
/-- ENC_CONFIG. -/
def execEncConfig (p : Packet) (s : State) : Host.Outcome State Fault Refusal := always p.time (arrive 0x0802 p) s
/-- ENC_RC_SET. -/
def execEncRcSet (p : Packet) (s : State) : Host.Outcome State Fault Refusal := always p.time (arrive 0x0803 p) s
/-- ENC_FORCE_IRAP. -/
def execEncForceIrap (p : Packet) (s : State) : Host.Outcome State Fault Refusal := always p.time (arrive 0x0804 p) s
/-- ENC_BIND. -/
def execEncBind (p : Packet) (s : State) : Host.Outcome State Fault Refusal := always p.time (arrive 0x0805 p) s
/-- ENC_QUERY. -/
def execEncQuery (p : Packet) (s : State) : Host.Outcome State Fault Refusal := always p.time (arrive 0x0806 p) s
/-- ENC_XS_CONFIG. -/
def execEncXsConfig (p : Packet) (s : State) : Host.Outcome State Fault Refusal := always p.time (arrive 0x0807 p) s
/-- DEC_OPEN. -/
def execDecOpen (p : Packet) (s : State) : Host.Outcome State Fault Refusal := always p.time (arrive 0x0900 p) s
/-- DEC_CLOSE. -/
def execDecClose (p : Packet) (s : State) : Host.Outcome State Fault Refusal := always p.time (arrive 0x0901 p) s
/-- DEC_SUBMIT. -/
def execDecSubmit (p : Packet) (s : State) : Host.Outcome State Fault Refusal := always p.time (arrive 0x0902 p) s
/-- DEC_FLUSH. -/
def execDecFlush (p : Packet) (s : State) : Host.Outcome State Fault Refusal := always p.time (arrive 0x0903 p) s
/-- DEC_BIND. -/
def execDecBind (p : Packet) (s : State) : Host.Outcome State Fault Refusal := always p.time (arrive 0x0904 p) s
/-- DEC_QUERY. -/
def execDecQuery (p : Packet) (s : State) : Host.Outcome State Fault Refusal := always p.time (arrive 0x0905 p) s
/-- RASTER_TIMING_SET. -/
def execRasterTimingSet (p : Packet) (s : State) : Host.Outcome State Fault Refusal := always p.time (arrive 0x0A00 p) s
/-- RASTER_PLANE_SET. -/
def execRasterPlaneSet (p : Packet) (s : State) : Host.Outcome State Fault Refusal := always p.time (arrive 0x0A01 p) s
/-- RASTER_OUTPUT_SET. -/
def execRasterOutputSet (p : Packet) (s : State) : Host.Outcome State Fault Refusal := always p.time (arrive 0x0A02 p) s
/-- RASTER_GROUP_SET. -/
def execRasterGroupSet (p : Packet) (s : State) : Host.Outcome State Fault Refusal := always p.time (arrive 0x0A03 p) s
/-- RASTER_COMMIT_CUT_SET. -/
def execRasterCommitCutSet (p : Packet) (s : State) : Host.Outcome State Fault Refusal := always p.time (arrive 0x0A04 p) s
/-- RASTER_CRC_SET. -/
def execRasterCrcSet (p : Packet) (s : State) : Host.Outcome State Fault Refusal := always p.time (arrive 0x0A05 p) s
/-- RASTER_REFRESH_SET. -/
def execRasterRefreshSet (p : Packet) (s : State) : Host.Outcome State Fault Refusal := always p.time (arrive 0x0A06 p) s
/-- RASTER_UNDERRUN_SET. -/
def execRasterUnderrunSet (p : Packet) (s : State) : Host.Outcome State Fault Refusal := always p.time (arrive 0x0A07 p) s
/-- SDI_RX_CONFIG. -/
def execSdiRxConfig (p : Packet) (s : State) : Host.Outcome State Fault Refusal := always p.time (arrive 0x0A08 p) s
/-- RASTER_QUERY. -/
def execRasterQuery (p : Packet) (s : State) : Host.Outcome State Fault Refusal := always p.time (arrive 0x0A09 p) s
/-- RASTER_START. -/
def execRasterStart (p : Packet) (s : State) : Host.Outcome State Fault Refusal := always p.time (arrive 0x0A0A p) s
/-- RASTER_STOP. -/
def execRasterStop (p : Packet) (s : State) : Host.Outcome State Fault Refusal := always p.time (arrive 0x0A0B p) s
/-- TD_CONFIG. -/
def execTdConfig (p : Packet) (s : State) : Host.Outcome State Fault Refusal := always p.time (arrive 0x0B00 p) s
/-- TD_QUERY. -/
def execTdQuery (p : Packet) (s : State) : Host.Outcome State Fault Refusal := always p.time (arrive 0x0B01 p) s
/-- PTP_CONFIG. -/
def execPtpConfig (p : Packet) (s : State) : Host.Outcome State Fault Refusal := always p.time (arrive 0x0B02 p) s
/-- GENLOCK_CONFIG. -/
def execGenlockConfig (p : Packet) (s : State) : Host.Outcome State Fault Refusal := always p.time (arrive 0x0B03 p) s
/-- LTC_CONFIG. -/
def execLtcConfig (p : Packet) (s : State) : Host.Outcome State Fault Refusal := always p.time (arrive 0x0B04 p) s
/-- LAUNCH_SCHEDULE. -/
def execLaunchSchedule (p : Packet) (s : State) : Host.Outcome State Fault Refusal := always p.time (arrive 0x0B05 p) s
/-- TD_RATE_COMMIT. -/
def execTdRateCommit (p : Packet) (s : State) : Host.Outcome State Fault Refusal := always p.time (arrive 0x0B06 p) s
/-- TIME_ANCHOR_CONFIG. -/
def execTimeAnchorConfig (p : Packet) (s : State) : Host.Outcome State Fault Refusal := always p.time (arrive 0x0B07 p) s
/-- MAC_CONFIG. -/
def execMacConfig (p : Packet) (s : State) : Host.Outcome State Fault Refusal := always p.time (arrive 0x0C00 p) s
/-- FLOW_SEND_CREATE. -/
def execFlowSendCreate (p : Packet) (s : State) : Host.Outcome State Fault Refusal := always p.time (arrive 0x0C01 p) s
/-- FLOW_RECV_CREATE. -/
def execFlowRecvCreate (p : Packet) (s : State) : Host.Outcome State Fault Refusal := always p.time (arrive 0x0C02 p) s
/-- FLOW_DELETE. -/
def execFlowDelete (p : Packet) (s : State) : Host.Outcome State Fault Refusal := always p.time (arrive 0x0C03 p) s
/-- FLOW_BIND. -/
def execFlowBind (p : Packet) (s : State) : Host.Outcome State Fault Refusal := always p.time (arrive 0x0C04 p) s
/-- FLOW_START. -/
def execFlowStart (p : Packet) (s : State) : Host.Outcome State Fault Refusal := always p.time (arrive 0x0C05 p) s
/-- FLOW_STOP. -/
def execFlowStop (p : Packet) (s : State) : Host.Outcome State Fault Refusal := always p.time (arrive 0x0C06 p) s
/-- FLOW_QUERY. -/
def execFlowQuery (p : Packet) (s : State) : Host.Outcome State Fault Refusal := always p.time (arrive 0x0C07 p) s
/-- UDP_CONTROL_SET. -/
def execUdpControlSet (p : Packet) (s : State) : Host.Outcome State Fault Refusal := always p.time (arrive 0x0C08 p) s
/-- SAP_CONFIG. -/
def execSapConfig (p : Packet) (s : State) : Host.Outcome State Fault Refusal := always p.time (arrive 0x0D00 p) s
/-- SAP_SLOT_MAP. -/
def execSapSlotMap (p : Packet) (s : State) : Host.Outcome State Fault Refusal := always p.time (arrive 0x0D01 p) s
/-- SAP_GROUP_SET. -/
def execSapGroupSet (p : Packet) (s : State) : Host.Outcome State Fault Refusal := always p.time (arrive 0x0D02 p) s
/-- SAP_CLOCK_SET. -/
def execSapClockSet (p : Packet) (s : State) : Host.Outcome State Fault Refusal := always p.time (arrive 0x0D03 p) s
/-- ASRC_CONFIG. -/
def execAsrcConfig (p : Packet) (s : State) : Host.Outcome State Fault Refusal := always p.time (arrive 0x0D04 p) s
/-- AUDIO_EMBED_SET. -/
def execAudioEmbedSet (p : Packet) (s : State) : Host.Outcome State Fault Refusal := always p.time (arrive 0x0D05 p) s
/-- SAP_RESTART. -/
def execSapRestart (p : Packet) (s : State) : Host.Outcome State Fault Refusal := always p.time (arrive 0x0D06 p) s
/-- SAP_QUERY. -/
def execSapQuery (p : Packet) (s : State) : Host.Outcome State Fault Refusal := always p.time (arrive 0x0D07 p) s
/-- PAIL_ALLOC. -/
def execPailAlloc (p : Packet) (s : State) : Host.Outcome State Fault Refusal := always p.time (arrive 0x0E00 p) s
/-- PAIL_IMPORT_HOST. -/
def execPailImportHost (p : Packet) (s : State) : Host.Outcome State Fault Refusal := always p.time (arrive 0x0E01 p) s
/-- PAIL_FREE. -/
def execPailFree (p : Packet) (s : State) : Host.Outcome State Fault Refusal := always p.time (arrive 0x0E02 p) s
/-- PAIL_QUERY. -/
def execPailQuery (p : Packet) (s : State) : Host.Outcome State Fault Refusal := always p.time (arrive 0x0E03 p) s
/-- PAIL_MAP. -/
def execPailMap (p : Packet) (s : State) : Host.Outcome State Fault Refusal := always p.time (arrive 0x0E04 p) s
/-- DMA_CHANNEL_CONFIG. -/
def execDmaChannelConfig (p : Packet) (s : State) : Host.Outcome State Fault Refusal := always p.time (arrive 0x0F00 p) s
/-- DMA_SHEAF_SUBMIT. -/
def execDmaSheafSubmit (p : Packet) (s : State) : Host.Outcome State Fault Refusal := always p.time (arrive 0x0F01 p) s
/-- DMA_PAUSE. -/
def execDmaPause (p : Packet) (s : State) : Host.Outcome State Fault Refusal := always p.time (arrive 0x0F02 p) s
/-- DMA_RESUME. -/
def execDmaResume (p : Packet) (s : State) : Host.Outcome State Fault Refusal := always p.time (arrive 0x0F03 p) s
/-- DMA_ABORT. -/
def execDmaAbort (p : Packet) (s : State) : Host.Outcome State Fault Refusal := always p.time (arrive 0x0F04 p) s
/-- DMA_QUERY. -/
def execDmaQuery (p : Packet) (s : State) : Host.Outcome State Fault Refusal := always p.time (arrive 0x0F05 p) s
/-- MAG_QUERY. -/
def execMagQuery (p : Packet) (s : State) : Host.Outcome State Fault Refusal := always p.time (arrive 0x1000 p) s
/-- MAG_FORMAT. -/
def execMagFormat (p : Packet) (s : State) : Host.Outcome State Fault Refusal := always p.time (arrive 0x1001 p) s
/-- MAG_EJECT. -/
def execMagEject (p : Packet) (s : State) : Host.Outcome State Fault Refusal := always p.time (arrive 0x1002 p) s
/-- REEL_CREATE. -/
def execReelCreate (p : Packet) (s : State) : Host.Outcome State Fault Refusal := always p.time (arrive 0x1003 p) s
/-- REEL_DELETE. -/
def execReelDelete (p : Packet) (s : State) : Host.Outcome State Fault Refusal := always p.time (arrive 0x1004 p) s
/-- REEL_RECORD_START. -/
def execReelRecordStart (p : Packet) (s : State) : Host.Outcome State Fault Refusal := always p.time (arrive 0x1005 p) s
/-- REEL_RECORD_STOP. -/
def execReelRecordStop (p : Packet) (s : State) : Host.Outcome State Fault Refusal := always p.time (arrive 0x1006 p) s
/-- CLIP_QUERY. -/
def execClipQuery (p : Packet) (s : State) : Host.Outcome State Fault Refusal := always p.time (arrive 0x1007 p) s
/-- REEL_EXPOSE. -/
def execReelExpose (p : Packet) (s : State) : Host.Outcome State Fault Refusal := always p.time (arrive 0x1008 p) s
/-- FAULT_QUERY. -/
def execFaultQuery (p : Packet) (s : State) : Host.Outcome State Fault Refusal := always p.time (arrive 0x1100 p) s
/-- FAILOVER_FORCE. -/
def execFailoverForce (p : Packet) (s : State) : Host.Outcome State Fault Refusal := always p.time (arrive 0x1101 p) s
/-- YOKE_STATUS. -/
def execYokeStatus (p : Packet) (s : State) : Host.Outcome State Fault Refusal := always p.time (arrive 0x1102 p) s
/-- RANK_QUERY. -/
def execRankQuery (p : Packet) (s : State) : Host.Outcome State Fault Refusal := always p.time (arrive 0x1103 p) s
/-- RANK_RETIRE. -/
def execRankRetire (p : Packet) (s : State) : Host.Outcome State Fault Refusal := always p.time (arrive 0x1104 p) s
/-- DRILL_QUERY. -/
def execDrillQuery (p : Packet) (s : State) : Host.Outcome State Fault Refusal := always p.time (arrive 0x1105 p) s
/-- FAULT_LOG_READ. -/
def execFaultLogRead (p : Packet) (s : State) : Host.Outcome State Fault Refusal := always p.time (arrive 0x1106 p) s
/-- EVENT_RING_SET. -/
def execEventRingSet (p : Packet) (s : State) : Host.Outcome State Fault Refusal := always p.time (arrive 0x1200 p) s
/-- EVENT_FILTER_SET. -/
def execEventFilterSet (p : Packet) (s : State) : Host.Outcome State Fault Refusal := always p.time (arrive 0x1201 p) s
/-- EVENT_READ. -/
def execEventRead (p : Packet) (s : State) : Host.Outcome State Fault Refusal := always p.time (arrive 0x1202 p) s
/-- TELEMETRY_READ. -/
def execTelemetryRead (p : Packet) (s : State) : Host.Outcome State Fault Refusal := always p.time (arrive 0x1203 p) s
/-- COUNTER_READ. -/
def execCounterRead (p : Packet) (s : State) : Host.Outcome State Fault Refusal := always p.time (arrive 0x1204 p) s
/-- COUNTER_READ_CLEAR. -/
def execCounterReadClear (p : Packet) (s : State) : Host.Outcome State Fault Refusal := always p.time (arrive 0x1205 p) s
/-- GLEAN_QUERY. -/
def execGleanQuery (p : Packet) (s : State) : Host.Outcome State Fault Refusal := always p.time (arrive 0x1206 p) s
/-- FW_INFO. -/
def execFwInfo (p : Packet) (s : State) : Host.Outcome State Fault Refusal := always p.time (arrive 0x1300 p) s
/-- FW_UPDATE_BEGIN. -/
def execFwUpdateBegin (p : Packet) (s : State) : Host.Outcome State Fault Refusal := always p.time (arrive 0x1301 p) s
/-- FW_UPDATE_DATA. -/
def execFwUpdateData (p : Packet) (s : State) : Host.Outcome State Fault Refusal := always p.time (arrive 0x1302 p) s
/-- FW_UPDATE_END. -/
def execFwUpdateEnd (p : Packet) (s : State) : Host.Outcome State Fault Refusal := always p.time (arrive 0x1303 p) s
/-- FW_ACTIVATE. -/
def execFwActivate (p : Packet) (s : State) : Host.Outcome State Fault Refusal := always p.time (arrive 0x1304 p) s
/-- DEVICE_RESET. -/
def execDeviceReset (p : Packet) (s : State) : Host.Outcome State Fault Refusal := always p.time (arrive 0x1305 p) s
/-- ROLLBACK_COMMIT. -/
def execRollbackCommit (p : Packet) (s : State) : Host.Outcome State Fault Refusal := always p.time (arrive 0x1306 p) s

end Sys2Proof.Machine
end

