-- ==== Sys2Proof/Machine/Elementary.lean ====
section
/-! DEFINITION. The elementary functions that the pixel chain and the rate control name (R160, R208, R210, R218, R258): square
root, logarithms, exponentials, powers and sine, as rational numbers near enough to the exact value that rounding them gives what
rounding the exact value gives. They are computed in fixed point with 192 fraction bits; a value that lies within 2^−100 of a number
of at most 26 significant bits is that number, so that exact results and ties of binary32 round as they must. -/

namespace Sys2Proof.Machine

/-! ## Fixed point -/

/-- Fraction bits. -/
abbrev fxBits : Nat := 192

/-- 1 in fixed point. -/
def fxOne : Int := 2 ^ fxBits

/-- A rational in fixed point, towards minus infinity. -/
def fx (x : Rat) : Int := x.num * fxOne / x.den

/-- A fixed-point number as a rational. -/
def unfx (v : Int) : Rat := (v : Rat) / (fxOne : Rat)

/-- The product of two fixed-point numbers. -/
def fxMul (a b : Int) : Int := a * b / fxOne

/-- z + z³ ÷ 3 + z⁵ ÷ 5 + … over `n` terms, from a term z^k of odd k; `sign` −1 alternates the terms. -/
def fxOddSeries (sign z2 : Int) : Nat → Int → Int → Int
  | 0, _, _ => 0
  | n + 1, k, term => term / k + sign * fxOddSeries sign z2 n (k + 2) (fxMul term z2)

/-- ln of a number from 1 to 2: 2 artanh((m − 1) ÷ (m + 1)). -/
def fxLn (m : Rat) : Int :=
  let z := fx ((m - 1) / (m + 1))
  2 * fxOddSeries 1 (fxMul z z) 64 1 z

/-- ln 2. -/
def fxLn2 : Int := fxLn 2

/-- π, by Machin's formula. -/
def fxPi : Int :=
  let at1 := fun (n : Nat) => let z := fxOne / (n : Int); fxOddSeries (-1) (fxMul z z) 100 1 z
  4 * (4 * at1 5 - at1 239)

/-- 1 + t ÷ k + t² ÷ (k (k + 1)) + … over `n` terms. -/
def fxExpSeries (t : Int) : Nat → Int → Int → Int
  | 0, _, _ => 0
  | n + 1, k, term => term + fxExpSeries t n (k + 1) (fxMul term t / k)

/-- x − x³ ÷ 3! + x⁵ ÷ 5! − … over `n` terms. -/
def fxSinSeries (x2 : Int) : Nat → Int → Int → Int
  | 0, _, _ => 0
  | n + 1, k, term => term - fxSinSeries x2 n (k + 2) (fxMul term x2 / ((k + 1) * (k + 2)))

/-- The integer square root, bit by bit from bit `n` − 1. -/
def isqrtFrom (v : Nat) : Nat → Nat → Nat
  | 0, r => r
  | n + 1, r => isqrtFrom v n (if (r + 2 ^ n) * (r + 2 ^ n) ≤ v then r + 2 ^ n else r)

/-! ## Exact results -/

/-- A value that lies within 2^−100 of itself from a number of 26 significant bits is that number. -/
def snap (x : Rat) : Rat :=
  if x = 0 then 0
  else
    let a := if x < 0 then -x else x
    let u := pow2 (exponentOf a - 25)
    let c := ((a / u + 1 / 2).floor : Rat) * u
    let off := if c < a then a - c else c - a
    if off * (2 ^ 100 : Nat) ≤ a then (if x < 0 then -c else c) else x

/-! ## Functions -/

/-- ln x for x > 0, in fixed point. -/
def fxLog (x : Rat) : Int :=
  let e := exponentOf x
  e * fxLn2 + fxLn (x / pow2 e)

/-- ln x, for x > 0. -/
def realLn (x : Rat) : Rat := snap (unfx (fxLog x))

/-- log2 x, for x > 0. -/
def realLog2 (x : Rat) : Rat :=
  let e := exponentOf x
  snap ((e : Rat) + (fxLn (x / pow2 e) : Rat) / (fxLn2 : Rat))

/-- e^t of a fixed-point number. Beyond the range of binary32 it is only known to be so. -/
def expOf (t : Int) : Rat :=
  let n := (2 * t + fxLn2) / (2 * fxLn2)
  if n > 200 then pow2 200 else if n < -400 then pow2 (-400)
  else snap (unfx (fxExpSeries (t - n * fxLn2) 50 1 fxOne) * pow2 n)

/-- e^x. -/
def realExp (x : Rat) : Rat := expOf (fx x)

/-- 2^x. -/
def realExp2 (x : Rat) : Rat :=
  if x.den = 1 && x.num.natAbs ≤ 400 then pow2 x.num else expOf (fx (x * unfx fxLn2))

/-- x^y, for x > 0. -/
def realPow (x y : Rat) : Rat := if x = 1 || y = 0 then 1 else expOf (fx (y * unfx (fxLog x)))

/-- The square root, for x ≥ 0; one that is not exact lies between the two numbers it was found between. -/
def realSqrt (x : Rat) : Rat :=
  if x ≤ 0 then 0
  else
    let k := 140 - (exponentOf x / 2)
    let v := (x * pow2 (2 * k)).floor.toNat
    let r := isqrtFrom v 142 0
    snap ((if ((r * r : Nat) : Rat) = x * pow2 (2 * k) then (r : Rat) else (r : Rat) + 1 / 2) * pow2 (-k))

/-- sin(πx) ÷ (πx). -/
def realSinc (x : Rat) : Rat :=
  if x = 0 then 1
  else
    let n := (x + 1 / 2).floor
    let t := fxMul (fx (x - (n : Rat))) fxPi
    let s := unfx (fxSinSeries (fxMul t t) 40 1 t)
    (if n % 2 = 0 then s else -s) / (x * unfx fxPi)

end Sys2Proof.Machine
end

