-- ==== Sys2Proof/Machine/Pixels.lean ====
section
/-! DEFINITION. The arithmetic of the pixel chain (R200 to R222): binary32 operations, matrices, grades, transfer
functions, LUTs, the scaler's kernels and the output encodings. Every operation is the exact one, rounded to binary32. -/

namespace Sys2Proof.Machine

/-! ## Numbers (R200) -/

/-- The largest binary32 number. -/
def fMax : Rat := (((2 ^ 24 - 1) * 2 ^ 104 : Nat) : Rat)

/-- A result rounded to binary32, an infinite one replaced. -/
def fr (x : Rat) : Rat := max (-fMax) (min fMax (round32 x))

def fadd (a b : Rat) : Rat := fr (a + b)
def fsub (a b : Rat) : Rat := fr (a - b)
def fmul (a b : Rat) : Rat := fr (a * b)

/-- A quotient; x ÷ 0 is infinite and so replaced, and 0 ÷ 0 is no number and so 0. -/
def fdiv (a b : Rat) : Rat := if b = 0 then (if a = 0 then 0 else if a > 0 then fMax else -fMax) else fr (a / b)

/-- The sum of a list from the left. -/
def fsum (l : List Rat) : Rat := match l with
  | [] => 0
  | x :: xs => xs.foldl fadd x

/-- x^y; of a negative x it is no number and so 0. -/
def fpow (x y : Rat) : Rat := if x ≤ 0 then 0 else fr (realPow x y)
/-- log2 x, for x > 0. -/
def flog2 (x : Rat) : Rat := fr (realLog2 x)
/-- 2^x. -/
def fexp2 (x : Rat) : Rat := fr (realExp2 x)
/-- ln x, for x > 0. -/
def fln (x : Rat) : Rat := fr (realLn x)
/-- e^x. -/
def fexp (x : Rat) : Rat := fr (realExp x)
/-- The square root, for x ≥ 0. -/
def fsqrt (x : Rat) : Rat := fr (realSqrt x)

/-- A stored fp32 value. -/
def fp (v : Nat) : Rat := (f32 v).getD 0

/-- A stored fp16 value. -/
def hp (v : Nat) : Rat := (f16 v).getD 0

/-- round(x) = floor(x + 0.5) of this chapter. -/
def roundUpHalf (x : Rat) : Int := (x + 1 / 2).floor

/-- A number held between two bounds. -/
def clampRat (x lo hi : Rat) : Rat := max lo (min hi x)

/-! ## Pixels and regions -/

/-- A pixel of three components and a fourth, the clip mask or alpha. -/
structure Pixel where
  r : Rat := 0
  g : Rat := 0
  b : Rat := 0
  a : Rat := 0
  deriving DecidableEq, Repr, Inhabited

/-- The same function on the three colour components. -/
def Pixel.map (f : Rat → Rat) (p : Pixel) : Pixel := { p with r := f p.r, g := f p.g, b := f p.b }

/-- A rectangle of values whose top-left corner stands at (x0, y0) of the image. -/
structure Region (α : Type) where
  x0 : Int := 0
  y0 : Int := 0
  rows : List (List α) := []

/-- A region of a width and height from a function of image coordinates. -/
def Region.make {α : Type} (x0 y0 : Int) (w h : Nat) (f : Int → Int → α) : Region α :=
  { x0, y0, rows := (List.range h).map fun j => (List.range w).map fun i => f (x0 + i) (y0 + j) }

/-- The width of a region. -/
def Region.width {α : Type} (g : Region α) : Nat := (g.rows.headD []).length

/-- A coordinate brought inside a range by whole periods, the nearest of its phase (R202). -/
def nearPhase (x lo : Int) (n per : Nat) : Int :=
  if x < lo then x + (lo - x + per - 1) / per * per
  else if x > lo + n - 1 then x - (x - (lo + n - 1) + per - 1) / per * per
  else x

/-- The value at an image coordinate, or at the nearest one of the same phase inside the region (R202). -/
def Region.near {α : Type} [Inhabited α] (g : Region α) (px py : Nat) (x y : Int) : α :=
  let xi := (nearPhase x g.x0 g.width (max 1 px) - g.x0).toNat
  let yi := (nearPhase y g.y0 g.rows.length (max 1 py) - g.y0).toNat
  (g.rows.getD yi []).getD xi default

/-- A coordinate outside an image of `n` sites, mirrored about the edge in whole periods, so that it keeps its phase
(R27). -/
def mirror (x : Int) (n per : Nat) : Nat :=
  let p : Int := max 1 per
  let blocks : Int := max 1 ((n : Int) / p)
  let k := x / p
  let m := if k < 0 then -1 - k else if x ≥ n then 2 * blocks - 1 - k else k
  (clampInt (m * p + (x - k * p)) 0 ((n : Int) - 1)).toNat

/-! ## Matrices (R204 to R207) -/

/-- Row `i` of a 3 × 4 matrix applied to a pixel. -/
def Matrix.row (m : Matrix) (i : Nat) (p : Pixel) : Rat :=
  let c := fun k => fp (m.coeffs.getD (4 * i + k) 0)
  fadd (fadd (fadd (fadd (fmul (c 0) p.r) (fmul (c 1) p.g)) (fmul (c 2) p.b)) (fmul (c 3) p.a)) (fp (m.offset.getD i 0))

/-- out = M × in + o; the fourth input is W for the camera matrix and 0 for the others. -/
def Matrix.apply (m : Matrix) (p : Pixel) : Pixel := { r := m.row 0 p, g := m.row 1 p, b := m.row 2 p, a := p.a }

/-- The xy chromaticities of Table 8.2: red, green, blue, white. -/
def primaries (code : Nat) : List (Rat × Rat) := match code with
  | 1 => [(7347 / 10000, 2653 / 10000), (0, 1), (1 / 10000, -770 / 10000), (32168 / 100000, 33767 / 100000)]
  | 2 => [(713 / 1000, 293 / 1000), (165 / 1000, 830 / 1000), (128 / 1000, 44 / 1000), (32168 / 100000, 33767 / 100000)]
  | 3 => [(640 / 1000, 330 / 1000), (300 / 1000, 600 / 1000), (150 / 1000, 60 / 1000), (3127 / 10000, 3290 / 10000)]
  | 4 => [(708 / 1000, 292 / 1000), (170 / 1000, 797 / 1000), (131 / 1000, 46 / 1000), (3127 / 10000, 3290 / 10000)]
  | _ => [(680 / 1000, 320 / 1000), (265 / 1000, 690 / 1000), (150 / 1000, 60 / 1000), (3127 / 10000, 3290 / 10000)]

/-- An exact 3 × 3 matrix, row-major. -/
abbrev Mat3 := List Rat

def Mat3.at (m : Mat3) (i j : Nat) : Rat := m.getD (3 * i + j) 0
def Mat3.mul (a b : Mat3) : Mat3 :=
  (List.range 9).map fun k => a.at (k / 3) 0 * b.at 0 (k % 3) + a.at (k / 3) 1 * b.at 1 (k % 3) + a.at (k / 3) 2 * b.at 2 (k % 3)
def Mat3.vec (a : Mat3) (v : List Rat) : List Rat :=
  (List.range 3).map fun i => a.at i 0 * v.getD 0 0 + a.at i 1 * v.getD 1 0 + a.at i 2 * v.getD 2 0
def Mat3.diag (v : List Rat) : Mat3 := (List.range 9).map fun k => if k / 3 = k % 3 then v.getD (k % 3) 0 else 0

/-- The cofactor of an entry. -/
def Mat3.cof (m : Mat3) (i j : Nat) : Rat :=
  let a := (i + 1) % 3
  let b := (i + 2) % 3
  let c := (j + 1) % 3
  let e := (j + 2) % 3
  m.at a c * m.at b e - m.at a e * m.at b c

/-- The inverse of a matrix. -/
def Mat3.inv (m : Mat3) : Mat3 :=
  let det := m.at 0 0 * m.cof 0 0 + m.at 0 1 * m.cof 0 1 + m.at 0 2 * m.cof 0 2
  (List.range 9).map fun k => m.cof (k % 3) (k / 3) / det

/-- The XYZ of a chromaticity at luminance 1. -/
def xyz (c : Rat × Rat) : List Rat := [c.1 / c.2, 1, (1 - c.1 - c.2) / c.2]

/-- RGB to XYZ of a set of primaries. -/
def rgbToXyz (code : Nat) : Mat3 :=
  let l := primaries code
  let col := fun k : Nat => let c := l.getD k (0, 1); [c.1, c.2, 1 - c.1 - c.2]
  let m : Mat3 := (List.range 9).map fun k => (col (k % 3)).getD (k / 3) 0
  m.mul (Mat3.diag (m.inv.vec (xyz (l.getD 3 (0, 1)))))

/-- The Bradford cone matrix, as the method's authors give it. -/
def bradford : Mat3 :=
  [8951 / 10000, 2664 / 10000, -1614 / 10000, -7502 / 10000, 17135 / 10000, 367 / 10000, 389 / 10000, -685 / 10000, 10296 / 10000]

/-- The built-in conversion between two sets of primaries (R206), rounded to binary32. -/
def builtinMatrix (src dst : Nat) : Mat3 :=
  let ws := bradford.vec (xyz ((primaries src).getD 3 (0, 1)))
  let wd := bradford.vec (xyz ((primaries dst).getD 3 (0, 1)))
  let adapt := bradford.inv.mul ((Mat3.diag ((List.range 3).map fun i => wd.getD i 0 / ws.getD i 0)).mul bradford)
  (((rgbToXyz dst).inv.mul (adapt.mul (rgbToXyz src)))).map fr

/-- A 3 × 3 matrix of binary32 numbers applied to a pixel. -/
def applyMat (m : Mat3) (p : Pixel) : Pixel :=
  let row := fun i : Nat => fadd (fadd (fmul (m.at i 0) p.r) (fmul (m.at i 1) p.g)) (fmul (m.at i 2) p.b)
  { r := row 0, g := row 1, b := row 2, a := p.a }

/-- A branch's look or output matrix (R207); the fourth component is no input. -/
def Matrix.look (m : Matrix) (working : Nat) (p : Pixel) : Pixel :=
  if m.builtin ≠ 0 then applyMat (builtinMatrix working m.builtin) p
  else { (m.apply { p with a := 0 }) with a := p.a }

/-! ## Transfer functions (R210, R211) -/

/-- A decimal constant of the manual as binary32. -/
def dec (n d : Nat) : Rat := fr ((n : Rat) / (d : Rat))

/-- PQ's constants, of ITU-R BT.2100. -/
def pqM1 : Rat := 2610 / 16384
def pqM2 : Rat := 2523 / 32
def pqC1 : Rat := 3424 / 4096
def pqC2 : Rat := 2413 / 128
def pqC3 : Rat := 2392 / 128

/-- The encoding of Table 8.3. -/
def transfer (code : Nat) (scale x : Rat) : Rat := match code with
  | 0 => x
  | 1 => if x ≥ 1 / 128 then fdiv (fadd (flog2 x) (21 / 2)) (35 / 2) else fadd (fmul (dec 1055228 100000) x) (dec 1175603 10000000)
  | 2 => if x ≤ 1 / 128 then fadd (fmul (dec 105402377416545 10000000000000) x) (dec 729055341958355 10000000000000000)
    else fdiv (fadd (flog2 x) (dec 972 100)) (dec 1752 100)
  | 3 => if x < 0 then 0 else
    let l := fpow (fdiv (min (fmul x scale) 10000) 10000) pqM1
    fpow (fdiv (fadd pqC1 (fmul pqC2 l)) (fadd 1 (fmul pqC3 l))) pqM2
  | 4 => if x < 0 then 0 else
    let e := min (fmul x scale) 1
    if e ≤ 1 / 12 then fsqrt (fmul 3 e)
    else fadd (fmul (dec 17883277 100000000) (fln (fsub (fmul 12 e) (dec 28466892 100000000)))) (dec 55991073 100000000)
  | 5 => if x < 0 then 0 else fpow x (fr (5 / 12))
  | _ => if x < 0 then 0 else if x ≤ dec 31308 10000000 then fmul (dec 1292 100) x
    else fsub (fmul (dec 1055 1000) (fpow x (fr (5 / 12)))) (dec 55 1000)

/-- The difference under PQ's inverse at a value of y^(1 ÷ m2). -/
def pqBelow (p : Rat) : Rat := fsub pqC2 (fmul pqC3 p)

/-- The inverse of Table 8.3's encodings. -/
def linearise (code : Nat) (scale y : Rat) : Rat := match code with
  | 0 => y
  | 1 => if y ≥ 1 / 5 then fexp2 (fsub (fmul (35 / 2) y) (21 / 2)) else fdiv (fsub y (dec 1175603 10000000)) (dec 1055228 100000)
  | 2 => if y ≤ transfer 2 1 (1 / 128) then fdiv (fsub y (dec 729055341958355 10000000000000000)) (dec 105402377416545 10000000000000)
    else fexp2 (fsub (fmul (dec 1752 100) y) (dec 972 100))
  | 3 => if y < 0 then 0 else
    let p := fpow y (fdiv 1 pqM2)
    fdiv (fmul 10000 (fpow (fdiv (max (fsub p pqC1) 0) (pqBelow p)) (fdiv 1 pqM1))) scale
  | 4 => if y < 0 then 0 else
    let e := if y ≤ 1 / 2 then fdiv (fmul y y) 3
      else fdiv (fadd (fexp (fdiv (fsub y (dec 55991073 100000000)) (dec 17883277 100000000))) (dec 28466892 100000000)) 12
    fdiv e scale
  | 5 => if y < 0 then 0 else fpow y (fr (12 / 5))
  | _ => if y < 0 then 0 else if y ≤ fmul (dec 1292 100) (dec 31308 10000000) then fdiv y (dec 1292 100)
    else fpow (fdiv (fadd y (dec 55 1000)) (dec 1055 1000)) (fr (12 / 5))

/-- The inverse of a transfer function raises a negative number to a power, so that its result is no number (R200). Only PQ's does,
far above its peak. -/
def notNumber (code : Nat) (y : Rat) : Bool :=
  code = 3 && y > 0 && (let p := fpow y (fdiv 1 pqM2); p > pqC1 && pqBelow p < 0)

/-! ## Grade and LUTs (R208, R209, R212, R213) -/

/-- ASC CDL on values already in its space. -/
def Cdl.grade (c : Cdl) (p : Pixel) : Pixel :=
  let one := fun (k : Nat) (x : Rat) =>
    let v := fadd (fmul x (fp (c.slope.getD k 0))) (fp (c.offset.getD k 0))
    let v := if c.clamp then clampRat v 0 1 else v
    if v > 0 then fpow v (fp (c.power.getD k 0)) else v
  let p := { p with r := one 0 p.r, g := one 1 p.g, b := one 2 p.b }
  let luma := fadd (fadd (fmul (dec 2126 10000) p.r) (fmul (dec 7152 10000) p.g)) (fmul (dec 722 10000) p.b)
  p.map fun v =>
    let o := fadd luma (fmul (fp c.sat) (fsub v luma))
    if c.clamp then clampRat o 0 1 else o

/-- Step 6: the encoding's space is 1 ACEScct or 2 ML1. -/
def Cdl.apply (c : Cdl) (p : Pixel) : Pixel :=
  if !c.enable then p
  else match c.space with
    | 0 => c.grade p
    | s =>
      let code := if s = 1 then 2 else 1
      (c.grade (p.map (transfer code 1))).map (linearise code 1)

/-- A lookup in a channel of a 1D LUT. -/
def Lut1.look (t : Lut1) (ch : Nat) (x : Rat) : Rat :=
  let lo := fp t.dmin
  let hi := fp t.dmax
  let p := fmul (fdiv (fsub (clampRat x lo hi) lo) (fsub hi lo)) 4095
  let i := min p.floor.toNat 4094
  let base := if t.channels = 3 then 4096 * ch else 0
  let a := fp (t.entries.getD (base + i) 0)
  fadd a (fmul (fsub p (i : Rat)) (fsub (fp (t.entries.getD (base + i + 1) 0)) a))

/-- A 1D LUT slot; an empty or unselected one bypasses. -/
def applyLut1 (l : LutTables) (slot : Option Nat) (p : Pixel) : Pixel := match slot with
  | none => p
  | some k =>
    let t := l.lut1.getD k {}
    if t.entries.isEmpty then p else { p with r := t.look 0 p.r, g := t.look 1 p.g, b := t.look 2 p.b }

/-- A component of a node of a 3D LUT. -/
def node3 (t : List Nat) (r g b ch : Nat) : Rat := hp (t.getD (3 * (r + 65 * g + 4225 * b) + ch) 0)

/-- Tetrahedral interpolation. -/
def tetra (t : List Nat) (p : Pixel) : Pixel :=
  let q := fun (x : Rat) => fmul (clampRat x 0 1) 64
  let i := fun (x : Rat) => min (q x).floor.toNat 63
  let f := fun (x : Rat) => fsub (q x) ((i x : Nat) : Rat)
  let (fr', fg, fb) := (f p.r, f p.g, f p.b)
  let out := fun (ch : Nat) =>
    let c := fun (x y z : Nat) => node3 t (i p.r + x) (i p.g + y) (i p.b + z) ch
    let path := fun (f1 : Rat) (a1 : Rat) (f2 : Rat) (a2 : Rat) (f3 : Rat) =>
      fadd (fadd (fadd (c 0 0 0) (fmul f1 (fsub a1 (c 0 0 0)))) (fmul f2 (fsub a2 a1))) (fmul f3 (fsub (c 1 1 1) a2))
    if fr' ≥ fg && fg ≥ fb then path fr' (c 1 0 0) fg (c 1 1 0) fb
    else if fr' ≥ fb && fb ≥ fg then path fr' (c 1 0 0) fb (c 1 0 1) fg
    else if fb ≥ fr' && fr' ≥ fg then path fb (c 0 0 1) fr' (c 1 0 1) fg
    else if fg ≥ fr' && fr' ≥ fb then path fg (c 0 1 0) fr' (c 1 1 0) fb
    else if fg ≥ fb && fb ≥ fr' then path fg (c 0 1 0) fb (c 0 1 1) fr'
    else path fb (c 0 0 1) fg (c 0 1 1) fr'
  { p with r := out 0, g := out 1, b := out 2 }

/-- A 3D LUT slot; an empty or unselected one bypasses. -/
def applyLut3 (l : LutTables) (slot : Option Nat) (p : Pixel) : Pixel := match slot with
  | none => p
  | some k => if (l.lut3.getD k []).isEmpty then p else tetra (l.lut3.getD k []) p

/-- Steps 5 to 11 of a branch (Table 8.1). -/
def BranchSet.gradePixel (b : BranchSet) (working : Nat) (l : LutTables) (p : Pixel) : Pixel :=
  let p := b.m2.look working (b.cdl.apply (b.m1.look working p))
  applyLut1 l b.post (applyLut3 l b.lut3 (applyLut1 l b.pre (p.map (Sys2Proof.Machine.transfer b.transfer (fp b.scale)))))

/-! ## The scaler (R217, R218) -/

/-- The Catmull-Rom kernel. -/
def catmull (t : Rat) : Rat :=
  let x := if t < 0 then -t else t
  if x < 1 then (3 * x * x * x - 5 * x * x + 2) / 2 else if x < 2 then (-x * x * x + 5 * x * x - 8 * x + 4) / 2 else 0

/-- The weight of tap `k` of phase `p` at residual ratio `r`, before rounding. -/
def kernelWeight (kernel : Nat) (r : Rat) (p k : Nat) : Rat :=
  let t : Rat := (k : Rat) - 3 - (p : Rat) / 64
  if kernel = 0 then (if -4 < t && t < 4 then realSinc (t / r) * realSinc (t / 4) / r else 0) else catmull (t / r) / r

/-- The index of a list's largest entry, the first of equals. -/
def largestAt (l : List Int) : Nat :=
  (l.zipIdx.foldl (fun (best : Int × Nat) e => if e.1 > best.1 then e else best) (l.headD 0, 0)).2

/-- The eight coefficients of a phase: rounded, with the remainder added to the largest. -/
def kernelPhase (kernel : Nat) (coeffs : List Int) (r : Rat) (p : Nat) : List Int :=
  if kernel = 2 then (coeffs.drop (8 * p)).take 8
  else
    let w := (List.range 8).map fun k => roundUpHalf (kernelWeight kernel r p k * 16384)
    let i := largestAt w
    w.set i (w.getD i 0 + (16384 - w.foldl (· + ·) 0))

/-- One axis of the scaler at an output coordinate: the eight coefficients with the decimated samples they weigh. `start` is where
the crop starts. Positions are binary32; firmware computes the coefficients from the exact ratio. -/
def scalerTaps (kernel : Nat) (coeffs : List Int) (start crop out u : Nat) : List (Int × Nat) :=
  let dcm := decimation crop out
  let src := fsub (fadd (start : Rat) (fmul (fadd (u : Rat) (1 / 2)) (fdiv (crop : Rat) (out : Rat)))) (1 / 2)
  let xd := fsub (fdiv (fadd (fsub src (start : Rat)) (1 / 2)) (dcm : Rat)) (1 / 2)
  let k0 := xd.floor - 3
  let phase := (fmul (fsub xd (xd.floor : Rat)) 64).floor.toNat
  (kernelPhase kernel coeffs ((crop : Rat) / (out : Rat) / dcm) phase).zipIdx.map fun (c, k) =>
    (c, (clampInt (k0 + k) 0 ((crop / dcm : Nat) - 1 : Int)).toNat)

/-- The mean of a box of pixels. -/
def boxMean (l : List Rat) : Rat := fdiv (fsum l) (l.length : Rat)

/-- A component of the scaled picture at output pixel (u, v), from the core result of the job's region. -/
def scaleAt (b : BranchSet) (w h : Nat) (core : Region Pixel) (comp : Pixel → Rat) (u v : Nat) : Rat :=
  let (cx, cy, cw, ch) := b.crop w h
  let dx := decimation cw b.outW
  let dy := decimation ch b.outH
  let box := fun (i j : Nat) => boxMean ((List.range dy).flatMap fun n => (List.range dx).map fun m =>
    comp (core.near 1 1 ((cx + i * dx + m : Nat) : Int) ((cy + j * dy + n : Nat) : Int)))
  let across := scalerTaps b.kernelH b.coeffs cx cw b.outW u
  let line := fun (j : Nat) => fdiv (fsum (across.map fun (c, i) => fmul (c : Rat) (box i j))) 16384
  fdiv (fsum ((scalerTaps b.kernelV b.coeffs cy ch b.outH v).map fun (c, j) => fmul (c : Rat) (line j))) 16384

/-- Step 4: the scaled core result at an output pixel. -/
def scalePixel (b : BranchSet) (w h : Nat) (core : Region Pixel) (u v : Nat) : Pixel :=
  { r := scaleAt b w h core (·.r) u v, g := scaleAt b w h core (·.g) u v, b := scaleAt b w h core (·.b) u v
    a := scaleAt b w h core (·.a) u v }

/-! ## Encodings (R220 to R222) -/

/-- Kr and Kb of a ycc code. -/
def yccK (ycc : Nat) : Rat × Rat := if ycc = 2 then (dec 2627 10000, dec 593 10000) else (dec 2126 10000, dec 722 10000)

/-- R'G'B' to Y'CbCr; the components stand in r, g, b. -/
def toYcc (ycc : Nat) (p : Pixel) : Pixel :=
  let (kr, kb) := yccK ycc
  let y := fadd (fadd (fmul kr p.r) (fmul (fsub (fsub 1 kr) kb) p.g)) (fmul kb p.b)
  { p with r := y, g := fdiv (fsub p.b y) (fmul 2 (fsub 1 kb)), b := fdiv (fsub p.r y) (fmul 2 (fsub 1 kr)) }

/-- Y'CbCr to R'G'B'. -/
def fromYcc (ycc : Nat) (p : Pixel) : Pixel :=
  let (kr, kb) := yccK ycc
  let r := fadd p.r (fmul (fmul 2 (fsub 1 kr)) p.b)
  let b := fadd p.r (fmul (fmul 2 (fsub 1 kb)) p.g)
  { p with r, b, g := fdiv (fsub (fsub p.r (fmul kr r)) (fmul kb b)) (fsub (fsub 1 kr) kb) }

/-- A code held in the range of its encoding. -/
def clampCode (n range : Nat) (x : Int) : Nat :=
  let e : Int := if range = 1 then (4 * 2 ^ n / 1024 : Nat) else 0
  (clampInt x e ((2 ^ n - 1 : Nat) - e : Int)).toNat

/-- Luma or R'G'B' as an n-bit code. -/
def quantLuma (n range : Nat) (e : Rat) : Nat :=
  clampCode n range (roundUpHalf (if range = 1 then fmul (fadd (fmul 219 e) 16) (pow2 ((n : Int) - 8)) else fmul ((2 ^ n - 1 : Nat) : Rat) e))

/-- Chroma as an n-bit code. -/
def quantChroma (n range : Nat) (c : Rat) : Nat :=
  clampCode n range (roundUpHalf (if range = 1 then fmul (fadd (fmul 224 c) 128) (pow2 ((n : Int) - 8))
    else fadd (fmul ((2 ^ n - 1 : Nat) : Rat) c) ((2 ^ (n - 1) : Nat) : Rat)))

/-- The inverse of `quantLuma`. -/
def dequantLuma (n range : Nat) (code : Rat) : Rat :=
  if range = 1 then fdiv (fsub (fdiv code (pow2 ((n : Int) - 8))) 16) 219 else fdiv code ((2 ^ n - 1 : Nat) : Rat)

/-- The inverse of `quantChroma`. -/
def dequantChroma (n range : Nat) (code : Rat) : Rat :=
  if range = 1 then fdiv (fsub (fdiv code (pow2 ((n : Int) - 8))) 128) 224
  else fdiv (fsub code ((2 ^ (n - 1) : Nat) : Rat)) ((2 ^ n - 1 : Nat) : Rat)

/-- A picture as the block stores it: where its slot starts in a pail, its format and its size. `top` is the first row of a read
that conceals poisoned samples (R499). -/
structure Stored where
  pail : Nat := 0
  base : Nat := 0
  format : Nat := 0
  w : Nat := 0
  h : Nat := 0
  stride : Nat := 0
  plane : List Nat := []
  top : Option Nat := none

/-- A picture slot under R223. -/
def storedSlot (pail base format w h : Nat) : Stored :=
  { pail, base, format, w, h, stride := formatStride format w, plane := (List.range 3).map (formatOffset format w h) }

/-- The row that a sample of `n` bytes is taken from: where it is poisoned, the nearest row above that is not, or else the one
below the first (R499). -/
def Stored.rowAt (s : Stored) (d : Dev) (plane row byteOff n : Nat) : Nat :=
  match s.top with
  | none => row
  | some t =>
    let bad := fun r => pailPoisoned d s.pail (s.base + s.plane.getD plane 0 + r * s.stride + byteOff) n
    if !bad row then row
    else (((List.range (row - t)).map fun k => row - 1 - k).find? fun r => !bad r).getD (t + 1)

/-- The container of `n` bytes at a byte of a plane's row. -/
def Stored.wide (s : Stored) (d : Dev) (plane row byteOff n : Nat) : Nat :=
  unle (pailRead d s.pail (s.base + s.plane.getD plane 0 + s.rowAt d plane row byteOff n * s.stride + byteOff) n)

/-- The 16-bit container at a byte of a plane's row. -/
def Stored.word (s : Stored) (d : Dev) (plane row byteOff : Nat) : Nat := s.wide d plane row byteOff 2

/-- The chroma samples of a stored picture, by their own column and row. -/
def Stored.chroma (s : Stored) (d : Dev) (cx cy which : Nat) : Nat :=
  if s.format / 16 = 2 then s.word d (1 + which) cy (2 * cx) else s.word d 1 cy (4 * cx + 2 * which)

/-- Two chroma values of neighbouring samples, weighed in quarters. -/
def mix4 (a b : Rat) (wa wb : Nat) : Rat := fdiv (fadd (fmul (wa : Rat) a) (fmul (wb : Rat) b)) 4

/-- A chroma component at a pixel, interpolated linearly from its siting (R221); `value` is what a stored code counts as. -/
def Stored.chromaAt (s : Stored) (d : Dev) (value : Rat → Rat) (x y which : Nat) : Rat :=
  let c := fun (cx cy : Nat) => value (s.chroma d cx cy which)
  let across := fun (cy : Nat) => if x % 2 = 0 then c (x / 2) cy else fdiv (fadd (c (x / 2) cy) (c (min (x / 2 + 1) ((s.w - 1) / 2)) cy)) 2
  match s.format / 16 with
  | 2 => c x y
  | 3 => across y
  | _ => if y % 2 = 0 then mix4 (across (y / 2)) (across (y / 2 - 1)) 3 1 else mix4 (across (y / 2)) (across (min (y / 2 + 1) ((s.h - 1) / 2))) 3 1

/-- A stored pixel, dequantised with a range and then brought to full chroma: R'G'B' or Y'CbCr in r, g, b, and its own alpha
(R318). -/
def Stored.pixel (s : Stored) (d : Dev) (range x y : Nat) : Pixel :=
  let n := formatDepth s.format
  match s.format / 16 with
  | 0 => if s.format = 1 then
      let q := fun k => hp (s.word d 0 y (8 * x + 2 * k))
      { r := q 0, g := q 1, b := q 2, a := q 3 }
    else
      let v := s.wide d 0 y (4 * x) 4
      { r := dequantLuma 10 range (bits v 9 0), g := dequantLuma 10 range (bits v 19 10), b := dequantLuma 10 range (bits v 29 20)
        a := fdiv ((bits v 31 30 : Nat) : Rat) 3 }
  | 1 =>
    let q := fun k => dequantLuma n range (s.word d 0 y (6 * x + 2 * k))
    { r := q 0, g := q 1, b := q 2, a := 1 }
  | _ => { r := dequantLuma n range (s.word d 0 y (2 * x)), g := s.chromaAt d (dequantChroma n range) x y 0
           b := s.chromaAt d (dequantChroma n range) x y 1, a := 1 }

/-- A format holds Y'CbCr. -/
def formatYcc (f : Nat) : Bool := 2 ≤ f / 16

/-- Chroma filtered (1, 2, 1) ÷ 4 at an even column, mirrored at the edges of a picture `w` wide. -/
def chroma422 (w : Nat) (c : Nat → Rat) (u : Nat) : Rat :=
  let l := c (if u = 0 then min 1 (w - 1) else u - 1)
  let r := c (if u + 1 ≥ w then u - 1 else u + 1)
  fdiv (fadd (fadd l (fmul 2 (c u))) r) 4

/-- The bytes of one pixel of a one-plane format. -/
def packPixel (format range : Nat) (alpha : Rat) (p : Pixel) : List Byte :=
  if format = 1 then le 2 (bits16 p.r) ++ le 2 (bits16 p.g) ++ le 2 (bits16 p.b) ++ le 2 (bits16 alpha)
  else if format = 2 then
    le 4 (quantLuma 10 range p.r + 2 ^ 10 * quantLuma 10 range p.g + 2 ^ 20 * quantLuma 10 range p.b + 2 ^ 30 * quantLuma 2 0 alpha)
  else
    let n := formatDepth format
    le 2 (quantLuma n range p.r) ++ le 2 (quantLuma n range p.g) ++ le 2 (quantLuma n range p.b)

/-- What one output pixel writes: (plane, row, byte offset, bytes). `p` gives the graded pixel of the branch's picture,
already in Y'CbCr for the formats that hold it. -/
def encodePixel (b : BranchSet) (p : Nat → Nat → Pixel) (u v : Nat) : List (Nat × Nat × Nat × List Byte) :=
  let f := b.format
  let n := formatDepth f
  let x := p u v
  match f / 16 with
  | 0 => [(0, v, u * formatBytes f, packPixel f b.range (if b.alpha = 1 then x.a else 1) x)]
  | 1 => [(0, v, 6 * u, packPixel f b.range 1 x)]
  | 2 => [(0, v, 2 * u, le 2 (quantLuma n b.range x.r)), (1, v, 2 * u, le 2 (quantChroma n b.range x.g)), (2, v, 2 * u, le 2 (quantChroma n b.range x.b))]
  | k =>
    let y := (0, v, 2 * u, le 2 (quantLuma n b.range x.r))
    let cb := fun (row : Nat) => chroma422 b.outW (fun i => (p i row).g) u
    let cr := fun (row : Nat) => chroma422 b.outW (fun i => (p i row).b) u
    if u % 2 = 1 then [y]
    else if k = 3 then [y, (1, v, 2 * u, le 2 (quantChroma n b.range (cb v)) ++ le 2 (quantChroma n b.range (cr v)))]
    else if v % 2 = 0 then [y]
    else
      let mean := fun (c : Nat → Rat) => fdiv (fadd (c (v - 1)) (c v)) 2
      [y, (1, v / 2, 2 * u, le 2 (quantChroma n b.range (mean cb)) ++ le 2 (quantChroma n b.range (mean cr)))]

/-- A pixel of a branch's picture as step 12 takes it. -/
def branchPixel (b : BranchSet) (working : Nat) (l : LutTables) (w h : Nat) (core : Region Pixel) (u v : Nat) : Pixel :=
  let p := b.gradePixel working l (scalePixel b w h core u v)
  if formatYcc b.format then toYcc b.ycc p else p

/-- The source photosite of an output pixel (R219). -/
def branchSrcCol (b : BranchSet) (w h u : Nat) : Nat :=
  let c := b.crop w h
  ((c.1 : Rat) + ((u : Rat) + 1 / 2) * (c.2.2.1 : Rat) / (b.outW : Rat) - 1 / 2).floor.toNat

/-- The output pixels that belong to a tile (R219). -/
def tilePixels (b : BranchSet) (w h row col : Nat) : List (Nat × Nat) :=
  let us := (List.range b.outW).filter fun u => min (branchSrcCol b w h u / 256) (tilesW w - 1) = col
  let vs := (List.range b.outH).filter fun v => branchTileRow b w h v = row
  vs.flatMap fun v => us.map fun u => (u, v)

/-- What a job writes for a branch's tile: (byte offset in the slot, bytes). -/
def branchTile (b : BranchSet) (working : Nat) (l : LutTables) (w h : Nat) (core : Region Pixel) (row col : Nat) : List (Nat × List Byte) :=
  let p := branchPixel b working l w h core
  let st := formatStride b.format b.outW
  (tilePixels b w h row col).flatMap fun (u, v) => (encodePixel b p u v).map fun (pl, r, o, bs) =>
    (formatOffset b.format b.outW b.outH pl + r * st + o, bs)

/-- Black in a branch's output encoding (Table 6.2). -/
def blackPixel (_ _ : Nat) : Pixel := {}

/-- What the same pixels hold when they are black. -/
def blackTile (b : BranchSet) (w h row col : Nat) : List (Nat × List Byte) :=
  let st := formatStride b.format b.outW
  (tilePixels b w h row col).flatMap fun (u, v) => (encodePixel b blackPixel u v).map fun (pl, r, o, bs) =>
    (formatOffset b.format b.outW b.outH pl + r * st + o, bs)

end Sys2Proof.Machine
end

