-- ==== Sys2Proof/Machine/FrameOut.lean ====
section
/-! DEFINITION. The records of a stream's outputs and their completion: branches (R223, R224, Table 8.5), raw taps (R244,
Table 9.5) and statistics (R236 to R240, Tables 9.1 to 9.3). -/

namespace Sys2Proof.Machine

/-- Leading rows of a branch's picture that are written (Table 8.5). -/
def rowsComplete (b : BranchSet) (size : Nat × Nat) (o : FrameOutput) : Nat :=
  match o.rowsLeft.findIdx? (· ≠ 0) with
  | some k => (List.range b.outH).countP fun v => branchTileRow b size.1 size.2 v < k
  | none => b.outH

/-- Sources of a map that carry pixels. -/
def pixelSources (l : List LaneEntry) : List LaneEntry := l.filter fun e => e.dataType ≠ 0x12

/-- A source of a map carries a column of a plane. -/
def LaneEntry.carries (e : LaneEntry) (c : FurrowConfig) (g x : Nat) : Bool :=
  (c.dualGain ≠ 1 || e.plane = g) && e.start ≤ x && (x - e.start) % max 1 e.step = 0

/-- The coefficients of R233. -/
def lumaCoeffs (working : Nat) : List Rat :=
  if working = 2 then [dec 2722287 10000000, dec 6740818 10000000, dec 536895 10000000]
  else [dec 3439664 10000000, dec 7281661 10000000, -(dec 721325 10000000)]

/-- Counts are kept apart by source, because a lane found to have failed takes its sites of the whole frame out of them
(R230). -/
def sourceKey (src k : Nat) : Nat := src * 2 ^ 20 + k

/-- The zone window with its zeros resolved (Table 9.9). -/
def StatsSet.window (s : StatsSet) (w h : Nat) : Nat × Nat × Nat × Nat :=
  (s.zoneX, s.zoneY, if s.zoneW = 0 then w - s.zoneX else s.zoneW, if s.zoneH = 0 then h - s.zoneY else s.zoneH)

/-! ## Records -/

/-- The flags of a branch's or tap's record (Table 8.5), from the source frame's. -/
def outputFlags (r : FrameRecord) (o : FrameOutput) : Nat :=
  boolNat (bit r.flags 0) + 2 * boolNat (bit r.flags 5) + 4 * boolNat (bit r.flags 7) + 8 * boolNat (o.concealed ≠ 0)
    + 16 * boolNat (o.before ≠ 0) + 32

/-- The record of a complete branch frame. -/
def branchRecord (d : Dev) (n k : Nat) (w : FrameWork) (r : FrameRecord) (o : FrameOutput) : SlotRecord :=
  let b := tabGet w.settings.branches k
  { frame := w.number, branch := 0x3000 + 8 * n + k, format := b.format, flags := outputFlags r o, epoch := w.epoch
    domain := streamDomain d n, sofSeconds := w.sofSeconds, sofNs := w.sofNs, doneStamp := shortStamp (domainNow d (streamDomain d n))
    rowsComplete := b.outH, concealed := o.concealed, skippedBefore := min o.before (2 ^ 32 - 1), width := b.outW, height := b.outH }

/-- Planes that a tap writes. -/
def planesOfTap (c : FurrowConfig) (point : Nat) : Nat := if point ≤ 2 then c.planes else 1

/-- The record of a complete tap frame (Table 9.5). -/
def tapRecord (d : Dev) (n point : Nat) (c : FurrowConfig) (w : FrameWork) (r : FrameRecord) (o : FrameOutput) : List Byte :=
  let t := tabGet w.settings.taps point
  let (cx, cy, cw, ch) := t.crop c.width c.height
  let st := tapStride t.format cw c.depthBits
  let planes := planesOfTap c point
  let td := streamDomain d n
  le 8 w.number ++ le 2 (0x2000 + n) ++ le 1 point ++ le 1 t.format ++ le 4 (outputFlags r o) ++ le 4 w.epoch ++ le 1 td ++ le 3 0
    ++ fullTimeBytes { seconds := w.sofSeconds, ns := w.sofNs } ++ le 4 (shortStamp (domainNow d td))
    ++ le 2 cx ++ le 2 cy ++ le 2 cw ++ le 2 ch ++ le 1 planes ++ le 1 c.depthBits ++ le 2 0
    ++ le 4 0x1000 ++ le 4 (if planes = 2 then 0x1000 + roundUp (st * ch) 4096 else 0) ++ le 4 st ++ le 4 o.concealed
    ++ le 4 (min o.before (2 ^ 32 - 1)) ++ List.replicate 56 0

/-- A source of the counts had no lane filled: `src` names the sources of its two planes. -/
def sourceCounted (c : FurrowConfig) (w : FrameWork) (src : Nat) : Bool :=
  let clean := fun (k : Nat) => (sourceLanes c [tabGet (pixelSources w.map) k]).all fun l => !bit w.laneFill l
  w.laneFill = 0 || (clean (src / 128) && clean (src % 128))

/-- Counts whose sources are counted, summed by what follows the source in their keys. -/
def foldKept (keep : Nat → Bool) (m : NMap Nat) : NMap Nat :=
  m.foldl (fun acc e => if keep (e.1 / 2 ^ 20) then
    let k := e.1 % 2 ^ 20
    mapSet acc k (mapGetD acc k 0 + e.2) else acc) []

/-- Two zones added. -/
def Zone.add (a b : Zone) : Zone :=
  { sum := a.sum.zipWith (· + ·) b.sum, n := a.n.zipWith (· + ·) b.n, clipped := a.clipped.zipWith (· + ·) b.clipped }

/-- A zone's record (Table 9.1). -/
def Zone.bytes (z : Zone) : List Byte := z.sum.flatMap (leInt 8) ++ z.n.flatMap (le 4) ++ z.clipped.flatMap (le 4)

/-- Where a frame's statistics are due, of the module's clock (R238). -/
def statsBound (d : Dev) (n : Nat) (w : FrameWork) : Nat :=
  let fend := w.frameEnd.getD d.now
  if w.settings.stats.cls = 0 then fend + 1000000 else fend + (d.stream n).minPeriod + 20000

/-- The bytes of a statistics slot (Table 9.2). -/
def statsBytes (d : Dev) (n : Nat) (c : FurrowConfig) (w : FrameWork) (r : FrameRecord) (flags : Nat) : List Byte :=
  let s := w.settings.stats
  let td := streamDomain d n
  let keep := sourceCounted c w
  let raw := foldKept keep w.fold.raw
  let luma := foldKept keep w.fold.luma
  let zones := w.fold.zones.foldl (fun (acc : NMap Zone) e => if keep (e.1 / 2 ^ 20) then
    let k := e.1 % 2 ^ 20
    mapSet acc k ((mapGetD acc k {}).add e.2) else acc) []
  let (x, y, ww, wh) := s.window c.width c.height
  let head := le 8 w.number ++ le 2 (0x2000 + n) ++ le 2 0 ++ le 4 flags ++ le 4 w.epoch ++ le 1 td ++ le 1 s.mode ++ le 1 s.point ++ le 1 0
    ++ fullTimeBytes { seconds := w.sofSeconds, ns := w.sofNs } ++ le 4 r.eofStamp ++ le 4 (shortStamp (domainNow d td))
    ++ le 2 r.fillFirst ++ le 2 0 ++ le 4 (sumOf (·.2) raw) ++ le 4 w.fold.omitted ++ le 2 x ++ le 2 y ++ le 2 ww ++ le 2 wh
    ++ (lumaCoeffs w.settings.colour.working).flatMap (fun k => le 4 (bits32 k)) ++ List.replicate 52 0
  head ++ List.replicate (0x1000 - 128) 0
    ++ (List.range 1280).flatMap (fun k => le 4 (mapGetD raw k 0)) ++ (List.range 1024).flatMap (fun k => le 4 (mapGetD luma k 0))
    ++ (List.range 3072).flatMap (fun k => (mapGetD zones k {}).bytes)

/-! ## Slots -/

/-- The record of a slot that a frame takes says that nothing of the frame is there yet: its flags, COMPLETE among them, are 0, and
so are a branch's complete rows (Tables 8.5, 9.2 and 9.5). -/
def beginRecord (pail base : Nat) (branch : Bool) (d : Dev) : Dev :=
  let d := pailWrite pail (base + 12) (le 4 0) d
  if branch then pailWrite pail (base + 40) (le 2 0) d else d

/-- The next slot of an output ring, where nobody holds it. -/
def takeSlot (o pail depth size : Nat) (d : Dev) : Option Nat × Dev :=
  let r := ringOf d o
  let slot := r.next % max 1 depth
  if r.held slot ≠ [] then (none, d)
  else (some slot, pailWrite pail (slot * size) (le 8 0) (onRingOf o (fun r => ({ r with next := (slot + 1) % max 1 depth, skippedBefore := 0 }).hold slot o) d))

/-- An output skips a frame; its event comes at most once a second (R224, R245). -/
def skipFrame (o code : Nat) (src : Nat) (head : List Byte) (frame td : Nat) (d : Dev) : Dev :=
  let d := onRingOf o (fun r => { r with skippedBefore := r.skippedBefore + 1, skipsSinceEvent := r.skipsSinceEvent + 1, skips := min (2 ^ 32 - 1) (r.skips + 1) }) d
  let r := ringOf d o
  let due : Bool := match r.lastEvent with
    | some t => t + 1000000000 ≤ d.now
    | none => true
  if due then
    let d := onRingOf o (fun r => { r with skipsSinceEvent := 0, lastEvent := some d.now }) d
    raise code 2 src (head ++ le 4 r.skipsSinceEvent ++ le 4 frame) d (td := td) (frame := frame)
  else d

/-! ## Completion -/

/-- A slot of an output is complete: the ring's latest, unless the ring was replaced, and no longer the writer's. -/
def completeSlot (o slot frame epoch : Nat) (d : Dev) : Dev :=
  let d := onRingOf o (fun r =>
    let old : Bool := r.retiring.any fun e => o ∈ mapGetD e.2 slot []
    let r := if !old && o ∈ r.held slot then { r with lastSlot := some slot, lastFrame := frame, lastEpoch := epoch } else r
    r.drop slot o) d
  recorderTake o slot frame d

/-- Changes a branch's, a tap's and the statistics' output of a frame. -/
def onBranchOut (n frame k : Nat) (f : FrameOutput → FrameOutput) : Dev → Dev :=
  onWork n frame fun w => { w with branchOut := tabMod w.branchOut k f }
def onTapOut (n frame k : Nat) (f : FrameOutput → FrameOutput) : Dev → Dev :=
  onWork n frame fun w => { w with tapOut := tabMod w.tapOut k f }
def onStatsOut (n frame : Nat) (f : FrameOutput → FrameOutput) : Dev → Dev :=
  onWork n frame fun w => { w with statsOut := f w.statsOut }

/-- An output whose tiles are all done. -/
def FrameOutput.ripe (o : FrameOutput) : Bool := o.slot.isSome && !o.done && o.tilesLeft = 0

/-- A branch's frame is complete. -/
def completeBranch (n k : Nat) (w : FrameWork) (r : FrameRecord) (d : Dev) : Dev :=
  let o := tabGet w.branchOut k
  match o.slot with
  | some slot =>
    if o.ripe then
      let d := writeRecord (tabGet w.settings.branches k).pail slot (branchRecord d n k w r o) d
      completeSlot (0x3000 + 8 * n + k) slot w.number w.epoch (onBranchOut n w.number k (fun o => { o with done := true }) d)
    else d
  | none => d

/-- A tap's frame is complete. -/
def completeTap (n point : Nat) (c : FurrowConfig) (w : FrameWork) (r : FrameRecord) (d : Dev) : Dev :=
  let o := tabGet w.tapOut point
  match o.slot with
  | some slot =>
    if o.ripe then
      let t := tabGet w.settings.taps point
      let (_, _, cw, ch) := t.crop c.width c.height
      let size := tapSlot t.format cw ch c.depthBits (planesOfTap c point)
      let d := pailWrite t.pail (slot * size) (tapRecord d n point c w r o) d
      completeSlot (tapRef n point) slot w.number w.epoch (onTapOut n w.number point (fun o => { o with done := true }) d)
    else d
  | none => d

/-- A statistics record is complete (R237 to R240). -/
def completeStats (n : Nat) (c : FurrowConfig) (w : FrameWork) (r : FrameRecord) (d : Dev) : Dev :=
  match w.statsOut.slot with
  | some slot =>
    if w.statsOut.ripe then
      let s := w.settings.stats
      let bound := statsBound d n w
      let late : Bool := decide (bound < d.now)
      let td := streamDomain d n
      let flags := boolNat (bit r.flags 0) + 2 * boolNat (bit r.flags 5) + 4 * boolNat (bit r.flags 7) + 8 * boolNat (w.fold.omitted ≠ 0)
        + 16 * boolNat (bit r.flags 8) + 32 + 64 * boolNat late
      let d := pailWrite s.pail (slot * statsSlot) (statsBytes d n c w r flags) d
      let d := onRingOf (statsRef n) (fun g => { g with lastSlot := some slot, lastFrame := w.number, lastEpoch := w.epoch }) d
      let d := onStatsOut n w.number (fun o => { o with done := true }) d
      let us := (shortStamp (domainNow d td) + 2 ^ 32 - r.eofStamp) % 2 ^ 32 / 1000
      let d := if s.notify then
        raise 0x0680 0 (0x2000 + n) (le 2 (0x2000 + n) ++ le 1 slot ++ le 1 flags ++ le 4 w.number ++ le 4 w.epoch ++ le 4 us) d (td := td) (frame := w.number)
      else d
      if !late then d
      else
        let d := count (0x2000 + n) 8 1 d
        if s.cls ≠ 0 then d
        else
          let d := d.onStream n fun s => { s with statsLateSince := s.statsLateSince + 1 }
          let due : Bool := match (d.stream n).statsEvent with
            | some t => t + 1000000000 ≤ d.now
            | none => true
          if due then
            let since := (d.stream n).statsLateSince
            let d := d.onStream n fun s => { s with statsLateSince := 0, statsEvent := some d.now }
            raise 0x0681 2 (0x2000 + n) (le 2 (0x2000 + n) ++ le 4 ((d.now - bound) / 1000) ++ le 4 since) d (td := td) (frame := w.number)
          else d
    else d
  | none => d

/-- A frame carries SETTINGS_SUSPECT (R106). -/
def suspectFrame (s : Stream) (frame : Nat) : Bool :=
  !s.suspectGroups.isEmpty || ((s.suspectFrom.any fun f => f ≤ frame) && (s.suspectTo.all fun t => frame ≤ t))

/-- The record of a frame (Table 5.5). -/
def recordOf (d : Dev) (i : Nat) (c : FurrowConfig) (fr : FrameInProgress) : FrameRecord :=
  let flag := fun (p : Bool) (k : Nat) => boolNat p * 2 ^ k
  let filled := fr.fillFrom.getD c.height
  let t := fullTime fr.sof
  { number := fr.number, stream := c.stream, furrow := i
    flags := flag fr.short 0 + flag (fr.discarded ≠ 0) 1 + flag (fr.shortLines ≠ 0) 2 + flag (fr.longLines ≠ 0) 3 + flag (fr.crcLines ≠ 0) 4
      + flag (fr.laneFill ≠ 0) 5 + flag fr.overflow 6 + flag (suspectFrame (d.stream c.stream) fr.number) 7 + flag fr.first 8 + flag (fr.dropped ≠ 0) 9
    epoch := fr.epoch, domain := c.domain, sofSeconds := t.seconds, sofNs := t.ns, eofStamp := shortStamp fr.lastAt
    rowsReceived := fr.rows, fillFirst := filled, shortLines := min 65535 fr.shortLines, longLines := min 65535 fr.longLines
    crcLines := min 65535 fr.crcLines, discarded := min (2 ^ 32 - 1) fr.discarded, droppedBefore := min (2 ^ 32 - 1) fr.dropped
    lineTimeNs := (d.furrow i).lineTimeNs, laneFill := fr.laneFill, embedded := fr.embedded }

/-- The frame record's fields as far as the outputs of a frame need them: as delivered, or once the last row is there, which a long
frame's delivery may follow by some time (R130, R237). -/
def recordNow (d : Dev) (n : Nat) (w : FrameWork) : Option FrameRecord :=
  w.delivered.orElse fun _ =>
    match furrowOf d n with
    | some (i, c) =>
      let f := d.furrow i
      ((f.current.toList ++ f.ending).find? fun x => x.number = w.number && (x.rows ≥ c.height || (x.fillFrom.isSome && x.fillAt.isNone))).map (recordOf d i c)
    | none => none

/-- The outputs of a frame that are ripe are completed. -/
def settleOutputs (n frame : Nat) (d : Dev) : Dev :=
  match workOf d n frame with
  | some w =>
    match recordNow d n w with
    | some r =>
      if w.withdrawn then d
      else
        let d := (List.range w.branchOut.length).foldl (fun d k => completeBranch n k w r d) d
        match furrowOf d n with
        | some (_, c) => completeStats n c w r ((List.range w.tapOut.length).foldl (fun d p => completeTap n p c w r d) d)
        | none => d
    | none => d
  | none => d

end Sys2Proof.Machine
end

