-- ==== Sys2Proof/Machine/EncInput.lean ====
section
/-! DEFINITION. What an encoder session codes from and towards: the input stage (R270, R274), the parameter sets (R271, R272), the
reconstruction frames and the seed buffers of its pail (R192, R279, R285, R287), and its motion search (R280). -/

namespace Sys2Proof.Machine

/-- How a plane is subsampled, by chroma code. -/
def subsample (chroma plane : Nat) : Nat × Nat := if plane = 0 then (1, 1) else match chroma with
  | 0 => (2, 2)
  | 1 => (2, 1)
  | _ => (1, 1)

/-! ## The input stage (R270, R274) -/

/-- The place, in a picture `w` × `h`, of what a clockwise rotation puts at (x, y). -/
def unrotate (rotation w h x y : Nat) : Nat × Nat := match rotation with
  | 1 => (y, h - 1 - x)
  | 2 => (w - 1 - x, h - 1 - y)
  | 3 => (w - 1 - y, x)
  | _ => (x, y)

/-- A mean rounded half up. -/
def meanHalfUp (l : List Nat) : Nat := (2 * sumOf id l + l.length) / (2 * max 1 l.length)

/-- A sample of `n` bits coded at depth `d` (R270). -/
def codedAt (d n x : Nat) : Nat := min (2 ^ d - 1) (roundUpHalf ((x : Rat) * 2 ^ d / 2 ^ n)).toNat

/-- The branch picture that a frame's session codes, as it is stored. -/
def EncFrame.source (f : EncFrame) : Stored :=
  let b := f.branch
  storedSlot b.pail (f.sourceSlot * b.slotSize) b.format b.outW b.outH

/-- A sample of the source: of plane 0, or of chroma plane 1 or 2 by its own column and row. -/
def Stored.sample (s : Stored) (d : Dev) (plane x y : Nat) : Nat :=
  if plane = 0 then s.word d 0 y (2 * x) else s.chroma d x y (plane - 1)

/-- A sample after the mirror and the boxes, which chroma takes over its own samples (R274). -/
def boxedSample (d : Dev) (f : EncFrame) (chroma plane x y : Nat) : Nat :=
  let s := f.source
  let w := s.w / (subsample chroma plane).1
  let bx := 2 ^ f.enc.decX
  let by' := 2 ^ f.enc.decY
  meanHalfUp ((List.range by').flatMap fun j => (List.range bx).map fun i =>
    let c := x * bx + i
    s.sample d plane (if f.enc.hflip then w - 1 - c else c) (y * by' + j))

/-- A sample of the picture that a session codes, of a plane by its own column and row; the last column and row repeat beyond it. A
chroma sample is found through the luma sample at its siting. -/
def inputSample (d : Dev) (codec : Nat) (f : EncFrame) (plane x y : Nat) : Nat :=
  let chroma := profileChroma codec f.enc.profile
  let (sx, sy) := subsample chroma plane
  let turned : Bool := f.enc.rotation % 2 = 1
  let (w, h) := if turned then (f.h, f.w) else (f.w, f.h)
  let (lx, ly) := unrotate f.enc.rotation w h (sx * min x (f.w / sx - 1)) (sy * min y (f.h / sy - 1))
  codedAt (codedDepth f.enc.profile) f.bits (boxedSample d f chroma plane (lx / sx) (ly / sy))

/-! ## Parameter sets (R271, R272) -/

/-- Table 11.3's colour_primaries, transfer_characteristics and matrix_coefficients of a branch. -/
def colourPrimaries (b : BranchSet) : Nat := match b.m2.builtin with
  | 3 => 1
  | 4 => 9
  | 5 => 12
  | _ => 2
def transferCode (b : BranchSet) : Nat := match b.transfer with
  | 3 => 16
  | 4 => 18
  | 5 => 1
  | 6 => 13
  | _ => 2
def matrixCode (b : BranchSet) : Nat := match b.ycc with
  | 1 => 1
  | 2 => 9
  | _ => 2

/-- The parameter sets of a frame's picture. -/
def paramSets (codec : Nat) (f : EncFrame) : ParamSets :=
  { primaries := colourPrimaries f.branch, transfer := transferCode f.branch, matrix := matrixCode f.branch, fullRange := f.branch.range = 0
    profile := f.enc.profile, level := (signalledLevel codec f.enc f.rc f.w f.h f.period).getD f.enc.level, tier := f.enc.tier
    width := f.w, height := f.h, kbps := f.rc.maxKbps, cpbBytes := f.rc.cpb, cbr := f.rc.mode = 0 }

/-- The values of parameter sets, as their NAL units say them. -/
def ParamSets.values (p : ParamSets) : List Int :=
  [p.primaries, p.transfer, p.matrix, boolNat p.fullRange, p.profile, p.level, p.tier, p.width, p.height, p.kbps, p.cpbBytes, boolNat p.cbr].map
    fun (n : Nat) => (n : Int)

/-- A NAL unit in Annex B form: its start code, the header of its type, and its payload (PRESUMED: the headers and the type codes of
ITU-T H.265 and H.264). -/
def nalUnit (codec type : Nat) (values : List Int) : List Byte :=
  be 4 1 ++ (if codec = 1 then be 2 (512 * type + 1) else be 1 ((if type = 7 || type = 8 then 0x60 else 0) + type)) ++ Config.nalPayload codec type values

/-- What stands before the slices of an access unit (Table 11.2): the AUD; the parameter sets and a buffering period SEI with an IDR;
a picture timing SEI; and a recovery point SEI at the start of an intra-refresh sweep. -/
def unitHeader (codec : Nat) (f : EncFrame) : List Byte :=
  let sei := if codec = 1 then 39 else 6
  nalUnit codec (if codec = 1 then 35 else 9) [boolNat (!f.idr)]
    ++ (if f.idr then ((if codec = 1 then [32, 33, 34] else [7, 8]).flatMap fun t => nalUnit codec t f.sets.values)
        ++ nalUnit codec sei [0, f.level, f.sets.kbps, f.sets.cpbBytes] else [])
    ++ nalUnit codec sei [1, f.poc] ++ (if f.refresh = some 0 then nalUnit codec sei [6, f.enc.refreshPeriod] else [])

/-! ## The session's pail (R192, R279, R287) -/

/-- Bytes of a reconstruction frame. -/
def reconBytes (codec : Nat) (c : EncConfig) (w h : Nat) : Nat :=
  let p := paddedSize codec c w h
  roundUp (p.1 * p.2 * chromaBytes (profileChroma codec c.profile)) 65536

/-- Where reconstruction frame `k` and seed buffer `k` start. -/
def reconBase (codec : Nat) (c : EncConfig) (r : RateControl) (w h k : Nat) : Nat := c.depth * encSlot r + k * reconBytes codec c w h
def seedBase (codec : Nat) (c : EncConfig) (r : RateControl) (w h : Nat) (image : Nat × Nat) (k : Nat) : Nat :=
  reconBase codec c r w h 2 + k * roundUp (fieldBytes image.1 image.2) 4096

/-- Where a sample stands in a reconstruction frame: luma, and then the chroma samples in pairs, all in 16 bits. -/
def reconOffset (codec : Nat) (c : EncConfig) (w h plane x y : Nat) : Nat :=
  let p := paddedSize codec c w h
  let s := subsample (profileChroma codec c.profile) plane
  if plane = 0 then 2 * (y * p.1 + x) else 2 * p.1 * p.2 + 4 * (y * (p.1 / s.1) + x) + 2 * (plane - 1)

/-- A sample of the reconstruction frame `k`, its edges repeated. -/
def reconSample (d : Dev) (codec : Nat) (f : EncFrame) (k plane : Nat) (x y : Int) : Nat :=
  let p := paddedSize codec f.enc f.w f.h
  let s := subsample (profileChroma codec f.enc.profile) plane
  let hold := fun (v : Int) (n : Nat) => (clampInt v 0 ((n : Int) - 1)).toNat
  unle (pailRead d f.enc.pail (reconBase codec f.enc f.rc f.w f.h k + reconOffset codec f.enc f.w f.h plane (hold x (p.1 / s.1)) (hold y (p.2 / s.2))) 2)

/-- The place and the size of a segment in the coded picture. -/
def segmentRect (codec : Nat) (c : EncConfig) (w h i seg : Nat) : Nat × Nat × Nat × Nat :=
  let rows := encSwathRows codec c
  let x := if codec = 1 then tileStart (ceilDiv w (ctuSize 1 c)) c.tileCols seg * ctuSize 1 c else 0
  (x, rows * i, segmentWidth codec c w seg, swathRows h rows i)

/-- The reconstruction of a segment goes into its frame's reconstruction frame. -/
def writeRecon (codec : Nat) (f : EncFrame) (i seg : Nat) (planes : List (List (List Nat))) (d : Dev) : Dev :=
  let (x0, y0, w, h) := segmentRect codec f.enc f.w f.h i seg
  let base := reconBase codec f.enc f.rc f.w f.h f.recon
  (indexed (planes.take 3)).foldl (fun d p =>
    let (sx, sy) := subsample (profileChroma codec f.enc.profile) p.1
    (indexed (p.2.take (h / sy))).foldl (fun d row => (indexed (row.2.take (w / sx))).foldl (fun d v =>
      pailWrite f.enc.pail (base + reconOffset codec f.enc f.w f.h p.1 (x0 / sx + v.1) (y0 / sy + row.1)) (le 2 v.2) d) d) d) d

/-- The samples of a segment that is not coded: of a P picture the reference's at the same place, of an IDR mid-grey (R285). -/
def concealedSegment (d : Dev) (codec : Nat) (f : EncFrame) (i seg : Nat) : List (List (List Nat)) :=
  let (x0, y0, w, h) := segmentRect codec f.enc f.w f.h i seg
  (List.range 3).map fun p =>
    let (sx, sy) := subsample (profileChroma codec f.enc.profile) p
    (List.range (h / sy)).map fun y => (List.range (w / sx)).map fun x =>
      if f.idr then 2 ^ (codedDepth f.enc.profile - 1) else reconSample d codec f (1 - f.recon) p ((x0 / sx + x : Nat) : Int) ((y0 / sy + y : Nat) : Int)

/-- A completed field is copied into the seed buffers of the encoder sessions bound to its stream, in each into the one that holds the
older frame (R192, R287). -/
def copySeeds (n : Nat) (image : List Byte) (d : Dev) : Dev :=
  d.codecs.encoders.foldl (fun d x =>
    let e := x.2
    if e.codec ≠ 0 && e.configured && encoderStream e = some n then
      match seedField d e.enc.source with
      | some size =>
        let z := encCoded d e.enc
        let at1 := seedBase e.codec e.enc e.rc z.1 z.2 size
        let frame := fun k => unle (pailRead d e.enc.pail (at1 k) 8)
        pailWrite e.enc.pail (at1 (if frame 0 ≤ frame 1 then 0 else 1)) image d
      | none => d
    else d) d

/-! ## Seeds and search (R279, R280) -/

/-- A session has no seeds for a frame (R279). -/
def lacksSeeds (d : Dev) (f : EncFrame) : Bool :=
  let n := (branchOf f.enc.source).1
  f.enc.noSeeds || n ≥ 16 || !(d.stream n).bound.motion.enable

/-- The seed buffer that a frame reads: that of its own frame, or for class L of the frame before it. -/
def seedBuffer (d : Dev) (codec : Nat) (f : EncFrame) : Option Nat :=
  let base := seedBase codec f.enc f.rc f.w f.h f.image
  let of := fun k => unle (pailRead d f.enc.pail (base k) 8)
  if f.enc.cls = 0 then
    let l := [0, 1].filter fun k => of k ≠ 0 && of k < f.number
    (l.find? fun k => l.all fun j => of j ≤ of k).map base
  else ([0, 1].find? fun k => of k = f.number).map base

/-- The photosite on which the centre of a block of the coded picture falls: back through rotation, mirror, boxes, scaler and crop. -/
def seedSite (f : EncFrame) (bx by' : Nat) : Nat × Nat :=
  let b := f.branch
  let (cx, cy, cw, ch) := b.crop f.image.1 f.image.2
  let x : Rat := 16 * bx + 8
  let y : Rat := 16 * by' + 8
  let (u, v) := match f.enc.rotation with
    | 1 => (y, (f.w : Rat) - x)
    | 2 => ((f.w : Rat) - x, (f.h : Rat) - y)
    | 3 => ((f.h : Rat) - y, x)
    | _ => (x, y)
  let px := u * 2 ^ f.enc.decX
  let px := if f.enc.hflip then (b.outW : Rat) - px else px
  let sx := (cx : Rat) + px * (cw : Rat) / (b.outW : Rat)
  let sy := (cy : Rat) + v * 2 ^ f.enc.decY * (ch : Rat) / (b.outH : Rat)
  (min (f.image.1 - 1) sx.floor.toNat, min (f.image.2 - 1) sy.floor.toNat)

/-- A field vector as it lies in the coded picture, in ¼ pel. -/
def seedVector (f : EncFrame) (vx vy : Int) : Int × Int :=
  let b := f.branch
  let (_, _, cw, ch) := b.crop f.image.1 f.image.2
  let x : Rat := (vx : Rat) * (b.outW : Rat) / (cw : Rat) / 2 ^ f.enc.decX
  let y : Rat := (vy : Rat) * (b.outH : Rat) / (ch : Rat) / 2 ^ f.enc.decY
  let x := if f.enc.hflip then -x else x
  let (u, v) := match f.enc.rotation with
    | 1 => (-y, x)
    | 2 => (-x, -y)
    | 3 => (y, -x)
    | _ => (x, y)
  (clampInt (roundAway u) (-8192) 8192, clampInt (roundAway v) (-(4 * f.enc.mvVRange : Nat)) (4 * f.enc.mvVRange : Nat))

/-- The seed of a 16 × 16 block of the coded picture (R279). -/
def seedOf (d : Dev) (codec : Nat) (f : EncFrame) (bx by' : Nat) : Int × Int :=
  if lacksSeeds d f then (0, 0)
  else match seedBuffer d codec f with
    | none => (0, 0)
    | some base =>
      let (x, y) := seedSite f bx by'
      let rec0 := pailRead d f.enc.pail (base + 0x1000 + 8 * (y / 16 * ceilDiv f.image.1 16 + x / 16)) 8
      if bit (u8 rec0 7) 0 || bit (u8 rec0 7) 3 then seedVector f (i16 rec0 0) (i16 rec0 2) else (0, 0)

/-- A sample predicted at a displacement in ¼ pel of luma, from a picture's samples. -/
def predicted (codec chroma plane bits : Nat) (at1 : Int → Int → Nat) (x y vx vy : Int) : Nat :=
  let (sx, sy) := subsample chroma plane
  let (qx, qy) := ((4 * sx : Nat), (4 * sy : Nat))
  let (ix, iy) := (x + vx / qx, y + vy / qy)
  let (fx, fy) := ((vx % qx).toNat, (vy % qy).toNat)
  if fx = 0 && fy = 0 then at1 ix iy
  else Config.subpel codec (plane ≠ 0) fx fy ((List.range 8).flatMap fun j => (List.range 8).map fun i => at1 (ix + i - 3) (iy + j - 3)) % 2 ^ bits

/-- The last row of the reference that a swath may use (R277). -/
def referenceRow (codec : Nat) (f : EncFrame) (i : Nat) : Nat :=
  min (encSwathRows codec f.enc * i + swathRows f.h (encSwathRows codec f.enc) i - 1 + f.enc.mvVRange + 8) (f.h - 1)

/-- A vector of a unit is within the ranges of Table 11.2, and its block stays within the rows of the reference that are there. -/
def vectorOk (codec : Nat) (f : EncFrame) (i : Nat) (u : PredUnit) (v : Int × Int) : Bool :=
  v.1.natAbs ≤ 8192 && v.2.natAbs ≤ 4 * f.enc.mvVRange && decide (4 * ((u.y : Int) + u.h - 1) + v.2 ≤ 4 * (referenceRow codec f i : Int))

/-- SAD + λ(QP) × bits(MV) of a vector. -/
def vectorCost (d : Dev) (codec : Nat) (f : EncFrame) (qp : Int) (u : PredUnit) (v : Int × Int) : Rat :=
  let at1 := reconSample d codec f (1 - f.recon) 0
  let sad := sumOf (fun y => sumOf (fun x =>
    ((inputSample d codec f 0 (u.x + x) (u.y + y) : Int)
      - predicted codec 2 0 (codedDepth f.enc.profile) at1 ((u.x + x : Nat) : Int) ((u.y + y : Nat) : Int) v.1 v.2).natAbs) (List.range u.w)) (List.range u.h)
  (sad : Rat) + Config.toll qp v.1 v.2

/-- The leastCost of some vectors, the first of equals. -/
def leastCost (cost : Int × Int → Rat) (best : Int × Int) (l : List (Int × Int)) : Int × Int :=
  (l.foldl (fun (b : (Int × Int) × Rat) v => let c := cost v; if c < b.2 then (v, c) else b) (best, cost best)).1

/-- The places around a vector, `n` steps of `s` quarters each way. -/
def vectorsAround (v : Int × Int) (n s : Nat) : List (Int × Int) :=
  (List.range (2 * n + 1)).flatMap fun j => (List.range (2 * n + 1)).map fun i => (v.1 + s * ((i : Int) - n), v.2 + s * ((j : Int) - n))

/-- The tine's search for a unit of swath `i` (R280). -/
def searchUnit (d : Dev) (codec : Nat) (f : EncFrame) (i : Nat) (qp : Int) (u : PredUnit) : UnitVector :=
  let cost := vectorCost d codec f qp u
  let ok := vectorOk codec f i u
  let seed := seedOf d codec f ((u.x + u.w / 2) / 16) ((u.y + u.h / 2) / 16)
  let best := leastCost cost (0, 0) ((seed :: u.candidates).filter ok)
  let whole := leastCost cost best ((vectorsAround best f.enc.searchRange 4).filter ok)
  let half := leastCost cost whole ((vectorsAround whole 1 2).filter ok)
  let quarter := leastCost cost half ((vectorsAround half 1 1).filter ok)
  { x := u.x, y := u.y, vx := quarter.1, vy := quarter.2 }

/-- A unit lies in the column that intra refresh codes without reference in this picture (R275). -/
def refreshed (codec : Nat) (f : EncFrame) (u : PredUnit) : Bool := match f.refresh with
  | some k =>
    let n := ceilDiv f.w (ctuSize codec f.enc)
    let c := u.x / ctuSize codec f.enc
    let p := max 1 f.enc.refreshPeriod
    k * n / p ≤ c && c < (k + 1) * n / p
  | none => false

/-- The vectors of the units of a coded segment: none in an IDR or in a refreshed column. -/
def searchSegment (d : Dev) (codec : Nat) (f : EncFrame) (i : Nat) (r : TineResult) : List UnitVector :=
  if codec = 0 || f.idr then [] else (r.units.filter fun u => !refreshed codec f u).map (searchUnit d codec f i r.qp)

end Sys2Proof.Machine
end

