-- ==== Sys2Proof/Machine/EncFrames.lean ====
section
/-! DEFINITION. The frames that encoder sessions code, from the SOF of their source to their essence record (R251, R258 to
R265, R275, R281 to R287). -/

namespace Sys2Proof.Machine

/-- Bytes that the manual leaves open. -/
def openBytes (n : Nat) (d : Dev) : List Byte × Dev :=
  let (k, d) := takeFree d
  ((List.range n).map fun j => byte (Config.freeNat k j), d)

/-! ## The shape of a frame -/

/-- Rows of a swath, swaths and segments of a frame (R252, R276). -/
def EncFrame.rows (f : EncFrame) (codec : Nat) : Nat := if codec = 0 then max 1 f.xs.sliceRows else encSwathRows codec f.enc
def EncFrame.count (f : EncFrame) (codec : Nat) : Nat := ceilDiv f.h (f.rows codec)
def EncFrame.segments (f : EncFrame) (codec : Nat) : Nat := if codec = 1 then max 1 f.enc.tileCols else 1

/-- The pixels of a segment of swath `i`: luma samples, or photosites of a CFA. -/
def EncFrame.pixels (f : EncFrame) (codec i seg : Nat) : Nat :=
  let rows := swathRows f.h (f.rows codec) i
  if codec = 0 then f.w * rows else segmentSamples codec f.enc f.w rows seg

/-- A session has frames of its own, or a decoder's, and reports its late jobs itself or through its stream. -/
def noteSessionMiss (o td frame cls due : Nat) (missed : NMap Nat) (put : NMap Nat → Dev → Dev) (d : Dev) : Dev :=
  if d.now ≤ due then d
  else
    let key := frame * 4 + cls
    let k := mapGetD missed key 0 + 1
    let m := mapSet missed key k
    let d := put (m.drop (m.length - 64)) d
    if k = 1 then raise 0x0284 2 o (le 1 cls ++ le 4 ((d.now - due) / 1000) ++ le 2 k) d (td := td) (frame := frame) else d

/-- floor_i (R257, R283). -/
def EncFrame.floor (f : EncFrame) (codec i : Nat) : Nat :=
  if codec = 0 then xsFloor f.w f.h (f.rows codec) f.chroma i else 128 + ceilDiv (f.w * swathRows f.h (f.rows codec) i) 256

/-- H + Φ. -/
def EncFrame.fixed (f : EncFrame) (codec : Nat) : Nat := 4096 + sumOf (f.floor codec) (List.range (f.count codec))

/-- b and b_max (R281). -/
def EncFrame.b (f : EncFrame) : Nat := frameBytes f.rc.targetKbps f.period
def EncFrame.bMax (f : EncFrame) : Nat := frameBytes f.rc.maxKbps f.period

/-- The pail, slot size and class of a frame's session. -/
def EncFrame.pail (f : EncFrame) (codec : Nat) : Nat := if codec = 0 then f.xs.pail else f.enc.pail
def EncFrame.slotSize (f : EncFrame) (codec : Nat) : Nat := if codec = 0 then xsSlot f.xs.budget else encSlot f.rc
def EncFrame.cls (f : EncFrame) (codec : Nat) : Nat := if codec = 0 then f.xs.cls else f.enc.cls

/-- Every swath of a frame is coded. -/
def EncFrame.coded (f : EncFrame) : Bool := !f.swaths.isEmpty && f.swaths.all fun s => s.doneAt.isSome

/-- Changes a frame that a session codes. -/
def onEncFrame (i frame : Nat) (g : EncFrame → EncFrame) (d : Dev) : Dev :=
  d.onEncoder i fun e => { e with frames := e.frames.map fun f => if f.number = frame then g f else f }

/-! ## The beginning -/

/-- A source frame that an HEVC or AVC session does not code (R282): the next one counts it, and is the IDR that it would have
been (R275). -/
def encUncoded (i : Nat) (first : Bool) (d : Dev) : Dev :=
  d.onEncoder i fun e =>
    if e.codec = 0 then { e with restart := e.restart || first }
    else { e with forceIdr := e.forceIdr || first, ring := { e.ring with skippedBefore := min (2 ^ 32 - 1) (e.ring.skippedBefore + 1) } }

/-- A session takes a frame of its source at its SOF (R251, R263, R264, R287), which comes with the source's size. -/
def beginEnc (i : Nat) (e : Encoder) (f : EncFrame) (d : Dev) : Dev :=
  let o := 0x5000 + i
  let chroma := if e.codec = 0 then profileChroma 0 e.xs.profile else profileChroma e.codec e.enc.profile
  let (w, h) := if e.codec = 0 then (f.w, f.h) else codedSize e.enc f.w f.h
  let f := { f with w, h, chroma, xs := e.xs, enc := e.enc, rc := e.rc, before := e.ring.skippedBefore
                    fresh := e.restart || f.first, relevel := !e.levelSet, idr := e.forceIdr || f.first }
  let f := { f with swaths := List.replicate (f.count e.codec) {} }
  let keep := fun (f : EncFrame) (d : Dev) =>
    holdSlot (frameSource e.codec f) f.sourceSlot o (d.onEncoder i fun e =>
      { e with frames := e.frames ++ [f], restart := false, levelSet := true, forceIdr := false })
  match takeSlot o (f.pail e.codec) (if e.codec = 0 then e.xs.depth else e.enc.depth) (f.slotSize e.codec) d with
  | (some s, d) => keep { f with slot := some s } d
  | (none, d) =>
    let d := count o 1 1 (skipFrame o (if e.codec = 0 then 0x08C1 else 0x0881) o (le 2 o ++ le 2 0) f.number f.domain d)
    if e.codec = 0 then keep { f with before := 0 } d else d.onEncoder i fun e => { e with forceIdr := e.forceIdr || f.first }

/-- The slot of its source that a session codes in a frame of a stream; none where that output skipped the frame, which is
an uncoded frame for an enabled branch. -/
def encSourceSlot (e : Encoder) (w : FrameWork) : Option Nat :=
  if e.codec = 0 then match e.xs.sourceKind with
    | 0 => some w.slot
    | 1 => (tabGet w.tapOut e.xs.tapPoint).slot
    | _ => (tabGet w.branchOut (branchOf e.xs.source).2).slot
  else (tabGet w.branchOut (branchOf e.enc.source).2).slot

/-- A frame of a stream as a session takes it: the settings of its source that are bound to the frame, and their size and depth. -/
def takenFrame (d : Dev) (n : Nat) (e : Encoder) (w : FrameWork) : EncFrame :=
  let image := (srcSize d n).getD (0, 0)
  let raw := (furrowOf d n).elim 16 fun c => c.2.depthBits
  let f : EncFrame := { image, number := w.number, first := w.first, epoch := w.epoch, sofSeconds := w.sofSeconds, sofNs := w.sofNs, sof := w.sof }
  let ofBranch := fun (o : Nat) => let b := tabGet w.settings.branches (branchOf o).2
    { f with branch := b, w := b.outW, h := b.outH, bits := formatDepth b.format }
  if e.codec ≠ 0 then ofBranch e.enc.source
  else match e.xs.sourceKind with
    | 0 => { f with w := image.1, h := image.2, bits := raw }
    | 1 =>
      let t := tabGet w.settings.taps e.xs.tapPoint
      let c := t.crop image.1 image.2
      { f with tap := t, w := c.2.2.1, h := c.2.2.2, bits := if t.format = 1 then raw else 16 }
    | _ => ofBranch e.xs.source

/-- The sessions of a stream take its frame. -/
def beginEncs (n td : Nat) (w : FrameWork) (d : Dev) : Dev :=
  d.codecs.encoders.foldl (fun d x =>
    let (i, e) := x
    match encoderPeriod d e with
    | some period =>
      if encoderStream e ≠ some n || e.closing then d
      else match encSourceSlot e w with
        | some s => beginEnc i e { takenFrame d n e w with sourceSlot := s, period, domain := td } d
        | none => if e.codec ≠ 0 && (branchSet d e.enc.source).enable then encUncoded i w.first d else d
    | none => d) d

/-- A frame of a stream was dropped before any session saw it (R282). -/
def encDropped (n : Nat) (d : Dev) : Dev :=
  d.codecs.encoders.foldl (fun d x =>
    if encoderStream x.2 = some n && x.2.codec ≠ 0 && !x.2.closing && (encoderPeriod d x.2).isSome then encUncoded x.1 false d else d) d

/-! ## The end -/

/-- The payload of a frame: swath after swath, or for HEVC tile column after tile column. -/
def EncFrame.payload (f : EncFrame) (codec : Nat) : List Byte :=
  (List.range (f.segments codec)).flatMap fun k => f.swaths.flatMap fun s => mapGetD s.parts k []

/-- The record of a JPEG XS frame (Table 10.3) with its codestream's length. -/
def xsRecord (d : Dev) (i : Nat) (f : EncFrame) (bytes : Nat) : List Byte :=
  let n := f.count 0
  let flags := f.flags + 8 * boolNat (f.swaths.any (·.concealed)) + 16 * boolNat (f.before ≠ 0) + 32 + 64 * boolNat f.exhaustedRow.isSome + 128 * boolNat f.xs.pad
  le 8 f.number ++ le 2 (0x5000 + i) ++ le 2 f.xs.source ++ le 4 flags ++ le 4 f.epoch ++ le 1 f.domain ++ le 3 0
    ++ fullTimeBytes { seconds := f.sofSeconds, ns := f.sofNs } ++ le 4 (shortStamp (domainNow d f.domain)) ++ le 4 bytes ++ le 4 f.budget
    ++ le 2 (f.exhaustedRow.getD 0xFFFF) ++ le 2 (f.swaths.countP (·.floorCoded)) ++ le 2 (f.swaths.countP (·.concealed)) ++ le 2 n
    ++ le 4 f.before ++ le 4 (f.pool + f.unspent) ++ List.replicate 64 0

/-- The mean QP of a frame in 1/16, its swaths weighed by their samples. -/
def EncFrame.meanQp (f : EncFrame) (codec : Nat) : Int :=
  let all := sumOf (fun i => sumOf (f.pixels codec i) (List.range (f.segments codec))) (List.range (f.count codec))
  (f.swaths.foldl (fun a s => a + s.qp) 0) / max 1 (all : Int)

/-- The record of an HEVC or AVC frame (Table 11.5). -/
def encRecord (d : Dev) (i codec : Nat) (noSeeds : Bool) (f : EncFrame) (bytes : Nat) : List Byte :=
  let flags := f.flags + 8 * boolNat (f.swaths.any (·.concealed)) + 16 * boolNat (f.before ≠ 0) + 32 + 64 * boolNat f.exhaustedRow.isSome
    + 128 * boolNat f.idr + 256 * boolNat f.hrdBreak + 512 * boolNat noSeeds + 1024 * boolNat (f.filler ≠ 0)
  le 8 f.number ++ le 2 (0x5000 + i) ++ le 2 f.enc.source ++ le 4 flags ++ le 4 f.epoch ++ le 1 f.domain ++ le 1 (boolNat (!f.idr)) ++ le 2 0
    ++ fullTimeBytes { seconds := f.sofSeconds, ns := f.sofNs } ++ le 4 (shortStamp (domainNow d f.domain)) ++ le 4 bytes ++ le 4 f.budget
    ++ le 2 (f.exhaustedRow.getD 0xFFFF) ++ le 2 (f.swaths.countP (·.floorCoded)) ++ le 2 (f.swaths.countP (·.concealed)) ++ le 2 (f.count codec)
    ++ le 4 f.before ++ le 4 (f.pool + f.unspent) ++ le 4 f.level ++ le 4 f.filler ++ le 4 f.poc ++ leInt 2 (f.meanQp codec) ++ List.replicate 50 0

/-- The CPB level after a frame of `size` bytes, filler included (Table 11.4). -/
def EncFrame.levelAfter (f : EncFrame) (size : Nat) : Nat :=
  if f.rc.mode = 0 then f.level - size + f.b else min f.rc.cpb (f.level - size + f.bMax)

/-- Activities of a coded frame, by swath and segment (R258, R283). -/
def EncFrame.activities (f : EncFrame) (codec : Nat) : List (List Nat) :=
  f.swaths.map fun s => (List.range (f.segments codec)).map fun k => mapGetD s.activity k 1

/-- A frame whose swaths are all coded and whose source frame is whole: its access unit or codestream and its record are
written (R259, R261, R263, R281). -/
def finishEnc (i : Nat) (e : Encoder) (f : EncFrame) (d : Dev) : Dev :=
  let o := 0x5000 + i
  let body := f.payload e.codec
  let unit := f.header ++ f.pad ++ body ++ (if e.codec = 0 then be 2 xsEoc else [])
  let filler := if e.codec ≠ 0 && f.rc.mode = 0 then f.level + f.b - f.rc.cpb - unit.length else 0
  let (fill, d) := if filler = 0 then ([], d) else openBytes filler d
  let f := { f with filler }
  let all := unit ++ fill
  let d := d.onEncoder i fun e =>
    let acts := f.activities e.codec
    let keep := e.codec = 0 || f.idr
    { e with
      frames := e.frames.filter fun x => x.number ≠ f.number
      anyCoded := true, recon := if e.codec = 0 then 0 else 1 - f.recon, lastActivityI := if keep then acts else e.lastActivityI, lastActivityP := if keep then e.lastActivityP else acts
      level := if e.codec = 0 then e.level else f.levelAfter all.length
      errSum := if e.codec = 0 then e.errSum else clampInt (e.errSum + (all.length : Int) - f.b) (-(4 * f.rc.cpb : Nat)) (4 * f.rc.cpb : Nat) }
  let d := count o 0 1 (count o 4 (f.swaths.countP (·.concealed)) d)
  let d := dropSlot (frameSource e.codec f) f.sourceSlot o d
  let d := match f.slot with
    | some s =>
      let base := s * f.slotSize e.codec
      let record := if e.codec = 0 then xsRecord d i f all.length else encRecord d i e.codec (lacksSeeds d f) f all.length
      completeSlot o s f.number f.epoch (pailWrite (f.pail e.codec) base record (pailWrite (f.pail e.codec) (base + 0x1000) all d))
    | none => d
  let d := match encoderStream e with
    | some n => settleReleased n d
    | none => d
  settleClosing i d

/-- A frame that has become ripe is finished. -/
def settleEnc (i frame : Nat) (d : Dev) : Dev :=
  match mapGet d.codecs.encoders i with
  | some e => match e.frames.find? fun f => f.number = frame with
    | some f => if f.coded && f.frameEnd.isSome then finishEnc i e f d else d
    | none => d
  | none => d

/-- A stream's frame is delivered: the sessions that code it take its flags and its end. -/
def encDelivered (n : Nat) (r : FrameRecord) (fend : Nat) (d : Dev) : Dev :=
  d.codecs.encoders.foldl (fun d x =>
    if encoderStream x.2 = some n then
      let flags := boolNat (bit r.flags 0) + 2 * boolNat (bit r.flags 5) + 4 * boolNat (bit r.flags 7)
      settleEnc x.1 r.number (onEncFrame x.1 r.number (fun f => { f with flags, frameEnd := some fend }) d)
    else d) d

end Sys2Proof.Machine
end

