-- ==== Sys2Proof/Machine/FurrowEv.lean ====
section
/-! DEFINITION. What happens at a furrow: start of frame, rows, the ends of frames, fills, delivery, silence, training and
re-centring (chapter 05). -/

namespace Sys2Proof.Machine

/-! ## Rows of a raw slot (R128) -/

/-- Offset in the raw pail of a row of a plane of a slot. -/
def FurrowConfig.rowOffset (c : FurrowConfig) (slot plane row : Nat) : Nat :=
  slot * c.slotSize + 0x20000 + plane * rawPlaneSize c.width c.height c.depthBits + row * rawRowBytes c.width c.depthBits

/-- Codes packed as a little-endian bit stream of `bw` bits each, in `n` bytes. -/
def packBits (bw n : Nat) (l : List Nat) : List Byte := le n (l.foldr (fun v acc => v % 2 ^ bw + acc * 2 ^ bw) 0)

/-- The code of a column in a packed row. -/
def unpackBits (bw : Nat) (row : Nat) (x : Nat) : Nat := row / 2 ^ (bw * x) % 2 ^ bw

/-- A packed row as stored in a slot. -/
def storedRow (d : Dev) (c : FurrowConfig) (slot plane row : Nat) : Nat :=
  unle (pailRead d c.pail (c.rowOffset slot plane row) (rawRowBytes c.width c.depthBits))

/-- The CFA channel of a photosite. -/
def FurrowConfig.channel (c : FurrowConfig) (x y : Nat) : Nat := c.cfa.getD (y % c.cfaH * c.cfaW + x % c.cfaW) 0

/-- The black level that a fill writes (R169). -/
def blackCode (s : RawSet) (plane ch : Nat) : Nat := (roundAway ((f32 ((s.black.getD plane []).getD ch 0)).getD 0)).toNat

/-- The set bound to a frame in flight. -/
def rawSetOf (d : Dev) (n frame : Nat) : RawSet := ((workOf d n frame).elim (d.stream n).bound (·.settings)).raw

/-- A row of black levels (R134). -/
def blackRow (c : FurrowConfig) (s : RawSet) (plane row : Nat) : List Nat :=
  (List.range c.width).map fun x => blackCode s plane (c.channel x row)

/-- The bytes of a filled row: the same row of the source slot, or black levels. -/
def fillRow (d : Dev) (c : FurrowConfig) (s : RawSet) (source : Option Nat) (plane row : Nat) : List Byte :=
  let n := rawRowBytes c.width c.depthBits
  match source with
  | some k => pailRead d c.pail (c.rowOffset k plane row) n
  | none => packBits c.depthBits n (blackRow c s plane row)

/-! ## Lanes (R118, R138) -/

/-- Lanes that carry a source. -/
def LaneEntry.lanes (e : LaneEntry) (c : FurrowConfig) : List Nat := sourceLanes c [e]

/-- A sync position as one lane took part in it. -/
def Lane.sync (ok : Bool) (l : Lane) : Lane := { l with syncErrors := if ok then 0 else l.syncErrors + 1 }

/-- A line or packet whose CRC a lane shares. -/
def Lane.crc (good : Bool) (l : Lane) : Lane := { l with crcHistory := (good :: l.crcHistory).take 64 }

/-- One bit of the line CRC (R120). -/
def crc16Bit (c b : Nat) : Nat :=
  let x := c * 2 % 65536
  if (c / 32768 + b) % 2 = 1 then x ^^^ 0x1021 else x

/-- The line CRC of words of `bw` bits, most significant bit first (R120). -/
def crc16 (bw : Nat) (ws : List Nat) : Nat :=
  ws.foldl (fun c w => (List.range bw).foldl (fun c k => crc16Bit c (w / 2 ^ (bw - 1 - k) % 2)) c) 0xFFFF

/-- Why a lane has failed, if it has: 0 loss of lock, 1 a CRC burst (R138). -/
def Lane.failure (l : Lane) : Option Nat :=
  if l.failed then none else if l.syncErrors ≥ 4 then some 0 else if l.crcHistory.count false ≥ 8 then some 1 else none

/-- The words that a line's CRC is sent in (R119). -/
def crcWords (bw v : Nat) : List Nat := if bw = 16 then [v] else [v / 256 * 2 ^ (bw - 8), v % 256 * 2 ^ (bw - 8)]

/-- A source's line is bad: its CRC words are not those of its payload, or its packet's CRC failed (R120, R122). -/
def lineBad (c : FurrowConfig) (r : LaneRow) : Bool :=
  if c.mode = 1 then r.crcBad else c.lineCrc && crcWords c.depthBits (crc16 c.depthBits r.words) ≠ r.crc

/-- What a lane presents in the slot of a sync position (R118). -/
inductive Shown where
  | code (k : Nat) | unmatched | nothing
  deriving DecidableEq, Repr, Inhabited

/-- A left-aligned field as a word of B bits: the bits below it count as zero whatever was loaded (R115, Table 5.2). -/
def wordOf (bw x : Nat) : Nat := x / 2 ^ (16 - bw)

/-- A code word matches a pattern under its mask (R116). -/
def codeMatches (bw w : Nat) (c : Nat × Nat) : Bool := ((w ^^^ wordOf bw c.1) &&& wordOf bw c.2) == 0

/-- The four words that end in a slot: a preamble and a code, or no sync sequence (R116). -/
def SyncCodes.shown (s : SyncCodes) (bw : Nat) : List Nat → Shown
  | [p0, p1, p2, w] =>
    if [p0, p1, p2] ≠ s.preamble.map (wordOf bw) then .nothing
    else match (List.range 4).find? fun k => codeMatches bw w (tabGet s.codes k) with
      | some k => .code k
      | none => .unmatched
  | _ => .nothing

/-- The code of a sync position: the one that more than half of the lanes present in its slot (R118). -/
def recognised (l : List Shown) : Option Nat := (List.range 4).find? fun k => 2 * l.count (.code k) > l.length

/-- A slot in which some lane of a row's sources presents something. At a sync position each lane that does not present its code
counts an error; a preamble whose code matches none counts one too where there is no position (R118). -/
def noteSync (i : Nat) (srcs : List LaneEntry) (l : List Shown) (d : Dev) : Dev := match recognised l with
  | some k =>
    (count (0x1000 + i) 0 (l.length - l.count (.code k)) d).onFurrow i fun f => { f with
      lanes := (indexed srcs).foldl (fun x e => tabMod x e.2.source (Lane.sync (decide (tabGet l e.1 = .code k)))) f.lanes }
  | none => count (0x1000 + i) 0 (l.count .unmatched) d

/-- Changes the lanes of a source. -/
def onLanes (i : Nat) (c : FurrowConfig) (e : LaneEntry) (g : Nat → Lane → Lane) (d : Dev) : Dev :=
  d.onFurrow i fun f => { f with lanes := (e.lanes c).foldl (fun l k => tabMod l k (g k)) f.lanes }

/-- Lines that a row travels as (R119). -/
def FurrowConfig.lines (c : FurrowConfig) : Nat := if c.dualGain = 2 then 2 else 1

/-- Line `g` of a row: what each of its sources sent. -/
def lineOf (srcs : List LaneEntry) (lanes : List LaneRow) (g : Nat) : List (LaneEntry × LaneRow) :=
  (indexed srcs).map fun e => (e.2, tabGet lanes (g * srcs.length + e.1))

/-- Lines of a row, or in CSI-2 mode packets, with some source's part that meets a test. -/
def linesWith (c : FurrowConfig) (srcs : List LaneEntry) (lanes : List LaneRow) (p : LaneEntry → LaneRow → Bool) : Nat :=
  sumOf (fun g =>
    let n := (lineOf srcs lanes g).countP fun e => p e.1 e.2
    if c.mode = 1 then n else min 1 n) (List.range c.lines)

/-- What a line of a row says about its lanes: the positions of its start and end codes, and its CRC. A row's first start code is
SOF's own position in a frame's first row. -/
def noteLine (i : Nat) (c : FurrowConfig) (start : Bool) (l : List (LaneEntry × LaneRow)) (d : Dev) : Dev :=
  if c.mode = 1 then l.foldl (fun d e => onLanes i c e.1 (fun k x => (x.sync (k ∉ e.2.sot)).crc (!e.2.crcBad)) d) d
  else
    let shown := (d.furrow i).sync.shown c.depthBits
    let at1 := fun (g : LaneRow → List Nat) => noteSync i (l.map (·.1)) (l.map fun e => shown (g e.2))
    let d := at1 (·.stop) (if start then at1 (·.start) d else d)
    if c.lineCrc then l.foldl (fun d e => onLanes i c e.1 (fun _ x => x.crc (!lineBad c e.2)) d) d else d

/-! ## Lane failure (R139, R140) -/

/-- Lanes of the map in use that have failed. -/
def failedLanes (f : Furrow) : List Nat := (mappedLanes f).filter fun l => (tabGet f.lanes l).failed

/-- The fallback that R139 takes. -/
def fallbackFor (d : Dev) (f : Furrow) (c : FurrowConfig) : Option Fallback :=
  if c.stopOnLaneFail then none
  else (f.profile.elim [] (·.fallbacks)).find? fun b =>
    (indexed f.lanes).all (fun e => !e.2.failed || bit b.excluded e.1) && b.periodNs ≤ (d.stream c.stream).maxPeriod

/-- The controller commits a fallback's register write as a one-command transaction; none when no frame is feasible. -/
def commitFallback (i : Nat) (b : Fallback) (d : Dev) : Option Dev :=
  let params := le 2 (0x1000 + i) ++ le 1 b.group ++ le 1 1 ++ le 2 b.reg ++ le 1 b.data.length ++ le 1 0 ++ b.data
    ++ List.replicate (roundUp b.data.length 4 - b.data.length) 0
  let s : Staged := { op := 0x0307, seq := 0, params }
  let (txn, d1) := takeTxn d
  let q : CommitRequest := { txn, cmds := [s], bytes := 24 + params.length, ctx := { sid := noSession, op := 0x0307, b := params, time := d.now } }
  let (anchor, _) := anchorOf d1 q
  let groups := groupWrites [s]
  let tooLong := (timedStream d i).any fun n => groups.any fun g => groupSlack d g > ((d.stream n).minPeriod : Rat)
  if tooLong then none
  else if anchor = .untimed || unpredicted d [anchor] then
    some ((passCommit q none d1).1.onFurrow i fun f => { f with remapTxn := some (txn, b.map) })
  else match planFrames d1 d.now anchor [anchor] groups false none with
    | .ok p => some ((passCommit q (some p) d1).1.onFurrow i fun f => { f with remapTxn := some (txn, b.map) })
    | .error _ => none

/-- Lanes found to have failed: fill starts, and a fallback is taken or the stream will stop. -/
def detectFailures (i : Nat) (c : FurrowConfig) (d : Dev) : Dev :=
  let f := d.furrow i
  match (mappedLanes f).findSome? fun k => (tabGet f.lanes k).failure.map fun cause => (k, cause) with
  | none => d
  | some first =>
    let d := d.onFurrow i fun f =>
      { f with lanes := f.lanes.map fun l =>
                 if l.failure.isSome then { l with failed := true, locked := l.locked && l.failure ≠ some 0 } else l
               laneFailure := some (f.laneFailure.getD first) }
    match fallbackFor d (d.furrow i) c with
    | some b =>
      if ((d.furrow i).remapTxn).any fun r => r.2 = b.map then d
      else (commitFallback i b d).getD (d.onFurrow i fun f => { f with remapTxn := none })
    | none => d.onFurrow i fun f => { f with remapTxn := none }

/-- A fallback's commit has ended: its map is in use from the effective frame on, or the stream will stop (R139). -/
def settleRemap (i : Nat) (d : Dev) : Dev :=
  let f := d.furrow i
  match f.remapTxn with
  | none => d
  | some (txn, map) =>
    if (commitOf d txn).isSome then d
    else match d.ctl.epochs.find? fun e => e.txn = txn with
      | some e =>
        if e.state = .applied then
          let d := d.onFurrow i fun f => { f with mapInUse := map, remapTxn := none, laneFailure := none }
          raise 0x0383 2 (0x1000 + i) (le 2 (0x1000 + i) ++ le 1 (f.laneFailure.elim 0 (·.1)) ++ le 1 map ++ le 4 e.effective) d
            (td := f.config.elim 5 (·.domain)) (frame := e.effective)
        else d.onFurrow i fun f => { f with remapTxn := none }
      | none => d.onFurrow i fun f => { f with remapTxn := none }

/-- A failure that no fallback mends: no frame follows the current one. -/
def Furrow.failing (f : Furrow) : Bool := f.laneFailure.isSome && f.remapTxn.isNone

/-- The furrow stops after its last frame: on request, or in its fault state (R140). -/
def settleStop (i : Nat) (c : FurrowConfig) (frame : Nat) (d : Dev) : Dev :=
  let f := d.furrow i
  if f.current.isSome || !f.ending.isEmpty || !f.runs then d
  else if f.failing then
    let (lane, cause) := f.laneFailure.getD (0, 0)
    let d := d.onFurrow i fun f => { f with state := .fault, mapInUse := 0, stopAfterFrame := false, silent := false, deliveredSinceStart := false }
    raise 0x0382 3 (0x1000 + i) (le 2 (0x1000 + i) ++ le 1 lane ++ le 1 cause ++ le 4 frame) d (td := c.domain) (frame := frame)
  else if f.stopAfterFrame then stopFurrow i 0 d
  else d

/-! ## Slots of outputs (R224, R236, R244) -/

/-- Tiles that a branch or tap draws from: first and last row and column. -/
structure TileSpan where
  r0 : Nat := 0
  r1 : Nat := 0
  c0 : Nat := 0
  c1 : Nat := 0
  deriving DecidableEq, Repr, Inhabited

/-- A tile lies in a span. -/
def TileSpan.has (t : TileSpan) (r c : Nat) : Bool := t.r0 ≤ r && r ≤ t.r1 && t.c0 ≤ c && c ≤ t.c1

/-- The tiles that own output pixels of a branch (R219). -/
def branchSpan (b : BranchSet) (w h : Nat) : TileSpan :=
  let col := fun u => (((b.crop w h).1 : Rat) + ((u : Rat) + 1 / 2) * ((b.crop w h).2.2.1 : Rat) / (b.outW : Rat) - 1 / 2).floor.toNat
  { r0 := branchTileRow b w h 0, r1 := branchTileRow b w h (b.outH - 1)
    c0 := min (col 0 / 256) (tilesW w - 1), c1 := min (col (b.outW - 1) / 256) (tilesW w - 1) }

/-- The tiles that a tap's crop meets. -/
def tapSpan (t : TapSet) (w h : Nat) : TileSpan :=
  let (x, y, cw, ch) := t.crop w h
  { r0 := y / 128, r1 := (y + ch - 1) / 128, c0 := x / 256, c1 := (x + cw - 1) / 256 }

/-- An output of a frame before any tile of it is done. -/
def freshOutput (slot : Option Nat) (before rows : Nat) (t : TileSpan) : FrameOutput :=
  { slot, before, tilesLeft := (t.r1 + 1 - t.r0) * (t.c1 + 1 - t.c0)
    rowsLeft := (List.range rows).map fun r => if t.r0 ≤ r && r ≤ t.r1 then t.c1 + 1 - t.c0 else 0 }

/-- The enabled outputs of a frame take their slots or skip it. -/
def openOutputs (n w h td frame : Nat) (s : StreamSettings) (d : Dev) : Dev × List FrameOutput × List FrameOutput × FrameOutput :=
  let rows := tilesH h
  let (d, bs) := (indexed s.branches).foldl (fun (acc : Dev × List FrameOutput) e =>
    let (d, l) := acc
    if !e.2.enable then (d, l ++ [{ done := true }])
    else
      let o := 0x3000 + 8 * n + e.1
      let before := (ringOf d o).skippedBefore
      match takeSlot o e.2.pail e.2.depth e.2.slotSize d with
      | (some k, d) => (beginRecord e.2.pail (k * e.2.slotSize) true d, l ++ [freshOutput (some k) before rows (branchSpan e.2 w h)])
      | (none, d) => (count o 0 1 (skipFrame o 0x0580 o (le 2 o) frame td d), l ++ [{ done := true }])) (d, [])
  let (planes, bw) := match furrowOf d n with
    | some (_, c) => (c.planes, c.depthBits)
    | none => (1, 16)
  let (d, ts) := (indexed s.taps).foldl (fun (acc : Dev × List FrameOutput) e =>
    let (d, l) := acc
    if !e.2.enable then (d, l ++ [{ done := true }])
    else
      let o := tapRef n e.1
      let (_, _, cw, ch) := e.2.crop w h
      let before := (ringOf d o).skippedBefore
      let size := tapSlot e.2.format cw ch bw (if e.1 ≤ 2 then planes else 1)
      match takeSlot o e.2.pail e.2.depth size d with
      | (some k, d) => (beginRecord e.2.pail (k * size) false d, l ++ [freshOutput (some k) before rows (tapSpan e.2 w h)])
      | (none, d) => (skipFrame o 0x0682 (0x2000 + n) (le 2 (0x2000 + n) ++ le 1 e.1 ++ le 1 0) frame td d, l ++ [{ done := true }])) (d, [])
  if s.stats.enable && n < 16 then
    let o := statsRef n
    let slot := (ringOf d o).next % max 1 s.stats.depth
    let d := onRingOf o (fun r => { r with next := (slot + 1) % max 1 s.stats.depth })
      (beginRecord s.stats.pail (slot * statsSlot) false (pailWrite s.stats.pail (slot * statsSlot) (le 8 0) d))
    (d, bs, ts, freshOutput (some slot) 0 rows { r1 := tilesH h - 1, c1 := tilesW w - 1 })
  else (d, bs, ts, { done := true })

/-! ## Start of frame -/

/-- A frame's denoised picture, pyramid or field is still used: by a frame in flight, its own or as the one before, or as the
reference of a field that is not complete. -/
def frameUsed (s : Stream) (k : Nat) : Bool :=
  (s.work.any fun w => w.number = k || w.prevFrame = k) || s.fields.any fun f => !f.complete && f.refFrame = k

/-- A frame's entry joins those of its stream, in the pail of the frame before last, whose entry it starts from. Entries of older
frames last while they are used (R159, R185, R191). -/
def pushFrame {α : Type} [Inhabited α] (s : Stream) (frame : α → Nat) (l : List α) (start : α → α) : List α :=
  ((indexed l).filter fun e => l.length ≤ e.1 + 2 || frameUsed s (frame e.2)).map (·.2) ++ [start (tabGet l.reverse 1)]

/-- Why temporal noise reduction starts afresh at a frame, other than FIRST (R167, Table 6.15). -/
def tnrReset (s : Stream) (set : RawSet) : Option Nat :=
  if set.tnr.reset then some 0
  else match s.prevSet with
    | none => some 3
    | some p =>
      if !p.tnr.enable then some 2
      else if p.black ≠ set.black || p.noiseSlot ≠ set.noiseSlot || p.dual ≠ set.dual then some 1
      else if s.denoised.isEmpty then some 3
      else none

/-- The work of an accepted frame begins: its set is bound, and the pails of the frame before last take its denoised picture,
pyramid and field (R159, R173, R185, R191). -/
def beginWork (n slot : Nat) (w : FrameWork) (size : Nat × Nat) (td : Nat) (map : List LaneEntry) (d : Dev) : Dev :=
  let s := d.stream n
  let set := s.bound
  let bank := 1 - s.bank
  let (fw, fh) := size
  let (d, bs, ts, st) := openOutputs n fw fh td w.number set d
  let reset := tnrReset s set.raw
  let ref := (s.proxies.getLast?).elim 0 (·.frame)
  let noRef : Bool := w.first || ref = 0
  let (bw, bh) := (ceilDiv fw 16, ceilDiv fh 16)
  let field := fun (old : MotionField) =>
    { frame := w.number, refFrame := if noRef then 0 else ref, blocksW := bw, blocksH := bh, noRef, epoch := w.epoch, domain := td
      records := if old.records.length = bw * bh then old.records else List.replicate (bw * bh) {}
      bands := List.replicate (bh * ceilDiv fw 2048) .waiting : MotionField }
  let w := { w with
    slot, settings := set, map, bank, prevFrame := (s.denoised.getLast?).elim 0 (·.frame), branchOut := bs, tapOut := ts, statsOut := st
    kOne := w.first || reset.isSome, tnrReason := if w.first || !set.raw.tnr.enable then none else reset }
  beginEncs n td w <| d.onStream n fun s =>
    { s with
      work := s.work ++ [w], bank, prevSet := some set.raw
      denoised := if set.raw.tnr.enable then pushFrame s (·.frame) s.denoised fun p => { p with frame := w.number } else []
      proxies := if set.motion.enable then pushFrame s (·.frame) s.proxies fun p => { p with frame := w.number } else []
      fields := if set.motion.enable then pushFrame s (·.frame) s.fields field else [] }

/-- Rasters aligned to a stream check a start of frame against their grid (R312). Only starts that a raster frame goes with
are looked at: those within half the stream's period of a grid point. -/
def checkDrift (n sof : Nat) (d : Dev) : Dev :=
  (indexed d.display.rasters).foldl (fun d e =>
    let r := e.2
    if r.running && r.timing.refStream = 0x2000 + n then
      let td := r.timing.domain
      let at1 : Int := (sof : Int) + (domainNow d td : Int) - (domainNow d (streamDomain d n) : Int) + (r.timing.phaseNs : Int)
      let per := r.timing.period
      let x := ratMod ((at1 - (r.gridBase : Int) : Int) : Rat) per
      let err : Int := (if 2 * x > per then x - per else x).floor
      if 2 * err.natAbs ≥ (d.stream n).minPeriod then d
      else if err.natAbs > 10000 then
        let d := d.onRaster e.1 fun r => { r with gridError := err, driftRaised := true, driftGoodSince := none }
        if r.driftRaised then d else raise 0x0A83 2 (0x4000 + e.1) (le 2 (0x4000 + e.1) ++ le 2 0 ++ leInt 4 err) d (td := td) (frame := r.frame)
      else
        d.onRaster e.1 fun r =>
          let since := r.driftGoodSince.getD d.now
          { r with gridError := err, driftGoodSince := some since, driftRaised := r.driftRaised && d.now < since + 1000000000 }
    else d) d

/-- The reception of the current frame ends: complete, or short (R133, R135). A short frame is filled from the previous
delivered frame's slot, which is held meanwhile (R129, R134). -/
def endReception (i : Nat) (c : FurrowConfig) (timedOut : Bool) (d : Dev) : Dev :=
  let f := d.furrow i
  match f.current with
  | none => d
  | some fr =>
    if fr.rows ≥ c.height then
      d.onFurrow i fun f => { f with current := none, ending := f.ending ++ [{ fr with timedOut }]
                                     lastEnd := if timedOut then some d.now else f.lastEnd }
    else
      let d := d.onFurrow i fun f =>
        { f with current := none
                 ending := f.ending ++ [{ fr with timedOut, short := true, fillFrom := some fr.rows, fillAt := some d.now, source := f.prevSlot }]
                 lastEnd := if timedOut then some d.now else f.lastEnd, rowsOver := f.rowsOver || timedOut }
      let d := onWork c.stream fr.number (fun w => { w with fillFirst := some fr.rows }) d
      match f.prevSlot with
      | some k => holdSlot (0x2000 + c.stream) k (0x1000 + i) d
      | none => d

/-- SOF strobes of a furrow's pins, and of its partner's in a ganged pair (Table 5.9, R147). -/
def strobePins (i : Nat) (d : Dev) : Dev :=
  let one := fun (d : Dev) (i : Nat) => d.onFurrow i fun f =>
    { f with pins := f.pins.map fun p => if p.function = 4 && p.pulseUntil.isNone then { p with strobeUntil := some (d.now + p.widthNs) } else p }
  if (d.furrow i).ganged then one (one d i) (i / 2 * 2 + 1) else one d i

/-- A frame is dropped at its SOF: the next delivered frame counts it (Table 5.6). -/
def countDrop (i : Nat) (d : Dev) : Dev :=
  let d := d.onFurrow i fun f => { f with dropped := f.dropped + 1 }
  match (d.furrow i).config with
  | some c => encDropped c.stream d
  | none => d

/-- A frame dropped while the furrow is in RESYNC counts there too. -/
def countResyncDrop (i : Nat) (d : Dev) : Dev :=
  if (d.furrow i).state = .resync then
    count (0x1000 + i) 9 1 (d.onFurrow i fun f => { f with resyncDrops := f.resyncDrops + 1 })
  else d

/-- A too-soon frame is dropped (Table 5.6). -/
def dropTooSoon (i : Nat) (c : FurrowConfig) (frame interval : Nat) (d : Dev) : Dev :=
  let o := 0x2000 + c.stream
  let d := countResyncDrop i (count (0x1000 + i) 8 1 (countDrop i d))
  let d := d.onFurrow i fun f => { f with tooSoonDrops := f.tooSoonDrops + 1 }
  let f := d.furrow i
  let due : Bool := match f.tooSoonEvent with
    | some t => t + 1000000000 ≤ d.now
    | none => true
  if due then
    let d := d.onFurrow i fun f => { f with tooSoonDrops := 0, tooSoonEvent := some d.now }
    raise 0x0381 2 o (le 2 o ++ le 4 (min interval (2 ^ 32 - 1)) ++ le 4 f.tooSoonDrops) d (td := c.domain) (frame := frame)
  else d

/-- An SOF that is not too soon and finds its slot free begins a frame (R129, R136). -/
def acceptFrame (i : Nat) (c : FurrowConfig) (frame sof : Nat) (d : Dev) : Dev :=
  let n := c.stream
  let f := d.furrow i
  let slot := f.nextSlot
  let d := if f.state = .resync then
    raise 0x0387 0 (0x2000 + n) (le 2 (0x2000 + n) ++ le 4 f.resyncDrops) d (td := c.domain) (frame := frame) else d
  let epoch := (d.stream n).epoch
  let fr : FrameInProgress :=
    { number := frame, slot, sof, epoch, first := f.firstNext, dropped := f.dropped }
  let d := d.onFurrow i fun f =>
    { f with state := .running, firstNext := false, dropped := 0, resyncDrops := 0
             geometryFaults := if f.state = .resync then 0 else f.geometryFaults
             current := some fr, nextSlot := (slot + 1) % max 1 c.depth
             slots := tabMod f.slots slot fun _ => { frame, holders := [0x2000 + n] } }
  let d := pailWrite c.pail (slot * c.slotSize) (le 8 0) d
  let d := pailWrite c.pail (slot * c.slotSize + 0x11000) (List.replicate 16384 0) d
  let t := fullTime sof
  let w : FrameWork := { number := frame, src := 0x2000 + n, sof := d.now, sofSeconds := t.seconds, sofNs := t.ns, epoch, first := f.firstNext }
  beginWork n slot w (c.width, c.height) c.domain (d.furrow i).activeMap d

/-- What becomes of a recognised SOF's frame (R129, R133, R136). -/
def placeFrame (i : Nat) (c : FurrowConfig) (frame sof : Nat) (clean : Bool) (d : Dev) : Dev :=
  let f := d.furrow i
  let n := c.stream
  let soon := f.lastAccepted.filter fun t => d.now + 1000 < t + (d.stream n).minPeriod
  match soon with
  | some t => dropTooSoon i c frame (d.now - t) d
  | none =>
    let d := d.onFurrow i fun f => { f with lastAccepted := some d.now }
    if f.firstNext && !clean then countResyncDrop i (countDrop i d)
    else if (tabGet f.slots f.nextSlot).holders ≠ [] then
      let d := count (0x2000 + n) 5 1 (countResyncDrop i (countDrop i d))
      raise 0x0285 3 (0x2000 + n) (le 2 (0x2000 + n) ++ le 8 frame) d (td := c.domain) (frame := frame)
    else acceptFrame i c frame sof d

/-- The SOF of a frame is recognised: its number, the prediction, and the commits that apply to it (R104, R132). -/
def recogniseSof (i : Nat) (c : FurrowConfig) (clean : Bool) (d : Dev) : Dev :=
  let n := c.stream
  let d := endReception i c false d
  let sof := domainNow d c.domain
  let frame := (d.stream n).frame + 1
  let d := d.onStream n fun s => { s with frame, lastSof := some sof }
  let d := d.onFurrow i fun f => { f with lastSof := some d.now, silent := false, lineNo := 0, rowsOver := false }
  let d := settleRemap i (applyAtSof n frame sof (strobePins i d))
  let d := d.onStream n fun s => { s with
    inForce := true, bound := s.settings, boundFrame := frame, boundEpoch := s.epoch, boundDynDefects := 0
    settings := { s.settings with raw := { s.settings.raw with tnr := { s.settings.raw.tnr with reset := false } } } }
  let d := checkDrift n sof (recordersAtSof n frame d)
  if (d.furrow i).stopAfterFrame || (d.furrow i).failing then settleStop i c frame d
  else if (d.furrow i).runs then placeFrame i c frame sof clean d else d

/-- A possible start of frame (R116, R118, R123): `lanes` are the sources of the map in use. Native lanes are read against the sync codes;
a CSI-2 frame starts with its first source's Frame Start. -/
def furrowSof (i : Nat) (lanes : List SyncIn) (d : Dev) : Dev :=
  let f := d.furrow i
  match f.config with
  | none => d
  | some c =>
    let sources := f.activeMap
    if !f.runs then d
    else if c.mode = 1 then
      if (tabGet lanes 0).frameStart then recogniseSof i c ((indexed sources).all fun e => (tabGet lanes e.1).frameStart) d else d
    else
      let shown := (indexed sources).map fun e => f.sync.shown c.depthBits (tabGet lanes e.1).words
      let d := detectFailures i c (noteSync i sources shown d)
      if recognised shown = some 0 then recogniseSof i c (shown.all fun x => x = .code 0) d else d

/-- A recognised SOF takes the next raw slot or drops its frame, and binds the settings in force. -/
def execFurrowSof (time : Nat) (furrow : Fin 16) (lanes : List SyncIn) (s : State) : Host.Outcome State Fault Refusal :=
  after time (furrowSof furrow.val lanes) s

/-! ## Rows -/

/-- A row's sources with their lines for plane `g`: the words that belong to it. -/
def planeWords (c : FurrowConfig) (sources : List LaneEntry) (lanes : List LaneRow) (g : Nat) : List (LaneEntry × List Nat) :=
  (indexed sources).filterMap fun e =>
    let r := tabGet lanes (if c.dualGain = 2 then e.1 + g * sources.length else e.1)
    if c.dualGain = 1 && e.2.plane ≠ g then none
    else if c.dualGain = 3 then some (e.2, ((indexed r.words).filter fun w => w.1 % 2 = g).map (·.2))
    else some (e.2, r.words)

/-- A source's pixels are unusable because a lane of it has failed. -/
def LaneEntry.dead (e : LaneEntry) (c : FurrowConfig) (f : Furrow) : Bool := (e.lanes c).any fun k => (tabGet f.lanes k).failed

/-- The codes of a received row of a plane (R121, R139, Table 5.6): short lines are padded, long ones cut, and a failed lane's
pixels filled. -/
def rowCodes (d : Dev) (f : Furrow) (c : FurrowConfig) (set : RawSet) (row : Nat) (lanes : List LaneRow) (g : Nat) : List Nat :=
  let srcs := planeWords c (pixelSources f.activeMap) lanes g
  let live := srcs.filter fun e => !e.1.dead c f
  let got := live.flatMap fun e => (e.1.columns c.width).zip e.2
  let last := fun (ch : Nat) => (got.filter fun p => c.channel p.1 row = ch).foldl (fun (best : Option (Nat × Nat)) p =>
    match best with
    | some b => if p.1 > b.1 then some p else best
    | none => some p) none
  let old := f.prevSlot.map fun k => storedRow d c k g row
  (List.range c.width).map fun x =>
    let ch := c.channel x row
    match srcs.find? fun e => e.1.start ≤ x && (x - e.1.start) % max 1 e.1.step = 0 with
    | none => blackCode set g ch
    | some (e, ws) =>
      if e.dead c f then (match old with
        | some r => unpackBits c.depthBits r x
        | none => blackCode set g ch)
      else match ws[(x - e.start) / max 1 e.step]? with
        | some v => v % 2 ^ c.depthBits
        | none => (last ch).elim (blackCode set g ch) (·.2)

/-- N_i: the words that a source's line should have (R121). -/
def LaneEntry.expected (e : LaneEntry) (c : FurrowConfig) : Nat := (e.columns c.width).length * (if c.dualGain = 3 then 2 else 1)

/-- Rows up to `rows` of a frame are in memory: T_r of each tile-row that waited for the last of them (R28), and the frame's end
with its last row (R131). -/
def rowsInMemory (n h frame first rows : Nat) (d : Dev) : Dev :=
  let due := (List.range (tilesH h)).filter fun r => first ≤ releaseRow h r && releaseRow h r < rows
  onWork n frame (fun w =>
    { w with rowsIn := rows, lineAt := due.foldl (fun m r => mapSet m r d.now) w.lineAt
             frameEnd := if rows ≥ h then some d.now else w.frameEnd }) d

/-- A row of the current frame is written with its stamp (R128, R131). `eof` says that it ends the sensor's frame. -/
def writeRow (i : Nat) (c : FurrowConfig) (fr : FrameInProgress) (row : RowIn) (eof : Bool) (d : Dev) : Dev :=
  let f := d.furrow i
  let set := rawSetOf d c.stream fr.number
  let stamp := domainNow d c.domain
  let y := fr.rows
  let codes := (List.range c.planes).map fun g => rowCodes d f c set y row.lanes g
  let d := (indexed codes).foldl (fun d e =>
    pailWrite c.pail (c.rowOffset fr.slot e.1 y) (packBits c.depthBits (rawRowBytes c.width c.depthBits) e.2) d) d
  let d := pailWrite c.pail (fr.slot * c.slotSize + 0x1000 + 4 * y) (le 4 (shortStamp stamp)) d
  let which := linesWith c (pixelSources f.activeMap) row.lanes
  let short := which fun e r => r.words.length < e.expected c
  let long := which fun e r => r.words.length > e.expected c
  let badCrc := which fun _ r => lineBad c r
  let d := count (0x1000 + i) 3 short (count (0x1000 + i) 4 long d)
  let fill := (failedLanes f).foldl (fun m k => m ||| 2 ^ k) fr.laneFill
  let d := rowsInMemory c.stream c.height fr.number y (y + 1) d
  let d := onWork c.stream fr.number (fun w => { w with laneFill := fill }) d
  let fr := { fr with
    rows := y + 1, firstAt := if y = 0 then stamp else fr.firstAt, lastAt := stamp, endAt := d.now, laneFill := fill
    shortLines := fr.shortLines + min 1 short, longLines := fr.longLines + min 1 long, crcLines := fr.crcLines + min 1 badCrc }
  let d := d.onFurrow i fun f => { f with current := some fr }
  if y + 1 ≥ c.height && eof then endReception i c false d else d

/-- The write buffer overflows: every row from this one on is filled (R141). -/
def overflowRow (i : Nat) (c : FurrowConfig) (fr : FrameInProgress) (d : Dev) : Dev :=
  let o := 0x2000 + c.stream
  let prev := (d.furrow i).prevSlot
  let d := d.onFurrow i fun f =>
    { f with current := none
             ending := f.ending ++ [{ fr with overflow := true, fillFrom := some fr.rows, fillAt := some d.now, source := prev }] }
  let d := onWork c.stream fr.number (fun w => { w with fillFirst := some fr.rows }) d
  let d := match prev with
    | some k => holdSlot o k (0x1000 + i) d
    | none => d
  raise 0x0386 3 o (le 2 o ++ le 2 fr.rows ++ le 4 fr.number) d (td := c.domain) (frame := fr.number)

/-- Embedded data of the current frame is stored; what exceeds 16 KiB is discarded and counted (Table 5.3). -/
def storeEmbedded (i : Nat) (c : FurrowConfig) (data : List Byte) (d : Dev) : Dev := match (d.furrow i).current with
  | none => d
  | some fr =>
    let kept := data.take (16384 - fr.embedded)
    let d := pailWrite c.pail (fr.slot * c.slotSize + 0x11000 + fr.embedded) kept d
    let d := d.onFurrow i fun f => { f with current := some { fr with embedded := fr.embedded + kept.length } }
    if kept.length < data.length then count (0x1000 + i) 2 1 d else d

/-- A CSI-2 packet that is no row of pixels (Table 5.3): embedded data of a mapped source is stored; a packet whose header cannot be
corrected, and one that no source of the map takes, is discarded and counted. -/
def otherPacket (i : Nat) (c : FurrowConfig) (d : Dev) (p : CsiPacket) : Dev :=
  let link : LaneEntry := { source := p.source }
  let d := onLanes i c link (fun k x => x.sync (k ∉ p.sot)) d
  if p.badHeader then count (0x1000 + i) 2 1 d
  else
    let d := count (0x1000 + i) 1 (boolNat p.crcBad) (onLanes i c link (fun _ x => x.crc (!p.crcBad)) d)
    if p.dataType = 0x12 && (d.furrow i).activeMap.any fun e => e.source = p.source && e.dataType = 0x12 then storeEmbedded i c p.data d
    else count (0x1000 + i) 2 1 d

/-- A row ends the sensor's frame: its last line ends with EOF, or Frame End follows it (R119, R123). -/
def rowEndsFrame (f : Furrow) (c : FurrowConfig) (row : RowIn) : Bool :=
  if c.mode = 1 then row.frameEnd
  else recognised ((lineOf (pixelSources f.activeMap) row.lanes (c.lines - 1)).map fun e => f.sync.shown c.depthBits e.2.stop) = some 1

/-- A row has begun: it is a frame's first, or its start code is an SOL position (R118, R119). -/
def rowBegins (f : Furrow) (c : FurrowConfig) (row : RowIn) : Bool :=
  c.mode = 1 || f.lineNo = 0
    || recognised ((lineOf (pixelSources f.activeMap) row.lanes 0).map fun e => f.sync.shown c.depthBits e.2.start) = some 2

/-- What the lanes of a row presented (R118, R120, R122, R138). -/
def noteRow (i : Nat) (c : FurrowConfig) (row : RowIn) (d : Dev) : Dev :=
  let f := d.furrow i
  let srcs := pixelSources f.activeMap
  let d := if c.mode = 1 then row.packets.foldl (otherPacket i c) d else d
  let d := (List.range c.lines).foldl (fun d g => noteLine i c (f.lineNo ≠ 0 || g ≠ 0) (lineOf srcs row.lanes g) d) d
  detectFailures i c (count (0x1000 + i) 1 (linesWith c srcs row.lanes fun _ r => lineBad c r) d)

/-- A row that has begun ends: it is written, discarded, or lost with the write buffer, which overflows only while the guarantee
has lapsed (R119, R123, R131, R141). -/
def takeRow (i : Nat) (c : FurrowConfig) (row : RowIn) (eof : Bool) (d : Dev) : Dev :=
  let d := d.onFurrow i fun f =>
    { f with lineNo := f.lineNo + 1, lastRow := some d.now, rowsOver := f.rowsOver || eof || f.lineNo + 1 ≥ c.height }
  match (d.furrow i).current with
  | none => d
  | some fr =>
    if fr.rows ≥ c.height then
      let d := count (0x1000 + i) 5 1 d
      let d := d.onFurrow i fun f => { f with current := some { fr with discarded := fr.discarded + 1 } }
      if eof then endReception i c false d else d
    else if row.overflow && d.fabric.lapse.isSome then overflowRow i c fr d
    else writeRow i c fr row eof d

/-- A row's end (R119, R123, R131). A row whose start code no position showed is not received. -/
def furrowRowEnd (i : Nat) (row : RowIn) (d : Dev) : Dev :=
  let f := d.furrow i
  match f.config with
  | none => d
  | some c =>
    if !f.runs then d
    else
      let d1 := noteRow i c row d
      if rowBegins f c row then takeRow i c row (rowEndsFrame f c row) d1 else d1

/-- A row's end code lands: its stamp is taken and the row is written. -/
def execFurrowRowEnd (time : Nat) (furrow : Fin 16) (row : RowIn) (s : State) : Host.Outcome State Fault Refusal :=
  after time (furrowRowEnd furrow.val row) s

/-! ## Timeout, fill, delivery, silence -/

/-- A frame still received 1.5 × max_period after its SOF ends (R133). -/
def frameTimeout (i : Nat) (d : Dev) : Dev :=
  let f := d.furrow i
  match f.config, f.current, f.lastSof with
  | some c, some _, some t => if f.runs && 2 * (d.now - t) ≥ 3 * (d.stream c.stream).maxPeriod then endReception i c true d else d
  | _, _, _ => d

/-- The frame timeout. -/
def execFrameTimeout (time : Nat) (furrow : Fin 16) (s : State) : Host.Outcome State Fault Refusal :=
  after time (frameTimeout furrow.val) s

/-- The shortest time in ns in which a fill can land, at 22.05 GB/s (R134). -/
def fillTime (c : FurrowConfig) (rows : Nat) : Nat := ceilDiv (rows * c.planes * rawRowBytes c.width c.depthBits * 20) 441

/-- A fill lands: the rows, and their stamps (R131, R134). -/
def landFill (i : Nat) (c : FurrowConfig) (fr : FrameInProgress) (from0 : Nat) (d : Dev) : Dev :=
  let n := c.stream
  let set := rawSetOf d n fr.number
  let stamp := domainNow d c.domain
  let rows := (List.range (c.height - from0)).map (from0 + ·)
  let d := rows.foldl (fun d y =>
    let d := (List.range c.planes).foldl (fun d g => pailWrite c.pail (c.rowOffset fr.slot g y) (fillRow d c set fr.source g y) d) d
    pailWrite c.pail (fr.slot * c.slotSize + 0x1000 + 4 * y) (le 4 (shortStamp stamp)) d) d
  let d := match fr.source with
    | some k => dropSlot (0x2000 + n) k (0x1000 + i) d
    | none => d
  let d := rowsInMemory n c.height fr.number from0 c.height d
  d.onFurrow i fun f => { f with ending := f.ending.map fun x =>
    if x.number = fr.number then { x with fillAt := none, source := none, lastAt := stamp, endAt := d.now } else x }

/-- The oldest fill in hand lands. -/
def fillLands (i : Nat) (d : Dev) : Dev :=
  let f := d.furrow i
  match f.config, f.ending.find? fun x => x.fillAt.isSome with
  | some c, some fr => match fr.fillFrom, fr.fillAt with
    | some r, some t => if d.now ≥ t + fillTime c (c.height - r) then landFill i c fr r d else d
    | _, _ => d
  | _, _ => d

/-- Filled rows land in memory. -/
def execFillLands (time : Nat) (furrow : Fin 16) (s : State) : Host.Outcome State Fault Refusal := after time (fillLands furrow.val) s

/-- A plane or a flow whose line check was made without a measured line time is checked again (R320, R366). -/
def recheckLines (n : Nat) (d : Dev) : Dev :=
  let fail := fun (o : Nat) (need have' : Rat) (d : Dev) =>
    raise 0x0A87 2 o (le 2 o ++ le 2 (0x2000 + n) ++ le 4 (need / 1000).ceil.toNat ++ leInt 4 (have' / 1000).floor) d (td := streamDomain d n)
  let d := (indexed d.display.rasters).foldl (fun d e =>
    let mine := e.2.lineCheck.filter fun k => (branchOf (tabGet e.2.planes k).source).1 = n
    let d := d.onRaster e.1 fun r => { r with lineCheck := r.lineCheck.filter fun k => k ∉ mine }
    match mine.filterMap fun k => planeLineCheck d e.2 (tabGet e.2.planes k) with
    | v :: l => fail (0x4000 + e.1) 2200000 (l.foldl min v) d
    | [] => d) d
  d.net.flows.foldl (fun d e =>
    if e.2.lineCheck && (branchOf e.2.bindObject).1 = n then
      let d := d.onFlow e.1 fun f => { f with lineCheck := false }
      match flowLineCheck d e.2 with
      | some (need, have') => fail (0x8000 + e.1) need have' d
      | none => d
    else d) d

/-- Geometry faults in a row put the furrow into RESYNC (R136). -/
def countGeometry (i : Nat) (c : FurrowConfig) (r : FrameRecord) (d : Dev) : Dev :=
  let f := d.furrow i
  if r.flags % 16 = 0 then d.onFurrow i fun f => { f with geometryFaults := 0 }
  else if f.geometryFaults + 1 ≥ 3 && f.state = .running then
    let o := 0x2000 + c.stream
    let d := d.onFurrow i fun f => { f with geometryFaults := 0, state := .resync, firstNext := true, resyncDrops := 0 }
    raise 0x0380 2 o (le 2 o ++ le 1 (r.flags % 256) ++ le 1 0 ++ le 4 r.number) d (td := c.domain) (frame := r.number)
  else d.onFurrow i fun f => { f with geometryFaults := f.geometryFaults + 1 }

/-- A frame is delivered (R130). -/
def deliver (i : Nat) (c : FurrowConfig) (fr : FrameInProgress) (d : Dev) : Dev :=
  let n := c.stream
  let first := !(d.furrow i).deliveredSinceStart
  let line := if fr.rows ≥ 2 then (fr.lastAt - fr.firstAt) / (fr.rows - 1) else (d.furrow i).lineTimeNs
  let d := d.onFurrow i fun f =>
    { f with lineTimeNs := if fr.fillFrom.isSome then f.lineTimeNs else line, ending := f.ending.filter fun x => x.number ≠ fr.number
             deliveredSinceStart := true, prevSlot := some fr.slot
             lastEnd := if fr.timedOut then f.lastEnd else some (max fr.endAt (f.lastEnd.getD 0)) }
  let r := recordOf d i c fr
  let d := pailWrite c.pail (fr.slot * c.slotSize) r.bytes d
  let d := count (0x1000 + i) 10 1 (d.onFurrow i fun f => { f with
    lastRecord := r, slots := tabMod f.slots fr.slot fun s => { s with frame := fr.number } })
  let d := onWork n fr.number (fun w => { w with delivered := some r, frameEnd := some fr.endAt, laneFill := fr.laneFill }) d
  let d := recorderTake (0x2000 + n) fr.slot fr.number (recorderSource n r d)
  let d := countGeometry i c r (encDelivered n r fr.endAt d)
  let d := if first then chooseFrames (recheckLines n d) else d
  settleStop i c fr.number (finishWork n fr.number (settleOutputs n fr.number (settleRemap i d)))

/-- The oldest frame whose rows are all there is delivered. -/
def frameDeliver (i : Nat) (d : Dev) : Dev :=
  let f := d.furrow i
  match f.config, f.ending.head? with
  | some c, some fr => if fr.fillAt.isNone then deliver i c fr d else d
  | _, _ => d

/-- A frame record is written and the frame delivered. -/
def execFrameDeliver (time : Nat) (furrow : Fin 16) (s : State) : Host.Outcome State Fault Refusal := after time (frameDeliver furrow.val) s

/-- No SOF for 1.5 × max_period (Table 5.6). -/
def furrowSilent (i : Nat) (d : Dev) : Dev :=
  let f := d.furrow i
  match f.config, f.lastSof with
  | some c, some sof =>
    let t := max sof (f.lastEnd.getD 0)
    let o := 0x2000 + c.stream
    if f.runs && !f.silent && f.current.isNone && f.ending.isEmpty && 2 * (d.now - t) ≥ 3 * (d.stream c.stream).maxPeriod then
      raise 0x0385 2 o (le 2 o ++ le 4 (min (2 ^ 32 - 1) ((d.now - sof) / 1000))) (d.onFurrow i fun f => { f with silent := true })
        (td := c.domain) (frame := (d.stream c.stream).frame)
    else d
  | _, _ => d

/-- A furrow is silent. -/
def execFurrowSilent (time : Nat) (furrow : Fin 16) (s : State) : Host.Outcome State Fault Refusal := after time (furrowSilent furrow.val) s

/-! ## Training and re-centring -/

/-- A lane locks (R124): in native mode with an eye of at least 0.30 UI, where some bit rotation of the word it repeats is the training
word, for 1,024 words, at most 3 words after the earliest lane; in CSI-2 mode once its deskew sequence or start of transmission came. -/
def trainLocks (s : SyncCodes) (c : FurrowConfig) (x : TrainIn) (eye : Nat) : Bool :=
  if c.mode = 1 then x.ready
  else 100 * eye ≥ 30 * 64 && x.run ≥ 1024 && x.skew ≤ 3
    && (List.range c.depthBits).any fun k => rotate c.depthBits (x.word % 2 ^ c.depthBits) k = wordOf c.depthBits s.training

/-- FURROW_TRAIN completes (Table 5.15): its event, and COMMAND_COMPLETE to those who sent it. -/
def trainOver (i : Nat) (by_ : List PendingCmd) (d : Dev) : Dev :=
  let f := d.furrow i
  let unlocked := (unlockedLanes f).length
  let narrowest := (mappedLanes f).foldl (fun m k => min m (tabGet f.lanes k).eye) 255
  let d := raise 0x0384 0 (0x1000 + i) (le 2 (0x1000 + i) ++ le 1 ((mappedLanes f).length - unlocked) ++ le 1 unlocked ++ le 1 narrowest) d
    (td := f.config.elim 5 (·.domain))
  by_.foldl (fun d p => completeCmd p { status := 0, detail := unlocked } d) d

/-- Training ends (R124): `found` and `eyes`, widths in 1/64 UI, follow the mapped lanes. -/
def trainDone (i : Nat) (found : List TrainIn) (eyes : List Nat) (d : Dev) : Dev :=
  let f := d.furrow i
  if f.state ≠ .training then d
  else
    let lock := fun (j : Nat) => f.config.any fun c => trainLocks f.sync c (tabGet found j) (tabGet eyes j)
    trainOver i f.trainedBy.toList (d.onFurrow i fun f =>
      { f with state := .stopped, trainedBy := none
               lanes := (indexed (mappedLanes f)).foldl (fun l e => tabMod l e.2 fun y =>
                 { y with locked := lock e.1, failed := y.failed && !lock e.1, eye := min 255 (tabGet eyes e.1), sampling := 0 }) f.lanes })

/-- Training completes, or its 200 ms pass. -/
def execFurrowTrainDone (time : Nat) (furrow : Fin 16) (lanes : List TrainIn) (eyes : List Nat) (s : State) : Host.Outcome State Fault Refusal :=
  after time (trainDone furrow.val lanes eyes) s

/-- A re-centring pass is over, and with it every FURROW_TRAIN that waited for one. -/
def recentreOver (i : Nat) (d : Dev) : Dev :=
  let by_ := (d.furrow i).recentreBy
  let d := d.onFurrow i fun f => { f with lastRecentre := d.now, recentreBy := [] }
  if by_.isEmpty then d else trainOver i by_ d

/-- The headland has lasted 2 µs: no row of the sensor's frame is to come, and the last row ended 2 µs ago (R126). -/
def Furrow.inHeadland (f : Furrow) (now : Nat) : Bool := f.rowsOver && f.lastRow.all fun t => t + 2000 ≤ now

/-- The headland that follows a furrow's last row is at least 20 µs long, as far as the declared period tells. -/
def headlandFits (d : Dev) (f : Furrow) (c : FurrowConfig) : Bool := match f.lastSof, f.lastRow with
  | some s, some e => e + 20000 ≤ s + (d.stream c.stream).minPeriod
  | _, _ => true

/-- A pass of the gleaner over a running furrow's lanes (R126). `moves` follows the mapped lanes; a lane that did not toggle enough has
none, and is counted as a short headland is. Outside the headland no pass begins. -/
def recentre (i : Nat) (moves : List (Option Int)) (d : Dev) : Dev :=
  let f := d.furrow i
  match f.config.filter fun c => f.runs && c.mode = 0 with
  | none => recentreOver i d
  | some c =>
    if !f.inHeadland d.now then d
    else if !headlandFits d f c then count (0x1000 + i) 6 1 d
    else
      let lanes := indexed (mappedLanes f)
      let still := lanes.countP fun e => (tabGet moves e.1).isNone
      let move := fun (l : List Lane) (e : Nat × Nat) => match tabGet moves e.1 with
        | some m => tabMod l e.2 fun x => { x with sampling := x.sampling + max (-2) (min 2 m) }
        | none => l
      recentreOver i ((count (0x1000 + i) 6 still d).onFurrow i fun f => { f with lanes := lanes.foldl move f.lanes })

/-- The gleaner re-centres a furrow's lanes. -/
def execLaneRecentrePass (time : Nat) (furrow : Fin 16) (moves : List (Option Int)) (s : State) : Host.Outcome State Fault Refusal :=
  after time (recentre furrow.val moves) s

/-! ## Pins (R147, Table 5.9) -/

/-- The domain of a furrow's stamps. -/
def furrowDomain (d : Dev) (i : Nat) : Nat := (furrowConfigOf d i).elim 5 (·.domain)

/-- An input edge on a pin that stamps such edges; the FIFO holds 16, and the oldest is overwritten. -/
def stampEdge (i pin : Nat) (rising : Bool) (d : Dev) : Dev :=
  let p := tabGet (d.furrow i).pins pin
  if p.function = (if rising then 5 else 6) && p.pulseUntil.isNone then
    let e : EdgeStamp := { pin, edge := if rising then 0 else 1, stamp := shortStamp (domainNow d (furrowDomain d i)) }
    let full := (d.furrow i).edges.length ≥ 16
    let d := if full then count (0x1000 + i) 7 1 d else d
    d.onFurrow i fun f => { f with edges := (if full then f.edges.drop 1 else f.edges) ++ [e] }
  else d

/-- An input edge is stamped. -/
def execSyncPinEdge (time : Nat) (furrow : Fin 16) (pin : Fin 5) (rising : Bool) (s : State) : Host.Outcome State Fault Refusal :=
  after time (stampEdge furrow.val pin.val rising) s

/-- A single pulse ends, and the pin's own function goes on. -/
def endPulse (i pin : Nat) (d : Dev) : Dev :=
  d.onFurrow i fun f => { f with pins := tabMod f.pins pin fun p => if p.pulseUntil.any fun t => t ≤ d.now then { p with pulseUntil := none } else p }

/-- A single pulse ends. -/
def execSyncPulseEnd (time : Nat) (furrow : Fin 16) (pin : Fin 5) (s : State) : Host.Outcome State Fault Refusal :=
  after time (endPulse furrow.val pin.val) s

/-- A trigger pulse begins at each t with t mod period = phase, unless a single pulse is driven. -/
def triggerPulse (i pin : Nat) (d : Dev) : Dev :=
  let p := tabGet (d.furrow i).pins pin
  let per := pinPeriod d i p.periodNs
  if p.function = 3 && p.pulseUntil.isNone && per ≠ 0 && domainNow d (furrowDomain d i) % per = p.phaseNs then
    d.onFurrow i fun f => { f with pins := tabMod f.pins pin fun p => { p with strobeUntil := some (d.now + p.widthNs) } }
  else d

/-- A trigger pulse begins. -/
def execSyncTriggerPulse (time : Nat) (furrow : Fin 16) (pin : Fin 5) (s : State) : Host.Outcome State Fault Refusal :=
  after time (triggerPulse furrow.val pin.val) s

end Sys2Proof.Machine
end

