-- ==== Sys2Proof/Machine/Chain.lean ====
section
/-! DEFINITION. What a chain job computes: the raw stage (R156 to R172), demosaic and the colour core (R203 to R205), the
statistics (R230 to R235) and the raw taps (R242 to R244). -/

namespace Sys2Proof.Machine

/-- What the jobs of a frame of a sensor stream read: the furrow's configuration and the frame with its set and tables. -/
structure ChainIn where
  c : FurrowConfig := {}
  w : FrameWork := {}
  tables : RawTables := {}
  field : Option MotionField := none
  prev : List Picture := []
  deriving Inhabited

/-- The raw set bound to the frame. -/
def ChainIn.raw (x : ChainIn) : RawSet := x.w.settings.raw

/-- Columns and rows of the photosite that stands for a coordinate (R27). -/
def ChainIn.mx (t : ChainIn) (x : Int) : Nat := mirror x t.c.width t.c.cfaW
def ChainIn.my (t : ChainIn) (y : Int) : Nat := mirror y t.c.height t.c.cfaH

/-- The channel of a coordinate. -/
def ChainIn.ch (t : ChainIn) (x y : Int) : Nat := t.c.channel (t.mx x) (t.my y)

/-- A region of the tile at (row, col): the tile and its 12-site halo (R27). -/
def tileRegion {α : Type} (row col : Nat) (f : Int → Int → α) : Region α :=
  Region.make ((256 * col : Nat) - 12 : Int) ((128 * row : Nat) - 12 : Int) 280 152 f

/-- The sites of a tile that lie in the image. -/
def tileSites (w h row col : Nat) : List (Nat × Nat) :=
  (List.range (min 128 (h - 128 * row))).flatMap fun j => (List.range (min 256 (w - 256 * col))).map fun i => (256 * col + i, 128 * row + j)

/-- black, white, a and b of a channel and plane (R160, Table 6.3). -/
def ChainIn.black (t : ChainIn) (g ch : Nat) : Rat := fp ((t.raw.black.getD g []).getD ch 0)
def ChainIn.white (t : ChainIn) (g ch : Nat) : Rat := match t.raw.white.getD g none with
  | some l => fp (l.getD ch 0)
  | none => ((2 ^ t.c.depthBits - 1 : Nat) : Rat)

/-- σ of a site of channel `ch` whose code is `x` (R160). -/
def ChainIn.sigma (t : ChainIn) (g ch : Nat) (x : Rat) : Rat :=
  let m := tabGet t.tables.noise t.raw.noiseSlot
  let s := max 0 (fsub x (t.black g ch))
  fsqrt (fadd (fmul (fp ((m.a.getD g []).getD ch 0)) s) (fp ((m.b.getD g []).getD ch 0)))

/-! ## Step 1: defects (R161, R162) -/

/-- The raw codes of a plane over a tile's region. -/
def ChainIn.codes (t : ChainIn) (d : Dev) (g row col : Nat) : Region Rat :=
  let y0 : Int := (128 * row : Nat) - 12
  let x0 : Int := (256 * col : Nat) - 12
  { x0, y0, rows := (List.range 152).map fun j =>
      let r := storedRow d t.c t.w.slot g (t.my (y0 + j))
      (List.range 280).map fun i => ((unpackBits t.c.depthBits r (t.mx (x0 + i)) : Nat) : Rat) }

/-- The same-phase neighbours of a site at a distance (R157). -/
def ChainIn.ring {α : Type} [Inhabited α] (t : ChainIn) (g : Region α) (x y : Int) (n : Nat) : List α :=
  let span := (List.range (2 * n + 1)).map fun k => (k : Int) - n
  span.flatMap fun j => span.filterMap fun i =>
    if max i.natAbs j.natAbs = n then some (g.near t.c.cfaW t.c.cfaH (x + i * t.c.cfaW) (y + j * t.c.cfaH)) else none

/-- Dynamic detection at a site (R161). -/
def ChainIn.dynamic (t : ChainIn) (g : Nat) (codes : Region Rat) (x y : Int) : Bool :=
  if t.raw.dynThresh = 0 then false
  else
    let v := codes.near t.c.cfaW t.c.cfaH x y
    let l := t.ring codes x y 1
    let k := fmul (fdiv (t.raw.dynThresh : Rat) 16) (t.sigma g (t.ch x y) v)
    v > fadd (l.foldl max (l.headD 0)) k || v < fsub (l.foldl min (l.headD 0)) k

/-- Defect sites of a region. -/
def ChainIn.defects (t : ChainIn) (g row col : Nat) (codes : Region Rat) : Region Bool :=
  let listed := t.tables.defects.getD t.raw.defectSlot []
  tileRegion row col fun x y => (t.my y, t.mx x, g) ∈ listed || t.dynamic g codes x y

/-- The median; of an even number, the mean of the two middle values. -/
def median (l : List Rat) : Rat :=
  let s := l.mergeSort (fun a b => decide (a ≤ b))
  let n := s.length
  if n % 2 = 1 then s.getD (n / 2) 0 else fdiv (fadd (s.getD (n / 2 - 1) 0) (s.getD (n / 2) 0)) 2

/-- Codes with the defects replaced. -/
def ChainIn.repaired (t : ChainIn) (g row col : Nat) (codes : Region Rat) (bad : Region Bool) : Region Rat :=
  tileRegion row col fun x y =>
    if !bad.near t.c.cfaW t.c.cfaH x y then codes.near t.c.cfaW t.c.cfaH x y
    else
      let good := fun (n : Nat) => ((t.ring codes x y n).zip (t.ring bad x y n)).filterMap fun e => if e.2 then none else some e.1
      match good 1, good 2 with
      | v :: l, _ => median (v :: l)
      | [], v :: l => median (v :: l)
      | [], [] => t.black g (t.ch x y)

/-! ## Step 2: spatial noise reduction (R163) -/

/-- The spatial filter at a site. -/
def ChainIn.spatialAt (t : ChainIn) (g : Nat) (v : Region Rat) (bad : Region Bool) (x y : Int) : Rat :=
  let s := t.raw.snr
  let c := v.near t.c.cfaW t.c.cfaH x y
  let sg := t.sigma g (t.ch x y) c
  let span := (List.range (2 * s.radius + 1)).map fun k => (k : Int) - s.radius
  let win : List (Rat × Rat) := span.flatMap fun j => span.filterMap fun i =>
    let (px, py) := (x + i * t.c.cfaW, y + j * t.c.cfaH)
    if bad.near t.c.cfaW t.c.cfaH px py then none
    else
      let q := v.near t.c.cfaW t.c.cfaH px py
      let dist := fsub q c
      let k := (fdiv (fmul 4 (if dist < 0 then -dist else dist)) sg).floor.toNat
      some (if i = 0 && j = 0 then (s.centre : Rat) else ((s.lut.getD (min 15 k) 0 : Nat) : Rat), q)
  let sw := fsum (win.map (·.1))
  let f := if sw = 0 then c else fdiv (fsum (win.map fun e => fmul e.1 e.2)) sw
  fadd c (fmul (fdiv (s.strength : Rat) 256) (fsub f c))

/-- Step 2 over a region. -/
def ChainIn.spatial (t : ChainIn) (g row col : Nat) (v : Region Rat) (bad : Region Bool) : Region Rat :=
  if t.raw.snr.enable then tileRegion row col (t.spatialAt g v bad) else v

/-! ## Step 3: temporal noise reduction (R164 to R168) -/

/-- The block vector at a photosite in ¼ photosite; none where the block has no valid one. -/
def ChainIn.vector (t : ChainIn) (bx by' : Nat) : Option (Int × Int) :=
  t.field.bind fun f =>
    let r := tabGet f.records (by' * f.blocksW + bx)
    let band := by' * ceilDiv t.c.width 2048 + bx / 128
    if bx < f.blocksW && by' < f.blocksH && r.valid && band ∉ t.w.forfeited then some (r.vx, r.vy) else none

/-- The ceil(n ÷ 2)-th smallest of a list; zero of none. -/
def lowerMedian (l : List Int) : Int := (l.mergeSort (fun a b => decide (a ≤ b))).getD ((l.length + 1) / 2 - 1) 0

/-- The displacement of a tile's window in photosites, whole CFA periods (R164). -/
def ChainIn.window (t : ChainIn) (row col : Nat) : Int × Int :=
  let vs := (List.range 8).flatMap fun j => (List.range 16).filterMap fun i => t.vector (16 * col + i) (8 * row + j)
  let o := fun (per : Nat) (m : Int) => (per : Int) * roundAway ((m : Rat) / 4 / (per : Rat))
  (o t.c.cfaW (lowerMedian (vs.map (·.1))), o t.c.cfaH (lowerMedian (vs.map (·.2))))

/-- A value of the previous denoised frame in codes (R158). -/
def ChainIn.before (t : ChainIn) (g x y : Nat) : Rat :=
  fdiv (((((t.prev.getD g {}).rows.getD y []).getD x 0) : Nat) : Rat) ((2 ^ (16 - t.c.depthBits) : Nat) : Rat)

/-- The site of a plane was filled, by row or by lane (R168). -/
def siteFilled (c : FurrowConfig) (w : FrameWork) (g x y : Nat) : Bool :=
  (w.fillFirst.any fun r => r ≤ y)
  || (w.laneFill ≠ 0 && (pixelSources w.map).any fun e => e.carries c g x && (e.lanes c).any fun k => bit w.laneFill k)

/-- The aligned previous value at a site for a residual in ¼ photosite (R165). -/
def ChainIn.aligned (t : ChainIn) (win : Region Rat) (rx ry : Int) (x y : Int) : Rat :=
  let step := fun (r : Int) (per : Nat) => let p : Int := 4 * per; (r / p, fdiv ((r - r / p * p : Int) : Rat) (p : Rat))
  let (bx, fx) := step rx t.c.cfaW
  let (by', fy) := step ry t.c.cfaH
  let at1 := fun (i j : Int) => win.near t.c.cfaW t.c.cfaH (x + (bx + i) * t.c.cfaW) (y + (by' + j) * t.c.cfaH)
  let line := fun (j : Int) => fadd (fmul (fsub 1 fx) (at1 0 j)) (fmul fx (at1 1 j))
  fadd (fmul (fsub 1 fy) (line 0)) (fmul fy (line 1))

/-- The blend factor at a mean difference in σ (R166). -/
def Tnr.blend (s : Tnr) (m : Rat) : Rat :=
  let lo := fdiv (s.tLo : Rat) 16
  let hi := fdiv (s.tHi : Rat) 16
  let k := fdiv (s.kMin : Rat) 256
  if m ≤ lo then k else if m ≥ hi then 1 else fadd k (fmul (fsub 1 k) (fdiv (fsub m lo) (fsub hi lo)))

/-- Temporal noise reduction at a site, from the spatial filter's output. -/
def ChainIn.temporalAt (t : ChainIn) (g : Nat) (o : Int × Int) (v win : Region Rat) (x y : Int) : Rat :=
  let s := t.raw.tnr
  let cur := v.near t.c.cfaW t.c.cfaH x y
  let (sx, sy) := (t.mx x, t.my y)
  if t.prev.isEmpty then cur
  else if siteFilled t.c t.w g sx sy then t.before g sx sy
  else if t.w.kOne then cur
  else match t.vector (sx / 16) (sy / 16) with
    | none => cur
    | some (vx, vy) =>
      let (rx, ry) := (vx - 4 * o.1, vy - 4 * o.2)
      if rx.natAbs + 8 * t.c.cfaW > 48 || ry.natAbs + 8 * t.c.cfaH > 48
        || (s.maxDisp ≠ 0 && (vx.natAbs > 4 * s.maxDisp || vy.natAbs > 4 * s.maxDisp)) then cur
      else
        let diff := fun (x y : Int) => fsub (v.near t.c.cfaW t.c.cfaH x y) (t.aligned win rx ry x y)
        let span : List Int := [-1, 0, 1]
        let ds := span.flatMap fun j => span.map fun i => let q := diff (x + i * t.c.cfaW) (y + j * t.c.cfaH); if q < 0 then -q else q
        let m := fdiv (fdiv (fsum ds) 9) (t.sigma g (t.ch x y) cur)
        fadd (t.aligned win rx ry x y) (fmul (s.blend m) (diff x y))

/-- Step 3 over a region. -/
def ChainIn.temporal (t : ChainIn) (g row col : Nat) (v : Region Rat) : Region Rat :=
  if !t.raw.tnr.enable then v
  else
    let o := t.window row col
    let win := tileRegion row col fun x y => t.before g (t.mx (x + o.1)) (t.my (y + o.2))
    tileRegion row col (t.temporalAt g o v win)

/-- A code as the denoised frame stores it (R158). -/
def ChainIn.stored (t : ChainIn) (v : Rat) : Nat := (clampInt (roundUpHalf (v * ((2 ^ (16 - t.c.depthBits) : Nat) : Rat))) 0 65535).toNat

/-! ## Steps 4 to 7 (R169 to R172) -/

/-- A site past the raw stage: its value and its clip mark. -/
structure Site where
  v : Rat := 0
  clip : Bool := false
  deriving DecidableEq, Repr, Inhabited

/-- Step 4: n of a plane. -/
def ChainIn.normal (t : ChainIn) (g : Nat) (code : Rat) (x y : Nat) : Rat :=
  let ch := t.c.channel x y
  let f := tabGet t.tables.fpn t.raw.fpnSlot
  let (co, gain) := match (f.columns.getD g [])[x]? with
    | some (o, k) => (fdiv (o : Rat) 16, hp k)
    | none => (0, 1)
  let ro := match (f.rows.getD g [])[y]? with
    | some o => fdiv (o : Rat) 16
    | none => 0
  let n := fdiv (fmul (fsub (fsub (fsub code (t.black g ch)) ro) co) gain) (fsub (t.white g ch) (t.black g ch))
  clampRat n (-1 / 16) 2

/-- A site is clipped on a plane (R170). -/
def ChainIn.clipped (t : ChainIn) (g : Nat) (raw : Rat) (x y : Nat) : Bool := raw ≥ t.white g (t.c.channel x y)

/-- Step 5: one merged site, from each plane's raw code and code after step 3. -/
def ChainIn.merge (t : ChainIn) (raw codes : Nat → Rat) (x y : Nat) : Site :=
  let u := t.raw.dual
  let ratio := fp u.ratio
  if t.c.dualGain = 0 then
    { v := clampRat (t.normal 0 (codes 0) x y) (-1 / 16) (fmul 2 ratio), clip := t.clipped 0 (raw 0) x y }
  else
    let hg := u.hgPlane
    let lg := 1 - hg
    let nh := t.normal hg (codes hg) x y
    let nl := t.normal lg (codes lg) x y
    let w := if t.clipped hg (raw hg) x y then 1 else clampRat (fdiv (fsub nh (fp u.kneeLo)) (fsub (fp u.kneeHi) (fp u.kneeLo))) 0 1
    { v := clampRat (fadd (fmul (fsub 1 w) nh) (fmul (fmul w ratio) nl)) (-1 / 16) (fmul 2 ratio), clip := t.clipped lg (raw lg) x y }

/-- A channel's gain of a shading slot at a site; an empty slot gives 1. -/
def shadeAt (s : ShadingTable) (w h ch x y : Nat) : Rat :=
  if s.gridW < 2 || s.gridH < 2 then 1
  else
    let place := fun (p n g : Nat) =>
      let u := fdiv (fmul (p : Rat) ((g - 1 : Nat) : Rat)) ((n - 1 : Nat) : Rat)
      let i := min u.floor.toNat (g - 2)
      (i, fsub u (i : Rat))
    let (i, fx) := place x w s.gridW
    let (j, fy) := place y h s.gridH
    let node := fun (i j : Nat) => hp ((s.nodes.getD (j * s.gridW + i) []).getD ch 0)
    let line := fun (j : Nat) => fadd (fmul (fsub 1 fx) (node i j)) (fmul fx (node (i + 1) j))
    fadd (fmul (fsub 1 fy) (line j)) (fmul fy (line (j + 1)))

/-- Steps 6 and 7. -/
def ChainIn.finish (t : ChainIn) (s : Site) (x y : Nat) : Site :=
  let r := t.raw
  let ch := t.c.channel x y
  let gain := fun (slot : Nat) => shadeAt (tabGet t.tables.shading slot) t.c.width t.c.height ch x y
  let beta := fdiv (r.blend : Rat) 256
  let g := fadd (fmul (fsub 1 beta) (gain r.shadingA)) (fmul beta (gain r.shadingB))
  { s with v := max (-1 / 16) (fmul (fmul s.v g) (fp (r.wb.getD ch fpOne))) }

/-- A tile through the raw stage: per plane what steps 1 to 3 give, and what steps 5 and 7 give. -/
structure RawTile where
  raw : List (Region Rat) := []
  bad : List (Region Bool) := []
  repaired : List (Region Rat) := []
  spatial : List (Region Rat) := []
  temporal : List (Region Rat) := []
  merged : Region Site := {}
  out : Region Site := {}

/-- The raw stage of a tile (Table 6.1). -/
def ChainIn.tile (t : ChainIn) (d : Dev) (row col : Nat) : RawTile :=
  let gs := List.range t.c.planes
  let raw := gs.map fun g => t.codes d g row col
  let reg := fun {α : Type} (l : List (Region α)) (g : Nat) => l.getD g {}
  let bad := gs.map fun g => t.defects g row col (reg raw g)
  let repaired := gs.map fun g => t.repaired g row col (reg raw g) (reg bad g)
  let spatial := gs.map fun g => t.spatial g row col (reg repaired g) (reg bad g)
  let temporal := gs.map fun g => t.temporal g row col (reg spatial g)
  let at1 := fun (l : List (Region Rat)) (x y : Int) (g : Nat) => (l.getD g {}).near t.c.cfaW t.c.cfaH x y
  let merged := tileRegion row col fun x y => t.merge (at1 raw x y) (at1 temporal x y) (t.mx x) (t.my y)
  { raw, bad, repaired, spatial, temporal, merged
    out := tileRegion row col fun x y => t.finish (merged.near t.c.cfaW t.c.cfaH x y) (t.mx x) (t.my y) }

/-! ## Demosaic and the colour core (R203, R204) -/

/-- The channels that demosaic tells apart: 0 R, 1 G, 2 B, 3 W. -/
def chanClass (ch : Nat) : Nat := match ch with
  | 0 => 0
  | 3 => 2
  | 4 => 3
  | _ => 1

/-- A region of sites with the class of each coordinate. -/
structure Mosaic where
  t : ChainIn := {}
  g : Region Site := {}
  guide : Region Rat := {}

/-- A site of a mosaic. -/
def Mosaic.site (m : Mosaic) (x y : Int) : Site := m.g.near m.t.c.cfaW m.t.c.cfaH x y
def Mosaic.cls (m : Mosaic) (x y : Int) : Nat := chanClass (m.t.ch x y)

/-- The places at a Chebyshev distance. -/
def ringAt (x y : Int) (n : Nat) : List (Int × Int) :=
  let span := (List.range (2 * n + 1)).map fun k => (k : Int) - n
  span.flatMap fun j => span.filterMap fun i => if max i.natAbs j.natAbs = n then some (x + i, y + j) else none

/-- The candidates for a class at a site (R203). -/
def Mosaic.candidates (m : Mosaic) (k : Nat) (x y : Int) : List (Int × Int) :=
  (([1, 2, 3].map fun n => (ringAt x y n).filter fun p => m.cls p.1 p.2 = k).find? fun l => !l.isEmpty).getD []

/-- A mosaic with the guide of each site: the mean of the sites within distance 1. -/
def mosaicOf (t : ChainIn) (row col : Nat) (g : Region Site) : Mosaic :=
  let m : Mosaic := { t, g }
  { m with guide := tileRegion row col fun x y => boxMean (((x, y) :: ringAt x y 1).map fun p => (m.site p.1 p.2).v) }

/-- Method 1's estimate of a class at a site. -/
def Mosaic.edge (m : Mosaic) (k : Nat) (x y : Int) : Rat :=
  if m.cls x y = k then (m.site x y).v
  else
    let g := fun (x y : Int) => m.guide.near m.t.c.cfaW m.t.c.cfaH x y
    let l := (m.candidates k x y).map fun p =>
      let dg := fsub (g p.1 p.2) (g x y)
      (fdiv 1 (fadd (1 / 1024) (if dg < 0 then -dg else dg)), (m.site p.1 p.2).v)
    fdiv (fsum (l.map fun e => fmul e.1 e.2)) (fsum (l.map (·.1)))

/-- The class of some site of the CFA. -/
def Mosaic.present (m : Mosaic) (k : Nat) : Bool := (m.t.c.cfa.take (m.t.c.cfaW * m.t.c.cfaH)).any fun ch => chanClass ch = k

/-- The dense channel of method 2. -/
def Mosaic.dense (m : Mosaic) : Nat := if m.present 3 then 3 else 1

/-- A class at a site, by the stream's method. W is 0 where the CFA has none; what another absent channel gives is open. -/
def Mosaic.value (m : Mosaic) (method k : Nat) (x y : Int) : Rat :=
  if m.cls x y = k then (m.site x y).v
  else if !m.present k then (if k = 3 then 0 else fr (Config.freeReal (7 + k) ((m.t.mx x + m.t.c.width * m.t.my y : Nat) : Rat) (m.t.w.number : Rat)))
  else match method with
    | 0 => boxMean ((m.candidates k x y).map fun p => (m.site p.1 p.2).v)
    | 1 => m.edge k x y
    | _ =>
      if k = m.dense || !m.present m.dense then m.edge k x y
      else fadd (m.edge m.dense x y) (boxMean ((m.candidates k x y).map fun p => fsub (m.site p.1 p.2).v (m.edge m.dense p.1 p.2)))

/-- The sites whose values enter a pixel's estimates (R204). -/
def Mosaic.used (m : Mosaic) (method : Nat) (x y : Int) : List (Int × Int) :=
  let one := fun (k : Nat) (x y : Int) => if m.cls x y = k then [(x, y)] else m.candidates k x y
  (x, y) :: (List.range 4).flatMap fun k =>
    if !m.present k then []
    else one k x y ++ (if method = 2 then one m.dense x y ++ (one k x y).flatMap fun p => one m.dense p.1 p.2 else [])

/-- Steps 1 to 3 of Table 8.1 at a pixel. -/
def Mosaic.core (m : Mosaic) (s : ColourSet) (x y : Int) : Pixel :=
  let v := fun k => m.value s.method k x y
  let mask : Rat := if (m.used s.method x y).any fun p => (m.site p.1 p.2).clip then 1 else 0
  let p := s.camera.apply { r := v 0, g := v 1, b := v 2, a := v 3 }
  let top := max p.r (max p.g p.b)
  if s.highlight = 1 && mask = 1 then { r := top, g := top, b := top, a := mask } else { p with a := mask }

/-- The colour core of a sensor tile. -/
def sensorCore (t : ChainIn) (row col : Nat) (g : Region Site) : Region Pixel :=
  let m := mosaicOf t row col g
  tileRegion row col (m.core t.w.settings.colour)

/-- A pixel of a decoded picture as R'G'B' (R205 steps 1 to 3); with no picture yet it is mid-grey (R307). -/
def playbackPixel (d : Dev) (q : Option Stored) (s : ColourSet) (x y : Int) : Pixel :=
  let luma := fun (v : Nat) (n : Nat) => dequantLuma n s.inRange v
  match q with
  | none =>
    let g := luma 512 10
    if s.inYcc = 0 then { r := g, g := g, b := g }
    else fromYcc s.inYcc { r := g, g := dequantChroma 10 s.inRange 512, b := dequantChroma 10 s.inRange 512 }
  | some q =>
    let (px, py) := (mirror x q.w 1, mirror y q.h 1)
    if s.inYcc = 0 then
      let v := fun (plane : Nat) => luma (q.word d plane py (2 * px)) (formatDepth q.format)
      { r := v 0, g := v 1, b := v 2 }
    else
      let n := formatDepth q.format
      let q := { q with format := 16 * (2 + s.inChroma) + q.format % 16 }
      let chroma := fun (which : Nat) => dequantChroma n s.inRange (q.chromaAt d id px py which)
      fromYcc s.inYcc { r := luma (q.word d 0 py (2 * px)) n, g := chroma 0, b := chroma 1 }

/-- The colour core of a playback tile (R205). -/
def playbackCore (d : Dev) (q : Option Stored) (s : ColourSet) (row col : Nat) : Region Pixel :=
  let toWork := builtinMatrix s.inPrimaries s.working
  tileRegion row col fun x y =>
    { (applyMat toWork ((playbackPixel d q s x y).map (linearise s.inTransfer (fp s.inScale)))) with a := 0 }

/-- How many results of a playback tile are no number (R200). -/
def playbackNonfinite (d : Dev) (q : Option Stored) (s : ColourSet) (row col : Nat) : Nat :=
  if s.inTransfer ≠ 3 then 0
  else
    let g := tileRegion row col (playbackPixel d q s)
    sumOf (sumOf fun p => boolNat (notNumber 3 p.r) + boolNat (notNumber 3 p.g) + boolNat (notNumber 3 p.b)) g.rows

/-- A core pixel as the spill pail holds it (R29, R201). -/
def spillPixel (p : Pixel) : List Nat := [bits16 p.r, bits16 p.g, bits16 p.b, bits16 p.a]

/-- The core result of a tile's region as fp16 patterns: the tile with its halo, so that a spill job computes over the same region
as its chain job (R202). -/
def spillTile (core : Region Pixel) : List (List Nat) := core.rows.map (·.flatMap spillPixel)

/-- The region that a spill job reads back. -/
def spillRegion (rows : List (List Nat)) (row col : Nat) : Region Pixel :=
  let value := fun (x y : Nat) (k : Nat) => hp ((rows.getD y []).getD (4 * x + k) 0)
  { x0 := ((256 * col : Nat) - 12 : Int), y0 := ((128 * row : Nat) - 12 : Int)
    rows := (List.range 152).map fun y => (List.range 280).map fun x =>
      { r := value x y 0, g := value x y 1, b := value x y 2, a := value x y 3 } }

/-! ## Statistics (R230 to R235) -/

/-- floor(16 × log2 v) and such, by repeated squaring: floor(2^n × log2 v) for v > 0. -/
def log2Steps : Nat → Rat → Int
  | 0, v => exponentOf v
  | n + 1, v =>
    let e := exponentOf v
    let m := v / pow2 e
    2 ^ (n + 1) * e + fracSteps (n + 1) m
where
  /-- The binary digits of log2 m for 1 ≤ m < 2. -/
  fracSteps : Nat → Rat → Int
    | 0, _ => 0
    | k + 1, m => if m * m ≥ 2 then 2 ^ k + fracSteps k (m * m / 2) else fracSteps k (m * m)

/-- The raw histogram's bin (R232). -/
def rawBin (mode : Nat) (v : Rat) : Nat :=
  if mode = 1 then (if v < 0 then 0 else (clampInt (256 * v).floor 0 255).toNat)
  else if v ≤ 1 / 4096 then 0 else (clampInt (log2Steps 4 v + 192) 0 255).toNat

/-- The luma histogram's bin (R233). -/
def lumaBin (working : Nat) (p : Pixel) : Nat :=
  let k := lumaCoeffs working
  let y := fadd (fadd (fmul (k.getD 0 0) p.r) (fmul (k.getD 1 0) p.g)) (fmul (k.getD 2 0) p.b)
  if y ≤ 1 / 1024 then 0 else (clampInt (log2Steps 6 y + 640) 0 1023).toNat

/-- The zone of a site along one axis (R234). -/
def zoneOf (x w n p : Nat) : Option Nat :=
  if p < x || p ≥ x + w then none
  else (List.range n).find? fun z => x + z * w / n ≤ p && p < x + (z + 1) * w / n

/-- A count added under a key. -/
def bump (m : NMap Nat) (k n : Nat) : NMap Nat := mapSet m k (mapGetD m k 0 + n)

/-- The source of a site in the frame's map, for the counts of R230: those of its two planes with lane-split dual gain. -/
def siteSource (c : FurrowConfig) (w : FrameWork) (x : Nat) : Nat :=
  let hit := fun (g : Nat) => ((indexed (pixelSources w.map)).find? fun e => e.2.carries c g x).elim 0 (·.1)
  hit 0 * 128 + hit (c.planes - 1)

/-- One site counted. -/
def StatsFold.site (f : StatsFold) (t : ChainIn) (s : Site) (core : Pixel) (x y : Nat) : StatsFold :=
  let st := t.w.settings.stats
  let ch := t.c.channel x y
  let src := siteSource t.c t.w x
  let (zx0, zy0, zw, zh) := st.window t.c.width t.c.height
  let zone := match zoneOf zx0 zw 64 x, zoneOf zy0 zh 48 y with
    | some zx, some zy => some (zy * 64 + zx)
    | _, _ => none
  let add := fun (z : Zone) =>
    { sum := if s.clip then z.sum else tabMod z.sum ch (· + roundUpHalf (s.v * 65536))
      n := tabMod z.n ch (· + 1), clipped := if s.clip then tabMod z.clipped ch (· + 1) else z.clipped : Zone }
  { f with
    raw := bump f.raw (sourceKey src (ch * 256 + rawBin st.mode s.v)) 1
    luma := bump f.luma (sourceKey src (lumaBin t.w.settings.colour.working core)) 1
    zones := match zone with
      | some z => mapSet f.zones (sourceKey src z) (add (mapGetD f.zones (sourceKey src z) {}))
      | none => f.zones }

/-- A tile's contribution (R230, R231). -/
def StatsFold.tile (f : StatsFold) (t : ChainIn) (r : RawTile) (core : Region Pixel) (row col : Nat) : StatsFold :=
  (tileSites t.c.width t.c.height row col).foldl (fun f p =>
    let (x, y) := p
    if t.w.fillFirst.any fun k => k ≤ y then f
    else
      let g := if t.w.settings.stats.point = 0 then r.merged else r.out
      f.site t (g.near 1 1 (x : Int) (y : Int)) (core.near 1 1 (x : Int) (y : Int)) x y) f

/-! ## Raw taps (R242 to R244) -/

/-- A tap sample in its format, all but format 1. -/
def tapSample (t : ChainIn) (format : Nat) (v : Rat) : List Byte := match format with
  | 0 => le 2 (t.stored v)
  | 2 => le 2 (bits16 v)
  | _ => le 2 (clampInt (roundUpHalf (v * 4096)) 0 65535).toNat

/-- Bits written into a row that shares bytes with its neighbours: the bytes that hold columns `a` to `a + l.length − 1`. -/
def patchBits (bw stride : Nat) (old : List Byte) (a : Nat) (l : List Nat) : List Byte :=
  let v := unle old
  let m := 2 ^ (bw * l.length)
  let low := v % 2 ^ (bw * a)
  let mid := l.foldr (fun x acc => x % 2 ^ bw + acc * 2 ^ bw) 0
  le stride (low + 2 ^ (bw * a) * (mid + m * (v / 2 ^ (bw * (a + l.length)))))

/-- The value a tap takes at a site. -/
def RawTile.tap (r : RawTile) (point g : Nat) (x y : Int) : Rat := match point with
  | 0 => (r.repaired.getD g {}).near 1 1 x y
  | 1 => (r.spatial.getD g {}).near 1 1 x y
  | 2 => (r.temporal.getD g {}).near 1 1 x y
  | 3 => (r.merged.near 1 1 x y).v
  | _ => (r.out.near 1 1 x y).v

/-- A tap's part of a tile, written into its slot: `value g x y` gives the samples. -/
def writeTap (t : ChainIn) (s : TapSet) (point slot row col : Nat) (value : Nat → Nat → Nat → Rat) (d : Dev) : Dev :=
  let (cx, cy, cw, ch) := s.crop t.c.width t.c.height
  let st := tapStride s.format cw t.c.depthBits
  let plane := roundUp (st * ch) 4096
  let base := slot * tapSlot s.format cw ch t.c.depthBits (planesOfTap t.c point)
  let x0 := max cx (256 * col)
  let x1 := min (cx + cw) (min t.c.width (256 * col + 256))
  let y0 := max cy (128 * row)
  let y1 := min (cy + ch) (min t.c.height (128 * row + 128))
  (List.range (planesOfTap t.c point)).foldl (fun d g => (List.range (y1 - y0)).foldl (fun d j =>
    let y := y0 + j
    let at1 := base + 0x1000 + g * plane + (y - cy) * st
    let vs := (List.range (x1 - x0)).map fun i => value g (x0 + i) y
    if s.format = 1 then
      let codes := vs.map fun v => (clampInt (roundUpHalf v) 0 (2 ^ t.c.depthBits - 1 : Nat)).toNat
      pailWrite s.pail at1 (patchBits t.c.depthBits st (pailRead d s.pail at1 st) (x0 - cx) codes) d
    else pailWrite s.pail (at1 + 2 * (x0 - cx)) (vs.flatMap (tapSample t s.format)) d) d) d

end Sys2Proof.Machine
end

