-- ==== Sys2Proof/Machine/Motion.lean ====
section
/-! DEFINITION. The motion field: proxy and pyramid (R184, R185), bands and their search (R186 to R189), bands that come late
or are concealed (R194, R195), and the field's end (R190 to R192, Table 7.6). -/

namespace Sys2Proof.Machine

/-! ## When things are due -/

/-- T_r of a tile-row: its stamp, or what the line time predicts (R28, R103). -/
def tileTime (d : Dev) (n h : Nat) (w : FrameWork) (r : Nat) : Nat :=
  (mapGet w.lineAt r).getD (w.sof + (((releaseRow h r + 1 : Nat) : Rat) * streamLineTime d n).floor.toNat)

/-- The end of a frame, or what the line time predicts. -/
def frameEndOf (d : Dev) (n h : Nat) (w : FrameWork) : Nat :=
  w.frameEnd.getD (w.sof + ((h : Rat) * streamLineTime d n).floor.toNat)

/-- The deadline of drill work of a class on a tile-row (Table 2.3). -/
def drillDeadline (d : Dev) (n h : Nat) (w : FrameWork) (cls r : Nat) : Nat := match cls with
  | 0 => tileTime d n h w r + 1500000
  | 1 => frameEndOf d n h w + (d.stream n).minPeriod
  | _ => frameEndOf d n h w + 4 * (d.stream n).minPeriod

/-- A job of a stream's frame that completes after its deadline (R37, R48): at most one event for a class and a frame. -/
def noteMiss (n frame cls due : Nat) (d : Dev) : Dev :=
  if d.now ≤ due then d
  else
    let key := frame * 4 + cls
    let k := mapGetD (d.stream n).missed key 0 + 1
    let d := count (0x2000 + n) 4 1 (d.onStream n fun s => let m := mapSet s.missed key k; { s with missed := m.drop (m.length - 64) })
    if k = 1 then
      raise 0x0284 2 (0x2000 + n) (le 1 cls ++ le 4 ((d.now - due) / 1000) ++ le 2 k) d (td := streamDomain d n) (frame := frame)
    else d

/-- The class of the most urgent job of a tile-row. -/
def rowClass (d : Dev) (n : Nat) (w : FrameWork) : Nat :=
  let p := planOf d n w.settings
  p.spills.foldl (fun c j => min c (branchesClass w.settings j.2)) (chainClass w.settings p)

/-! ## Bands -/

/-- Column spans of a block row, and the place of a band among a field's bands (R186). -/
def spansOf (w : Nat) : Nat := ceilDiv w 2048
def bandIndex (w row span : Nat) : Nat := row * spansOf w + span

/-- The bands that cover a tile-row. -/
def bandsOf (w h r : Nat) : List Nat :=
  (List.range (ceilDiv h 16)).flatMap fun b => if b / 8 = r then (List.range (spansOf w)).map fun s => bandIndex w b s else []

/-- A tile-row no longer waits for a band. -/
def bandSettled (f : MotionField) (w : FrameWork) (k : Nat) : Bool := (f.bands.getD k .waiting).over || k ∈ w.forfeited

/-- The motion bands of a tile-row are written, or there is no field to wait for. -/
def bandsSettled (s : Stream) (w : FrameWork) (size : Nat × Nat) (r : Nat) : Bool := match fieldOfWork s w with
  | some f => (bandsOf size.1 size.2 r).all (bandSettled f w)
  | none => true

/-- Changes the field of a frame in flight. -/
def onField (n : Nat) (w : FrameWork) (g : MotionField → MotionField) (d : Dev) : Dev :=
  d.onStream n fun s => { s with fields := s.fields.map fun f => if f.frame = w.number then g f else f }

/-- Sets the state of a band. -/
def setBand (n : Nat) (w : FrameWork) (k : Nat) (b : BandState) : Dev → Dev :=
  onField n w fun f => { f with bands := tabMod f.bands k fun _ => b }

/-- A drill job of a tile-row of a frame waits, runs or is still to come. -/
def rowPending (d : Dev) (n : Nat) (w : FrameWork) (r : Nat) : Bool :=
  let mine := fun (j : Job) => j.stream = n && j.frame = w.number && j.row = r
  (!w.withdrawn && r ∉ w.released)
  || (d.fabric.fields.any fun f => f.queues.any fun q => q.any mine)
  || d.fabric.drills.any fun x => (x.job).any mine

/-! ## Proxy and pyramid -/

/-- A level-0 sample from the raw slot (R184). -/
def proxySample (d : Dev) (c : FurrowConfig) (w : FrameWork) (x y : Nat) : Nat :=
  let g := if c.dualGain = 0 then 0 else w.settings.raw.dual.hgPlane
  let site := fun (i j : Nat) =>
    let px := min (2 * x + i) (c.width - 1)
    let py := min (2 * y + j) (c.height - 1)
    let ch := c.channel px py
    let v : Rat := ((unpackBits c.depthBits (storedRow d c w.slot g py) px : Nat) : Rat) - fp ((w.settings.raw.black.getD g []).getD ch 0)
    ((w.settings.motion.weights.getD ch 0 : Nat) : Rat) / 256 * max 0 v
  let sum := site 0 0 + site 1 0 + site 0 1 + site 1 1
  (clampInt (roundUpHalf (((2 ^ (16 - c.depthBits) : Nat) : Rat) * sum / 4)) 0 65535).toNat

/-- Samples of an axis at a level of the pyramid. -/
def levelSize (n level : Nat) : Nat := match level with
  | 0 => n
  | k + 1 => ceilDiv (levelSize n k) 2

/-- A sample of a level, from the level-0 samples of a w × h picture (R185). -/
def pyramidAt (f : Nat → Nat → Nat) (w h : Nat) : Nat → Nat → Nat → Nat
  | 0, x, y => f x y
  | k + 1, x, y =>
    let s := pyramidAt f w h k
    let x1 := min (2 * x + 1) (levelSize w k - 1)
    let y1 := min (2 * y + 1) (levelSize h k - 1)
    (s (2 * x) (2 * y) + s x1 (2 * y) + s (2 * x) y1 + s x1 y1 + 2) / 4

/-! ## Search -/

/-- What the search of a band's blocks reads: both pictures at level 0, their size, the band's last row and the settings. -/
structure SearchIn where
  cur : Nat → Nat → Nat
  old : Nat → Nat → Nat
  w : Nat
  h : Nat
  lastRow : Nat
  set : MotionSet

/-- Samples at a level, held at the edges: of the current frame at the band's last row too (R187). -/
def SearchIn.curAt (t : SearchIn) (level : Nat) (x y : Int) : Int :=
  (pyramidAt t.cur t.w t.h level (clampInt x 0 (levelSize t.w level - 1 : Nat)).toNat (clampInt y 0 (t.lastRow / 2 ^ level : Nat)).toNat : Nat)
def SearchIn.oldAt (t : SearchIn) (level : Nat) (x y : Int) : Int :=
  (pyramidAt t.old t.w t.h level (clampInt x 0 (levelSize t.w level - 1 : Nat)).toNat (clampInt y 0 (levelSize t.h level - 1 : Nat)).toNat : Nat)

/-- The first sample of a block's window along an axis. -/
def windowStart (level b : Nat) : Int := (b * (8 / 2 ^ level) : Nat) - ((8 - 8 / 2 ^ level) / 2 : Nat)

/-- The sites of a window. -/
def windowSites (level bx by' : Nat) : List (Int × Int) :=
  (List.range 8).flatMap fun j => (List.range 8).map fun i => (windowStart level bx + i, windowStart level by' + j)

/-- 64 × SAD of a displacement in samples of a level. -/
def SearchIn.sad (t : SearchIn) (level bx by' : Nat) (m : Int × Int) : Nat :=
  sumOf (fun (p : Int × Int) => (t.curAt level p.1 p.2 - t.oldAt level (p.1 + m.1) (p.2 + m.2)).natAbs) (windowSites level bx by')

/-- 64 × 64 × SAD of a vector in ¼ photosite at level 0, by bilinear interpolation. -/
def SearchIn.fineSad (t : SearchIn) (bx by' : Nat) (v : Int × Int) : Nat :=
  let (mx, my) := (v.1 / 8, v.2 / 8)
  let (fx, fy) := (v.1 - 8 * mx, v.2 - 8 * my)
  sumOf (fun (p : Int × Int) =>
    let o := fun (i j : Int) => t.oldAt 0 (p.1 + mx + i) (p.2 + my + j)
    let s := (8 - fy) * ((8 - fx) * o 0 0 + fx * o 1 0) + fy * ((8 - fx) * o 0 1 + fx * o 1 1)
    (64 * t.curAt 0 p.1 p.2 - s).natAbs) (windowSites 0 bx by')

/-- λ's part of a cost, × 64, for a vector in ¼ photosite against the predictors' median (R188). -/
def SearchIn.toll (t : SearchIn) (pred v : Int × Int) : Nat := 4 * t.set.lambda * ((v.1 - pred.1).natAbs + (v.2 - pred.2).natAbs)

/-- A displacement of a level in ¼ photosite. -/
def levelVector (level : Nat) (m : Int × Int) : Int × Int := (m.1 * (2 ^ (level + 3) : Nat), m.2 * (2 ^ (level + 3) : Nat))

/-- 64 × the cost of a displacement at a level. -/
def SearchIn.cost (t : SearchIn) (level bx by' : Nat) (pred m : Int × Int) : Nat :=
  t.sad level bx by' m + t.toll pred (levelVector level m)

/-- The cheapest of some candidates, the first of equals. -/
def cheapest (cost : Int × Int → Nat) (l : List (Int × Int)) : Int × Int := match l with
  | [] => (0, 0)
  | x :: xs => (xs.foldl (fun (best : (Int × Int) × Nat) y => if cost y < best.2 then (y, cost y) else best) (x, cost x)).1

/-- The displacements within a radius of one, row by row. -/
def around (r : Nat) (m : Int × Int) : List (Int × Int) :=
  (List.range (2 * r + 1)).flatMap fun j => (List.range (2 * r + 1)).map fun i => (m.1 - r + i, m.2 - r + j)

/-- The 8 neighbours of a vector at a step. -/
def neighbours (step : Int) (v : Int × Int) : List (Int × Int) := (around 1 (0, 0)).filterMap fun p =>
  if p = (0, 0) then none else some (v.1 + step * p.1, v.2 + step * p.2)

/-- A component-wise lower median. -/
def medianVector (l : List (Int × Int)) : Int × Int := (lowerMedian (l.map (·.1)), lowerMedian (l.map (·.2)))

/-- The integer displacements of level 0 that a vector can name, more than one sample away from one along some axis: those that
R188 compares with the winner. -/
def farFrom (m : Int × Int) : List (Int × Int) := (around 2047 (0, 0)).filter fun p => 1 < (p.1 - m.1).natAbs || 1 < (p.2 - m.2).natAbs

/-- The search of one block (R187, R188): `temporal` and `spatial` are the predictors at hand. -/
def SearchIn.block (t : SearchIn) (bx by' : Nat) (temporal : Option (Int × Int)) (spatial : List (Int × Int)) : BlockRecord :=
  let preds := (if t.set.spatial then spatial else []) ++ (if t.set.temporal then temporal.toList else [])
  let pred := medianVector preds
  let first := (0, 0) :: ((if t.set.temporal then temporal.toList else []) ++ (if t.set.spatial then spatial else [])).map fun v =>
    (roundAway ((v.1 : Rat) / 64), roundAway ((v.2 : Rat) / 64))
  let c3 := cheapest (t.cost 3 bx by' pred) first
  let b3 := cheapest (t.cost 3 bx by' pred) (c3 :: around t.set.range3 c3)
  let edge : Bool := (b3.1 - c3.1).natAbs = t.set.range3 || (b3.2 - c3.2).natAbs = t.set.range3
  let down := fun (level r : Nat) (m : Int × Int) => let s := (2 * m.1, 2 * m.2); cheapest (t.cost level bx by' pred) (s :: around r s)
  let b0 := down 0 1 (down 1 2 (down 2 2 b3))
  let far := farFrom b0
  let sad2 := far.foldl (fun a m => min a (t.cost 0 bx by' pred m)) (t.cost 0 bx by' pred (far.headD b0))
  let fine := fun (v : Int × Int) => t.fineSad bx by' v + 64 * t.toll pred v
  let v := levelVector 0 b0
  let v := if t.set.refine ≥ 1 then cheapest fine (v :: neighbours 2 v) else v
  let v := if t.set.refine ≥ 2 then cheapest fine (v :: neighbours 1 v) else v
  let sad : Rat := ((t.fineSad bx by' v : Nat) : Rat) / 4096
  let conf : Int := if sad2 = 0 then 0 else clampInt (255 * (1 - sad * 64 / (sad2 : Rat))).floor 0 255
  { vx := clampInt v.1 (-16383) 16383, vy := clampInt v.2 (-16383) 16383, sad := (clampInt (roundUpHalf sad) 0 65535).toNat
    confidence := conf.toNat, rangeLimit := edge, valid := true }

/-! ## Band jobs -/

/-- The jobs of a class queue in order (R32): a job goes after those that are as urgent. -/
def insertBand (j : BandJob) : List BandJob → List BandJob
  | [] => [j]
  | x :: l =>
    if keyLess [j.deadline, j.stream, j.row, j.span] [x.deadline, x.stream, x.row, x.span] then j :: x :: l else x :: insertBand j l

/-- Idle harrows take the heads of the highest class's queue (R34). -/
def dispatchHarrows (d : Dev) : Dev :=
  (List.range 16).foldl (fun d i =>
    let f := d.fabric
    if (f.harrows.getD i none).isSome then d
    else match (List.range 4).find? fun k => !(f.harrowQueues.getD k []).isEmpty with
      | some k => match f.harrowQueues.getD k [] with
        | j :: l => d.onFabric fun f => { f with
            harrowQueues := f.harrowQueues.set k l, harrows := f.harrows.set i (some { j with started := d.now }) }
        | [] => d
      | none => d) d

/-- Queues a band job. -/
def queueBand (j : BandJob) (d : Dev) : Dev :=
  dispatchHarrows (d.onFabric fun f => { f with harrowQueues := tabMod f.harrowQueues j.cls (insertBand j) })

/-- The most urgent class of the HEVC and AVC sessions that code a stream's branches. -/
def seedClass (d : Dev) (n : Nat) : Nat :=
  d.codecs.encoders.foldl (fun c x => if x.2.codec ≠ 0 && x.2.configured && encoderStream x.2 = some n then min c x.2.enc.cls else c) 2

/-- Class and deadline of a band (R193). -/
def bandUrgency (d : Dev) (n : Nat) (size : Nat × Nat) (w : FrameWork) (row : Nat) : Nat × Nat :=
  let late := tileTime d n size.2 w (row / 8) + 150000
  if row / 8 ∈ w.released then
    match seedClass d n with
    | 0 => (0, late)
    | 1 => (1, frameEndOf d n size.2 w + 2 * (d.stream n).minPeriod)
    | _ => (2, frameEndOf d n size.2 w + 7 * (d.stream n).minPeriod)
  else (rowClass d n w, late)

/-- The field that a field's predictors come from: that of its reference frame, of the same size. -/
def previousField (s : Stream) (f : MotionField) : Option MotionField :=
  if f.noRef then none else s.fields.find? fun old => old.frame = f.refFrame && old.records.length = f.records.length

/-- The co-located band of the previous frame is complete, or there is no previous field (R186). -/
def previousBand (s : Stream) (f : MotionField) (k : Nat) : Bool := (previousField s f).all fun old => (old.bands.getD k .written).over

/-- A band may be released: its rows are in memory, the band before it in time is complete, and no drill still reads the
records it overwrites (R186, R191). -/
def bandReady (d : Dev) (n : Nat) (c : FurrowConfig) (w : FrameWork) (f : MotionField) (row span : Nat) : Bool :=
  let s := d.stream n
  row < ceilDiv c.height 16 && span < spansOf c.width
  && f.bands.getD (bandIndex c.width row span) .written = .waiting && w.rowsIn > min (16 * row + 15) (c.height - 1)
  && previousBand s f (bandIndex c.width row span)
  && (s.work.filter fun x => x.number < w.number && x.bank = w.bank).all fun x =>
      [row / 8 - 1, row / 8, min (row / 8 + 1) (tilesH c.height - 1)].all fun r => !rowPending d n x r

/-- A band is released. -/
def releaseBand (n row span : Nat) (d : Dev) : Dev :=
  let s := d.stream n
  match furrowOf d n with
  | none => d
  | some (_, c) =>
    let k := bandIndex c.width row span
    match s.work.find? fun w => !w.withdrawn && (match fieldOfWork s w with
      | some f => f.bands.getD k .written = .waiting
      | none => false) with
    | none => d
    | some w =>
      match fieldOfWork s w with
      | none => d
      | some f =>
        if !bandReady d n c w f row span then d
        else
          let (cls, deadline) := bandUrgency d n (c.width, c.height) w row
          queueBand { stream := n, frame := w.number, row, span, cls, deadline, laneFill := w.laneFill } (setBand n w k .queued d)

/-- MOTION_BAND_RELEASE. -/
def execMotionBandRelease (time : Nat) (stream : Fin 24) (row span : Nat) (s : State) : Host.Outcome State Fault Refusal :=
  after time (releaseBand stream.val row span) s

/-! ## The end of a band -/

/-- The level-0 rows of a band's span, written to the frame's proxy (R185). -/
def storeProxy (n : Nat) (w : FrameWork) (size : Nat × Nat) (row span : Nat) (f : Nat → Nat → Nat) (d : Dev) : Dev :=
  let (pw, ph) := (ceilDiv size.1 2, ceilDiv size.2 2)
  d.onStream n fun s =>
    { s with proxies := s.proxies.map fun p =>
      if p.frame ≠ w.number then p
      else
        let rows := if p.picture.width = pw && p.picture.rows.length = ph then p.picture.rows else List.replicate ph (List.replicate pw 0)
        let rows := (List.range 8).foldl (fun rows j =>
          let y := 8 * row + j
          tabMod rows y fun r => (List.range 1024).foldl (fun r i => let x := 1024 * span + i; if x < pw then r.set x (f x y) else r) r) rows
        { p with picture := { width := pw, height := ph, rows } } }

/-- The blocks of a band. -/
def bandBlocks (w span : Nat) : List Nat := ((List.range 128).map fun i => 128 * span + i).filter fun bx => bx < ceilDiv w 16

/-- A block holds filled rows or filled lanes' sites (Table 7.1). -/
def blockFilled (c : FurrowConfig) (w : FrameWork) (bx by' : Nat) : Bool :=
  (List.range (min 16 (c.height - 16 * by'))).any fun j => (List.range (min 16 (c.width - 16 * bx))).any fun i =>
    (List.range c.planes).any fun g => siteFilled c w g (16 * bx + i) (16 * by' + j)

/-- The records of a band (R187 to R190). -/
def bandRecords (d : Dev) (n : Nat) (c : FurrowConfig) (w : FrameWork) (f : MotionField) (j : BandJob) : List BlockRecord :=
  let s := d.stream n
  let old := previousField s f
  let pic := ((s.proxies.find? fun p => p.frame = f.refFrame).getD {}).picture
  let (pw, ph) := (ceilDiv c.width 2, ceilDiv c.height 2)
  let t : SearchIn :=
    { cur := proxySample d c w, old := fun x y => (pic.rows.getD y []).getD x 0, w := pw, h := ph, lastRow := min (8 * j.row + 7) (ph - 1), set := w.settings.motion }
  let late : Bool := bandIndex c.width j.row j.span ∈ w.forfeited
  let ready := fun (bx by' : Nat) => (f.bands.getD (bandIndex c.width by' (bx / 128)) .waiting).over
  let one := fun (bx : Nat) (left : Option BlockRecord) =>
    let by' := j.row
    let filled := blockFilled c { w with laneFill := j.laneFill } bx by'
    if f.noRef then { filled, late : BlockRecord }
    else
      let k := by' * f.blocksW + bx
      let temporal := old.map fun o => tabGet o.records k
      let side := match left with
        | some r => some r
        | none => if bx > 0 && ready (bx - 1) by' then some (tabGet f.records (k - 1)) else none
      let above := if by' > 0 && ready bx (by' - 1) then some (tabGet f.records (k - f.blocksW)) else none
      let vec := fun (r : Option BlockRecord) => r.map fun r => (r.vx, r.vy)
      let r := t.block bx by' (vec temporal) ((vec side).toList ++ (vec above).toList)
      { r with filled, late, valid := !filled && !(w.settings.motion.sadReject ≠ 0 && r.sad > w.settings.motion.sadReject) }
  ((bandBlocks c.width j.span).foldl (fun (acc : List BlockRecord) bx => acc ++ [one bx acc.getLast?]) [])

/-- A concealed band's records (R195). -/
def concealedRecords (d : Dev) (n : Nat) (c : FurrowConfig) (f : MotionField) (j : BandJob) : List BlockRecord :=
  let old := previousField (d.stream n) f
  (bandBlocks c.width j.span).map fun bx =>
    { old.elim {} (fun o => tabGet o.records (j.row * f.blocksW + bx)) with valid := false, concealed := true }

/-- Records put into a field. -/
def MotionField.put (f : MotionField) (row span : Nat) (l : List BlockRecord) : MotionField :=
  { f with records := (indexed l).foldl (fun rs e => rs.set (row * f.blocksW + 128 * span + e.1) e.2) f.records
           anyLate := f.anyLate || l.any (·.late), anyConcealed := f.anyConcealed || l.any (·.concealed) }

/-- A record's bytes (Table 7.1). -/
def BlockRecord.bytes (r : BlockRecord) : List Byte :=
  leInt 2 r.vx ++ leInt 2 r.vy ++ le 2 r.sad ++ le 1 r.confidence
    ++ le 1 (boolNat r.valid + 2 * boolNat r.rangeLimit + 4 * boolNat r.filled + 8 * boolNat r.concealed + 16 * boolNat r.late)

/-- A field in its slot (R190). -/
def fieldImage (n : Nat) (f : MotionField) : List Byte :=
  fieldHeader n f ++ List.replicate (0x1000 - 64) 0 ++ f.records.flatMap BlockRecord.bytes

/-- The last band of a field is written: the field goes into the seed buffers, is complete, and is exported (R192, Table 7.6). -/
def settleField (n : Nat) (w : FrameWork) (d : Dev) : Dev :=
  match fieldOfWork (d.stream n) w with
  | some f =>
    if f.complete || !f.bands.all BandState.over then d
    else
      let d := copySeeds n (fieldImage n f) d
      let f := { f with complete := true, doneStamp := shortStamp (domainNow d f.domain) }
      let d := (onField n w (fun _ => f) d).onStream n fun s => { s with lastComplete := f }
      let m := w.settings.motion
      if m.exportOn then
        let slot := (d.stream n).exportNext % max 1 m.exportDepth
        let size := roundUp (0x1000 + 8 * (f.blocksW * f.blocksH)) 4096
        pailWrite m.exportPail (slot * size) (fieldImage n f) (d.onStream n fun s => { s with exportNext := (slot + 1) % max 1 m.exportDepth })
      else d
  | none => d

/-- A band gets its records. -/
def writeBand (n : Nat) (w : FrameWork) (size : Nat × Nat) (j : BandJob) (records : List BlockRecord) (b : BandState) (d : Dev) : Dev :=
  settleField n w (setBand n w (bandIndex size.1 j.row j.span) b (onField n w (fun f => f.put j.row j.span records) d))

/-- A band is aborted and not re-run (R195, R198); `cause` is that of Table 7.7. -/
def concealBand (j : BandJob) (cause : Nat) (d : Dev) : Dev :=
  let n := j.stream
  match furrowOf d n, workOf d n j.frame with
  | some (_, c), some w =>
    match fieldOfWork (d.stream n) w with
    | some f =>
      let d := storeProxy n w (c.width, c.height) j.row j.span (proxySample d c w) d
      let d := writeBand n w (c.width, c.height) j (concealedRecords d n c f j) .concealed d
      let d := count (0x2000 + n) 7 1 (onWork n j.frame (fun w => { w with bandsConcealed := w.bandsConcealed + 1 }) d)
      if 0x0781 ∈ w.told then d
      else
        let d := onWork n j.frame (fun w => { w with told := 0x0781 :: w.told }) d
        raise 0x0781 2 (0x2000 + n) (le 2 (0x2000 + n) ++ le 2 (w.bandsConcealed + 1) ++ le 1 cause ++ le 1 0 ++ le 4 j.frame) d (td := c.domain) (frame := j.frame)
    | none => d
  | _, _ => d

/-- A harrow writes its band: the pyramid's rows and the records. -/
def finishBand (j : BandJob) (d : Dev) : Dev :=
  let n := j.stream
  match furrowOf d n, workOf d n j.frame with
  | some (_, c), some w =>
    match fieldOfWork (d.stream n) w with
    | some f =>
      let records := bandRecords d n c w f j
      let d := storeProxy n w (c.width, c.height) j.row j.span (proxySample d c w) d
      writeBand n w (c.width, c.height) j records .written d
    | none => d
  | _, _ => d

/-- A harrow completes its band and takes the next. -/
def harrowDone (i : Nat) (d : Dev) : Dev :=
  match d.fabric.harrows.getD i none with
  | none => d
  | some j =>
    let d := finishBand j (d.onFabric fun f => { f with harrows := f.harrows.set i none })
    dispatchHarrows (finishWork j.stream j.frame (noteMiss j.stream j.frame j.cls j.deadline d))

/-- HARROW_BAND_COMPLETE. -/
def execHarrowBandComplete (time : Nat) (harrow : Fin 16) (s : State) : Host.Outcome State Fault Refusal :=
  after time (harrowDone harrow.val) s

/-- The bands of a tile-row that are not written are forfeited (R194). -/
def forfeitBands (n : Nat) (w : FrameWork) (c : FurrowConfig) (r : Nat) (d : Dev) : Dev :=
  match fieldOfWork (d.stream n) w with
  | some f =>
    let l := (bandsOf c.width c.height r).filter fun k => !bandSettled f w k
    if l.isEmpty then d
    else
      let d := count (0x2000 + n) 6 l.length (onWork n w.number (fun w => { w with forfeited := w.forfeited ++ l }) d)
      if 0x0780 ∈ w.told then d
      else
        let d := onWork n w.number (fun w => { w with told := 0x0780 :: w.told }) d
        raise 0x0780 2 (0x2000 + n) (le 2 (0x2000 + n) ++ le 2 (w.forfeited.length + l.length) ++ le 4 w.number) d (td := c.domain) (frame := w.number)
  | none => d

end Sys2Proof.Machine
end

