-- ==== Sys2Proof/Machine/Jobs.lean ====
section
/-! DEFINITION. Drill jobs: their release, queues and stealing (R28 to R34), what their completion writes (R156 to R172,
R203 to R244), and what an aborted job's outputs hold (R178, R432, R511). -/

namespace Sys2Proof.Machine

/-! ## Queues -/

/-- The field of a tile column of a stream (R30). -/
def fieldFor (n col : Nat) : Nat := (col + n) % 12

/-- A job's place among equals of its class (R32). -/
def Job.key (j : Job) : List Nat := [j.deadline, j.stream, j.row, j.col, j.kind]

/-- A job put into its queue. -/
def insertJob (j : Job) : List Job → List Job
  | [] => [j]
  | x :: l => if keyLess j.key x.key then j :: x :: l else x :: insertJob j l

/-- Queues a job in its field. -/
def queueJob (j : Job) (d : Dev) : Dev :=
  d.onFabric fun f => { f with fields := tabMod f.fields (fieldFor j.stream j.col) fun x => { x with queues := tabMod x.queues j.cls (insertJob j) } }

/-- The head of the highest class's non-empty queue of a field. -/
def Field.head (x : Field) : Option Job := (List.range 4).findSome? fun k => (x.queues.getD k []).head?

/-- The head of a field's queues is taken. -/
def Field.pop (x : Field) : Field := match (List.range 4).find? fun k => !(x.queues.getD k []).isEmpty with
  | some k => { x with queues := tabMod x.queues k List.tail }
  | none => x

/-- A drill starts the head of a field's queues. -/
def startJob (drill field : Nat) (d : Dev) : Dev :=
  match (tabGet d.fabric.fields field).head with
  | some j => d.onFabric fun f => { f with
      fields := tabMod f.fields field Field.pop, drills := tabMod f.drills drill fun x => { x with job := some { j with started := d.now } } }
  | none => d

/-- The field that an idle drill of field `f` steals from: the nearest with a job, and of two the one with the more urgent,
ties going to the lower number (R33). -/
def stealFrom (d : Dev) (f : Nat) : Option Nat :=
  (List.range 6).findSome? fun k =>
    let dist := k + 1
    let a := min ((f + 12 - dist) % 12) ((f + dist) % 12)
    let b := max ((f + 12 - dist) % 12) ((f + dist) % 12)
    match (tabGet d.fabric.fields a).head, (tabGet d.fabric.fields b).head with
    | some x, some y => some (if y.cls < x.cls || (y.cls = x.cls && y.deadline < x.deadline) then b else a)
    | some _, none => some a
    | none, some _ => some b
    | none, none => none

/-- A drill can take a job. -/
def drillIdle (d : Dev) (i : Nat) : Bool := let x := tabGet d.fabric.drills i; !x.lost && x.job.isNone

/-- Idle drills take the jobs of their own fields, and then steal (R33). -/
def dispatchDrills (d : Dev) : Dev :=
  let d := (List.range 384).foldl (fun d i => if drillIdle d i then startJob i (fieldOf i) d else d) d
  (List.range 384).foldl (fun d i =>
    if drillIdle d i then
      match stealFrom d (fieldOf i) with
      | some f => count (0xD800 + f) 0 1 (startJob i f d)
      | none => d
    else d) d

/-! ## Release -/

/-- The earliest deadline of some branches, and of the other outputs where the chain job carries them (R31). -/
def outputsDeadline (d : Dev) (n h : Nat) (w : FrameWork) (branches : List Nat) (chain : Bool) (r : Nat) : Nat :=
  let s := w.settings
  let cs := branches.map (fun b => (tabGet s.branches b).cls)
    ++ (if chain then (if s.stats.enable then [s.stats.cls] else []) ++ (s.taps.filter (·.enable)).map (·.cls) else [])
  let l := cs.map fun c => drillDeadline d n h w c r
  match l with
  | [] => drillDeadline d n h w 2 r
  | x :: xs => xs.foldl min x

/-- The chain job of a tile (R29). -/
def chainJob (d : Dev) (n h : Nat) (w : FrameWork) (p : JobPlan) (row col : Nat) : Job :=
  { stream := n, frame := w.number, row, col, cls := chainClass w.settings p, ref := p.chain, branches := p.branches, spills := p.spills.map (·.2)
    deadline := outputsDeadline d n h w (p.branches ++ p.spills.flatMap (·.2)) true row }

/-- The spill jobs of a tile, released when its chain job completes. -/
def spillJobsOf (d : Dev) (h : Nat) (w : FrameWork) (j : Job) : List Job :=
  let p := planOf d j.stream w.settings
  (indexed j.spills).map fun e =>
    { stream := j.stream, frame := j.frame, row := j.row, col := j.col, kind := e.1 + 1, cls := branchesClass w.settings e.2
      ref := (p.spills.getD e.1 (1800, [])).1, branches := e.2, deadline := outputsDeadline d j.stream h w e.2 false j.row }

/-- The jobs of a tile-row are queued. -/
def queueRow (n : Nat) (w : FrameWork) (r : Nat) (d : Dev) : Dev :=
  match srcSize d n with
  | none => d
  | some (fw, fh) =>
    let p := planOf d n w.settings
    let d := onWork n w.number (fun w => { w with released := w.released ++ [r] }) d
    if !w.settings.drills then finishWork n w.number d
    else dispatchDrills ((List.range (tilesW fw)).foldl (fun d c => queueJob (chainJob d n fh w p r c) d) d)

/-- The oldest frame in flight for which a tile-row is still to be released. -/
def rowWork (d : Dev) (n r : Nat) : Option FrameWork :=
  (d.stream n).work.find? fun w => !w.withdrawn && r < streamRows d n && r ∉ w.released

/-- A tile-row is released once its rows and its motion bands are in memory (R28). -/
def releaseRowOf (n r : Nat) (d : Dev) : Dev :=
  match rowWork d n r, srcSize d n with
  | some w, some size =>
    match mapGet w.lineAt r with
    | some t => if t ≤ d.now && bandsSettled (d.stream n) w size r then queueRow n w r d else d
    | none => d
  | _, _ => d

/-- TILE_ROW_RELEASE. -/
def execTileRowRelease (time : Nat) (stream : Fin 24) (row : Nat) (s : State) : Host.Outcome State Fault Refusal :=
  after time (releaseRowOf stream.val row) s

/-- The dispatcher has waited for a tile-row's bands until their bound: it is released without them (R194). -/
def waitTimeout (n r : Nat) (d : Dev) : Dev :=
  match rowWork d n r, furrowOf d n with
  | some w, some (_, c) =>
    match mapGet w.lineAt r with
    | some t =>
      let bound := if rowClass d n w = 0 then t + 150000 else t + (d.stream n).minPeriod
      if bound ≤ d.now then queueRow n w r (forfeitBands n w c r d) else d
    | none => d
  | _, _ => d

/-- MOTION_WAIT_TIMEOUT. -/
def execMotionWaitTimeout (time : Nat) (stream : Fin 24) (row : Nat) (s : State) : Host.Outcome State Fault Refusal :=
  after time (waitTimeout stream.val row) s

/-! ## What a tile writes -/

/-- The decoded picture that a playback frame shows, in its slot (R299, R307). -/
def shownPicture (d : Dev) (w : FrameWork) : Option Stored :=
  if objType w.src ≠ 0x6 then none
  else (mapGet d.codecs.decoders (objIndex w.src)).bind fun q =>
    (q.pictures.find? fun p => p.slot = some w.slot).map fun p =>
      let f := decoderFormat q.codec q.profile / 16 * 16 + (if p.bits ≤ 10 then 0 else if p.bits = 12 then 1 else 2)
      storedSlot q.pail (decoderSlotBase q + w.slot * decoderSlot q) f p.width p.height

/-- A tile of an output is done. -/
def FrameOutput.tile (o : FrameOutput) (row now : Nat) (bad : Bool) : FrameOutput :=
  let left := tabMod o.rowsLeft row (· - 1)
  { o with tilesLeft := o.tilesLeft - 1, rowsLeft := left, concealed := o.concealed + boolNat bad
           rowAt := if left.getD row 0 = 0 then mapSet o.rowAt row now else o.rowAt }

/-- An output has a slot that it still fills, and draws on a tile. -/
def FrameOutput.wants (o : FrameOutput) (t : TileSpan) (row col : Nat) : Bool := o.slot.isSome && !o.done && t.has row col

/-- A branch's tile is written to its slot, as a list of offsets and bytes. -/
def writeBranchTile (n k : Nat) (w : FrameWork) (size : Nat × Nat) (row col : Nat) (bad : Bool) (l : BranchSet → List (Nat × List Byte)) (d : Dev) : Dev :=
  match workOf d n w.number with
  | none => d
  | some w =>
    let b := tabGet w.settings.branches k
    let o := tabGet w.branchOut k
    match o.slot with
    | some slot =>
      if o.wants (branchSpan b size.1 size.2) row col then
        let base := slot * b.slotSize
        let d := (l b).foldl (fun d e => pailWrite b.pail (base + e.1) e.2 d) d
        let o := o.tile row d.now bad
        let d := onBranchOut n w.number k (fun _ => o) d
        let d := if o.rowsLeft.getD row 0 = 0 then pailWrite b.pail (base + 40) (le 2 (rowsComplete b size o)) d else d
        if bad then count (0x3000 + 8 * n + k) 1 1 d else d
      else d
    | none => d

/-- The branches of a job are written from its core result. -/
def writeBranches (n : Nat) (w : FrameWork) (size : Nat × Nat) (j : Job) (core : Region Pixel) (d : Dev) : Dev :=
  let luts := (d.stream n).luts
  j.branches.foldl (fun d k =>
    writeBranchTile n k w size j.row j.col false (fun b => branchTile b w.settings.colour.working luts size.1 size.2 core j.row j.col) d) d

/-- A rectangle of samples put into a picture of a size. -/
def Picture.put (p : Picture) (w h x0 y0 : Nat) (rows : List (List Nat)) : Picture :=
  let old := if p.width = w && p.rows.length = h then p.rows else List.replicate h (List.replicate w 0)
  { width := w, height := h
    rows := (indexed rows).foldl (fun acc e => tabMod acc (y0 + e.1) fun r => r.take x0 ++ e.2 ++ r.drop (x0 + e.2.length)) old }

/-- A tile of the denoised frame is written: `value` gives a plane's stored sample (R158, R159). -/
def writeDenoised (n : Nat) (c : FurrowConfig) (w : FrameWork) (row col : Nat) (value : Nat → Nat → Nat → Nat) (d : Dev) : Dev :=
  let (x0, y0) := (256 * col, 128 * row)
  let (tw, th) := (min 256 (c.width - x0), min 128 (c.height - y0))
  let rows := fun (g : Nat) => (List.range th).map fun j => (List.range tw).map fun i => value g (x0 + i) (y0 + j)
  d.onStream n fun s => { s with denoised := s.denoised.map fun q =>
    if q.frame ≠ w.number then q
    else { q with planes := (List.range c.planes).map fun g => (tabGet q.planes g).put c.width c.height x0 y0 (rows g) } }

/-- Changes a tap's or the statistics' progress. -/
def tapProgress (n point : Nat) (w : FrameWork) (row : Nat) (bad : Bool) (d : Dev) : Dev :=
  onTapOut n w.number point (fun o => o.tile row d.now bad) d

/-- What the chain job of a sensor tile reads. -/
def chainInput (d : Dev) (n : Nat) (c : FurrowConfig) (w : FrameWork) : ChainIn :=
  let s := d.stream n
  let tnr := w.settings.raw.tnr.enable
  let prev := s.denoised.find? fun q => q.frame = w.prevFrame
  { c, w, tables := s.tables, field := if tnr then fieldOfWork s w else none, prev := if tnr then prev.elim [] (·.planes) else [] }

/-- Dynamic defects of a tile (R162). -/
def dynamicDefects (t : ChainIn) (r : RawTile) (row col : Nat) : Nat :=
  if t.raw.dynThresh = 0 then 0
  else sumOf (fun g => ((tileSites t.c.width t.c.height row col).filter fun p => t.dynamic g (r.raw.getD g {}) (p.1 : Int) (p.2 : Int)).length) (List.range t.c.planes)

/-- The frame's dynamic defects are counted, with DEFECT_ALARM when they pass dyn_alarm (R162). -/
def noteDefects (n found : Nat) (w : FrameWork) (d : Dev) : Dev :=
  if found = 0 then d
  else
    let total := w.dynDefects + found
    let d := count (0x2000 + n) 1 found (onWork n w.number (fun w => { w with dynDefects := total }) d)
    let d := if w.number = (d.stream n).boundFrame then d.onStream n fun s => { s with boundDynDefects := total } else d
    let alarm := w.settings.raw.dynAlarm
    let due : Bool := match (d.stream n).defectEvent with
      | some t => t + 1000000000 ≤ d.now
      | none => true
    if alarm ≠ 0 && alarm < total && w.dynDefects ≤ alarm && due then
      raise 0x0481 2 (0x2000 + n) (le 2 (0x2000 + n) ++ le 4 total ++ le 4 w.number) (d.onStream n fun s => { s with defectEvent := some d.now })
        (td := streamDomain d n) (frame := w.number)
    else d

/-- An event that a frame raises once. -/
def tellOnce (n code sev : Nat) (w : FrameWork) (detail : List Byte) (d : Dev) : Dev :=
  if ((workOf d n w.number).elim [] (·.told)).contains code then d
  else raise (code % 2 ^ 16) sev (0x2000 + n) detail (onWork n w.number (fun w => { w with told := code :: w.told }) d)
    (td := streamDomain d n) (frame := w.number)

/-- TNR_RESET (R167). -/
def noteTnr (n : Nat) (w : FrameWork) (d : Dev) : Dev := match w.tnrReason with
  | some reason =>
    if 0x0482 ∈ w.told then d
    else tellOnce n 0x0482 0 w (le 2 (0x2000 + n) ++ le 1 reason ++ le 1 0 ++ le 4 w.number) (count (0x2000 + n) 2 1 d)
  | none => d

/-- Results that are no number are counted, with COLOUR_NONFINITE at most once a second (R200, R228). -/
def noteNonfinite (n found : Nat) (w : FrameWork) (d : Dev) : Dev :=
  if found = 0 then d
  else
    let total := w.nonfinite + found
    let d := count (0x2000 + n) 3 found (onWork n w.number (fun w => { w with nonfinite := total }) d)
    let due : Bool := match (d.stream n).nonfiniteEvent with
      | some t => t + 1000000000 ≤ d.now
      | none => true
    if due then
      raise 0x0581 1 (0x2000 + n) (le 2 (0x2000 + n) ++ le 4 total ++ le 4 w.number)
        (d.onStream n fun s => { s with nonfiniteEvent := some d.now }) (td := streamDomain d n) (frame := w.number)
    else d

/-- The chain job of a sensor tile: denoised frame, taps and statistics; its core result. -/
def sensorTile (n : Nat) (c : FurrowConfig) (w : FrameWork) (j : Job) (d : Dev) : Region Pixel × Dev :=
  let t := chainInput d n c w
  let r := t.tile d j.row j.col
  let core := sensorCore t j.row j.col r.out
  let d := if w.settings.raw.tnr.enable then
    writeDenoised n c w j.row j.col (fun g x y => t.stored ((r.temporal.getD g {}).near 1 1 (x : Int) (y : Int))) d else d
  let d := (indexed w.settings.taps).foldl (fun d e =>
    let o := tabGet w.tapOut e.1
    match o.slot with
    | some slot =>
      if o.wants (tapSpan e.2 c.width c.height) j.row j.col then
        tapProgress n e.1 w j.row false (writeTap t e.2 e.1 slot j.row j.col (fun g x y => r.tap e.1 g (x : Int) (y : Int)) d)
      else d
    | none => d) d
  let d := if w.statsOut.slot.isSome then
    onWork n w.number (fun w => { w with fold := w.fold.tile t r core j.row j.col, statsOut := w.statsOut.tile j.row d.now false }) d else d
  (core, noteTnr n w (noteDefects n (dynamicDefects t r j.row j.col) w d))

/-! ## Completion -/

/-- A drill job that completes late (R37). -/
def noteLate (h : Nat) (w : FrameWork) (j : Job) (d : Dev) : Dev :=
  noteMiss j.stream j.frame j.cls (outputsDeadline d j.stream h w (j.branches ++ j.spills.flatten) (j.kind = 0) j.row) d

/-- Some job of a tile other than its chain job waits or runs. -/
def spillPending (d : Dev) (j : Job) : Bool :=
  let same := fun (x : Job) => x.stream = j.stream && x.frame = j.frame && x.row = j.row && x.col = j.col && x.kind ≠ 0
  (d.fabric.fields.any fun f => f.queues.any fun q => q.any same) || d.fabric.drills.any fun x => (x.job).any same

/-- The tile slot of a spill pail is given up once no job of the tile is left. -/
def dropSpill (j : Job) (d : Dev) : Dev :=
  if spillPending d j then d
  else d.onStream j.stream fun s => { s with spill := s.spill.filter fun e => !(e.1 = j.frame && e.2.1 = j.row && e.2.2.1 = j.col) }

/-- What a chain or spill job that ran to its end writes and releases. -/
def runJob (w : FrameWork) (size : Nat × Nat) (j : Job) (d : Dev) : Dev :=
  let n := j.stream
  if j.kind = 0 then
    let (core, d) := match furrowOf d n with
      | some (_, c) => sensorTile n c w j d
      | none =>
        let q := shownPicture d w
        (playbackCore d q w.settings.colour j.row j.col, noteNonfinite n (playbackNonfinite d q w.settings.colour j.row j.col) w d)
    let d := writeBranches n w size j core d
    let d := count (0x2000 + n) 10 ((tileSites size.1 size.2 j.row j.col).length) (onWork n w.number (fun w => { w with tilesDone := w.tilesDone + 1 }) d)
    if j.spills.isEmpty then d
    else
      let d := d.onStream n fun s => { s with spill := s.spill ++ [(j.frame, j.row, j.col, spillTile core)] }
      (spillJobsOf d size.2 w j).foldl (fun d x => queueJob x d) d
  else
    match (d.stream n).spill.find? fun e => e.1 = j.frame && e.2.1 = j.row && e.2.2.1 = j.col with
    | some e => dropSpill j (writeBranches n w size j (spillRegion e.2.2.2 j.row j.col) d)
    | none => d

/-- After a job: its frame's outputs and the frame itself may be done, and idle drills take the next jobs. -/
def settleJob (j : Job) (d : Dev) : Dev :=
  let d := count (0x2000 + j.stream) 9 (j.ref / 300) d
  dispatchDrills (finishWork j.stream j.frame (settleOutputs j.stream j.frame d))

/-- A drill finishes its job. -/
def drillDone (i : Nat) (d : Dev) : Dev :=
  match (tabGet d.fabric.drills i).job with
  | none => d
  | some j =>
    let d := count (0xD000 + i) 0 1 (d.onFabric fun f => { f with drills := tabMod f.drills i fun x => { x with job := none } })
    match workOf d j.stream j.frame, srcSize d j.stream with
    | some w, some size =>
      if w.withdrawn then settleJob j d
      else
        let d := runJob w size j d
        settleJob j (noteLate size.2 ((workOf d j.stream j.frame).getD w) j d)
    | _, _ => dispatchDrills d

/-- DRILL_JOB_COMPLETE. -/
def execDrillJobComplete (time : Nat) (drill : Fin 384) (s : State) : Host.Outcome State Fault Refusal :=
  after time (drillDone drill.val) s

/-! ## Aborted jobs (R178) -/

/-- A branch's tile taken from its previous output frame, or black (Table 6.2). -/
def oldBranchTile (d : Dev) (n k : Nat) (size : Nat × Nat) (row col : Nat) (b : BranchSet) : List (Nat × List Byte) :=
  match (tabGet (d.stream n).branchRings k).lastSlot with
  | some slot => (blackTile b size.1 size.2 row col).map fun e => (e.1, pailRead d b.pail (slot * b.slotSize + e.1) e.2.length)
  | none => blackTile b size.1 size.2 row col

/-- A tap's sample as its previous output frame stores it. -/
def oldTapSample (d : Dev) (t : ChainIn) (s : TapSet) (point slot g x y : Nat) : Rat :=
  let (cx, cy, cw, ch) := s.crop t.c.width t.c.height
  let st := tapStride s.format cw t.c.depthBits
  let row := slot * tapSlot s.format cw ch t.c.depthBits (planesOfTap t.c point) + 0x1000 + g * roundUp (st * ch) 4096 + (y - cy) * st
  match s.format with
  | 0 => fdiv ((unle (pailRead d s.pail (row + 2 * (x - cx)) 2) : Nat) : Rat) ((2 ^ (16 - t.c.depthBits) : Nat) : Rat)
  | 1 => ((unpackBits t.c.depthBits (unle (pailRead d s.pail row st)) (x - cx) : Nat) : Rat)
  | 2 => hp (unle (pailRead d s.pail (row + 2 * (x - cx)) 2))
  | _ => fdiv ((unle (pailRead d s.pail (row + 2 * (x - cx)) 2) : Nat) : Rat) 4096

/-- The denoised tile, the taps and the statistics of an aborted chain job. -/
def concealSensor (n : Nat) (c : FurrowConfig) (w : FrameWork) (j : Job) (d : Dev) : Dev :=
  let t := chainInput d n c w
  let black := fun (g x y : Nat) => t.black g (c.channel x y)
  let d := if w.settings.raw.tnr.enable then
    writeDenoised n c w j.row j.col (fun g x y => if t.prev.isEmpty then t.stored (black g x y) else ((tabGet t.prev g).rows.getD y []).getD x 0) d else d
  let d := (indexed w.settings.taps).foldl (fun d e =>
    let o := tabGet w.tapOut e.1
    match o.slot with
    | some slot =>
      if o.wants (tapSpan e.2 c.width c.height) j.row j.col then
        let value := fun (g x y : Nat) => match (tabGet (d.stream n).tapRings e.1).lastSlot with
          | some old => oldTapSample d t e.2 e.1 old g x y
          | none => black g x y
        tapProgress n e.1 w j.row true (writeTap t e.2 e.1 slot j.row j.col value d)
      else d
    | none => d) d
  if w.statsOut.slot.isSome then
    onWork n w.number (fun w => { w with fold := { w.fold with omitted := w.fold.omitted + 1 }, statsOut := w.statsOut.tile j.row d.now false }) d
  else d

/-- The outputs of a job that is not run again are replaced (R178); `cause` is 0 for a translation fault, 1 for poison and 2 for
a failed retry or a lost drill. -/
def concealJob (cause : Nat) (j : Job) (d : Dev) : Dev :=
  let n := j.stream
  match workOf d n j.frame, srcSize d n with
  | some w, some size =>
    if w.withdrawn then settleJob j d
    else
      let d := match furrowOf d n with
        | some (_, c) => if j.kind = 0 then concealSensor n c w j d else d
        | none => d
      let d := (j.branches ++ j.spills.flatten).foldl (fun d k => writeBranchTile n k w size j.row j.col true (oldBranchTile d n k size j.row j.col) d) d
      let d := if j.kind = 0 then d else dropSpill j d
      let d := count (0x2000 + n) 0 1 (onWork n w.number (fun w => { w with tilesConcealed := w.tilesConcealed + 1 }) d)
      let d := tellOnce n 0x0480 2 w (le 2 (0x2000 + n) ++ le 2 (w.tilesConcealed + 1) ++ le 1 cause ++ le 1 0 ++ le 4 j.frame) d
      settleJob j (noteLate size.2 ((workOf d n j.frame).getD w) j d)
  | _, _ => dispatchDrills d

/-- A job is aborted: class C and P jobs are tried once more (R432). -/
def abortJob (cause : Nat) (j : Job) (d : Dev) : Dev :=
  if j.cls = 0 then concealJob cause j d
  else if j.retry then concealJob 2 j d
  else dispatchDrills (queueJob { j with retry := true } d)

/-- A checker error on a drill, or a job of its that is overdue (R510, R511). -/
def drillTimeout (i cause : Nat) (d : Dev) : Dev :=
  let x := tabGet d.fabric.drills i
  if x.lost then d
  else match x.job with
    | none => if cause = 0 then loseDrill i 0 3 d else d
    | some j => abortJob 2 j (loseDrill i (min cause 1) j.cls d)

/-- DRILL_JOB_TIMEOUT. -/
def execDrillJobTimeout (time : Nat) (drill : Fin 384) (cause : Nat) (s : State) : Host.Outcome State Fault Refusal :=
  after time (drillTimeout drill.val cause) s

end Sys2Proof.Machine
end

