-- ==== Sys2Proof/Machine/CodecEv.lean ====
section
/-! DEFINITION. Encode jobs of the tines: the release of swaths, their rate control and what becomes of them (R254 to R261, R265,
R270, R272, R275 to R286). -/

namespace Sys2Proof.Machine

/-! ## The release of swaths -/

/-- Output rows of a branch that are written in a frame in flight; all of them once the frame is done. -/
def branchRowsDone (d : Dev) (o : Nat) (f : EncFrame) : Nat :=
  let (n, k) := branchOf o
  match workOf d n f.number with
  | some w =>
    let out := tabGet w.branchOut k
    if out.done then f.branch.outH else rowsComplete f.branch f.image out
  | none => f.branch.outH

/-- A row of a session's source is in its ring (R254). -/
def sourceRowIn (d : Dev) (e : Encoder) (f : EncFrame) (row : Nat) : Bool :=
  if e.codec ≠ 0 then branchRowsDone d f.enc.source f > row
  else match f.xs.sourceKind with
    | 0 => (workOf d (objIndex f.xs.source) f.number).all fun w => w.rowsIn > row
    | 1 => (workOf d (objIndex f.xs.source) f.number).all fun w =>
        (tabGet w.tapOut f.xs.tapPoint).rowsLeft.getD ((f.tap.cropY + row) / 128) 0 = 0
    | 2 => branchRowsDone d f.xs.source f > row
    | _ => true

/-- The last source row that a swath needs (R254, R274, R277). -/
def lastSourceRow (e : Encoder) (f : EncFrame) (i : Nat) : Nat :=
  let last := f.rows e.codec * i + swathRows f.h (f.rows e.codec) i - 1
  if e.codec = 0 then min (last + 4 * 2 ^ f.xs.nly) (f.h - 1)
  else
    if f.enc.rotation ≠ 0 then f.branch.outH - 1 else min ((last + 1) * 2 ^ f.enc.decY - 1) (f.branch.outH - 1)

/-- The tile-row that holds a row of a session's source (R255). -/
def sourceTile (e : Encoder) (f : EncFrame) (row : Nat) : Nat :=
  let branch := branchTileRow f.branch f.image.1 f.image.2 row
  if e.codec ≠ 0 then branch
  else match f.xs.sourceKind with
    | 0 => rowTile f.h row
    | 1 => (f.tap.cropY + row) / 128
    | _ => branch

/-- The deadline of a swath (R255, R278). -/
def swathDeadline (d : Dev) (e : Encoder) (f : EncFrame) (i : Nat) : Nat :=
  match encoderStream e with
  | none => match f.cls e.codec with
    | 0 => f.sof + 1000000
    | 1 => f.sof + 2 * f.period
    | _ => f.sof + 7 * f.period
  | some n =>
    let h := f.image.2
    let tile := sourceTile e f (lastSourceRow e f i)
    let fend := match workOf d n f.number with
      | some w => frameEndOf d n h w
      | none => f.frameEnd.getD (f.sof + f.period)
    match f.cls e.codec with
    | 0 => (match workOf d n f.number with
        | some w => drillDeadline d n h w 0 tile
        | none => mapGetD f.lineAt tile fend + 1500000) + 1000000
    | 1 => fend + 2 * f.period
    | _ => fend + 7 * f.period

/-- The seeds of a frame are in their buffer, or the session uses none of this frame's field (R277, R279). -/
def seedsReady (d : Dev) (e : Encoder) (f : EncFrame) : Bool :=
  let n := (branchOf f.enc.source).1
  if e.codec = 0 || f.enc.cls = 0 || f.enc.noSeeds || n ≥ 16 then true
  else (workOf d n f.number).all fun w => (fieldOfWork (d.stream n) w).all (·.complete)

/-- A job of a swath still waits for a tine. -/
def swathQueued (d : Dev) (session frame swath : Nat) : Bool :=
  d.codecs.queues.any fun q => q.any fun j => j.session = session && j.frame = frame && j.swath = swath

/-- Every running segment of an HEVC swath has finished its first two CTUs (R277), as its reference time and the commanded step say. -/
def twoCtusDone (d : Dev) (s : Nat) (e : Encoder) (f : EncFrame) (i : Nat) : Bool :=
  let pair := encodeTime 1 f.chroma (2 * ctuSize 1 e.enc * swathRows f.h (ctuSize 1 e.enc) i) * 1000000 / (kOf d.fabric.cmdStep : Nat)
  d.codecs.tines.all fun x => match x with
    | some j => !(j.session = 0x5000 + s && j.frame = f.number && j.swath = i) || decide (((j.started : Nat) : Rat) + pair ≤ (d.now : Nat))
    | none => true

/-- Swath `i` of a frame may be released (R254, R277). The budget of an HEVC or AVC frame follows from the bytes of the one before
(R281), so its first swath waits for the whole of that frame, and its reference is complete. -/
def swathReady (d : Dev) (s : Nat) (e : Encoder) (f : EncFrame) (i : Nat) : Bool :=
  sourceRowIn d e f (lastSourceRow e f i)
  && (e.codec = 0 || ((e.frames.head?).any fun x => x.number = f.number))
  && (e.codec ≠ 1 || i = 0 || (!swathQueued d (0x5000 + s) f.number (i - 1) && twoCtusDone d s e f (i - 1)))
  && seedsReady d e f

/-- Some class L tine job is past its deadline (R286). -/
def liveTineLate (d : Dev) : Bool :=
  ((d.codecs.queues.getD 0 []).any fun j => j.deadline < d.now) || d.codecs.tines.any fun x => x.any fun j => j.cls = 0 && j.deadline < d.now

/-- A class P session yields a frame (R286). -/
def yieldFrame (s : Nat) (f : EncFrame) (d : Dev) : Dev :=
  let o := 0x5000 + s
  let later := ((mapGet d.codecs.encoders s).elim [] (·.frames)).filter fun x => x.number ≠ f.number
  let d := match later with
    | x :: _ =>
      let d := releaseEncFrame s 1 f d
      let d := d.onEncoder s fun e => { e with frames := e.frames.filter fun y => y.number ≠ f.number }
      onEncFrame s x.number (fun y => { y with before := y.before + f.before + 1, idr := y.idr || f.idr, fresh := y.fresh || f.fresh, relevel := y.relevel || f.relevel }) d
    | [] => dropEncFrame s f.number d
  let d := count o 2 1 (d.onEncoder s fun e => { e with yieldSince := e.yieldSince + 1 })
  let e := (mapGet d.codecs.encoders s).getD {}
  let due : Bool := match e.yieldEvent with
    | some t => t + 1000000000 ≤ d.now
    | none => true
  let d := if due then
    raise 0x0883 1 o (le 2 o ++ le 2 0 ++ le 4 e.yieldSince) (d.onEncoder s fun e => { e with yieldSince := 0, yieldEvent := some d.now })
      (td := f.domain) (frame := f.number)
  else d
  settleClosing s d

/-! ## The start of a frame (R258, R259, R275, R281 to R283) -/

/-- L after some frames that were not coded (R282). -/
def levelOver (f : EncFrame) : Nat → Nat → Nat
  | 0, l => l
  | k + 1, l => levelOver f k (min f.rc.cpb (l + (if f.rc.mode = 0 then f.b else f.bMax)))

/-- w_n (R281): the weights of IDR and P pictures stand for gop of 2 and more (DEDUCED, log 62). -/
def EncFrame.weight (f : EncFrame) : Rat :=
  let i : Rat := (f.rc.iWeight : Rat) / 16
  if f.enc.gop ≥ 2 then (if f.idr then i else ((f.enc.gop : Rat) - i) / ((f.enc.gop - 1 : Nat) : Rat)) else 1

/-- F_n (Table 11.4). -/
def frameBudget (e : Encoder) (f : EncFrame) : Nat :=
  let fMin := f.fixed e.codec + 64 * f.count e.codec
  let bw : Rat := (f.b : Rat) * f.weight
  let least := fun (x : Rat) => min f.level (max fMin x.floor.toNat)
  match f.rc.mode with
  | 0 => least (bw + (((f.level : Int) - (f.rc.cpb * f.rc.fillTarget / 100 : Nat) : Int) : Rat) / 8)
  | 1 => least (bw - (e.errSum : Rat) / 64)
  | _ => f.level

/-- Activities that a frame starts from: those of the last coded frame of its kind, or its samples (R258, R283), of which only the
ratios count. -/
def startActivity (e : Encoder) (f : EncFrame) : List (List Nat) :=
  let n := f.count e.codec
  let old := if e.codec = 0 || f.idr then e.lastActivityI else e.lastActivityP
  if f.fresh || !e.anyCoded || old.length ≠ n then
    (List.range n).map fun i => (List.range (f.segments e.codec)).map fun k => max 1 (f.pixels e.codec i k)
  else old

/-- What the header of a JPEG XS frame's codestream says (Table 10.1, Table 10.4). With PAD the codestream's size is known from the start,
and otherwise it is written as variable. -/
def EncFrame.xsHead (f : EncFrame) : XsHead :=
  let full := f.bits * (if f.chroma = 3 then 1 else if f.chroma = 1 then 2 else 3)
  { w := f.w, h := f.h, chroma := f.chroma, bits := f.bits, profile := f.xs.profile, size := if f.xs.pad then f.xs.budget else 0
    levels := xsLevelCode f.w f.h f.period f.xs.budget full, precincts := f.xs.sliceRows / xsPrecinctRows f.chroma f.xs.nly
    nlx := f.xs.nlx, nly := f.xs.nly, cpih := if f.chroma = 3 then 3 else if f.branch.format / 16 = 1 then 1 else 0
    qpih := boolNat f.xs.uniform, signPack := f.xs.signPack }

/-- The header of a frame, which with PAD fills H together with EOC (R261). -/
def startHeader (codec : Nat) (f : EncFrame) (d : Dev) : EncFrame × Dev :=
  if codec = 0 then
    let (k, d) := takeFree d
    let header := f.xsHead.bytes (Config.freeNat k)
    let (pad, d) := if f.xs.pad then openBytes (4094 - header.length) d else ([], d)
    ({ f with header, pad }, d)
  else
    let f := { f with sets := paramSets codec f }
    ({ f with header := (unitHeader codec f).take 4096 }, d)

/-- A frame starts with its first swath. -/
def startFrame (s : Nat) (e : Encoder) (f : EncFrame) (d : Dev) : EncFrame × Dev :=
  let o := 0x5000 + s
  let f := if e.codec = 0 then { f with budget := f.xs.budget }
    else
      let l0 := f.rc.cpb * f.rc.initFill / 100
      let level := if f.relevel || !e.anyCoded then l0 else levelOver f f.before e.level
      let idr := f.idr || !e.anyCoded || f.relevel || (f.enc.gop ≥ 1 && e.sinceIdr + 1 ≥ f.enc.gop)
      let f := { f with level, idr, poc := if idr then 0 else e.sinceIdr + 1, hrdBreak := f.rc.mode = 0 && f.before ≠ 0 && e.anyCoded }
      { f with budget := frameBudget e f, recon := e.recon, refresh := if f.enc.intraRefresh then some (f.poc % max 1 f.enc.refreshPeriod) else none }
  let f := { f with activity := startActivity e f }
  let dAll := f.budget - f.fixed e.codec
  let pool := dAll * (if e.codec = 0 then f.xs.reserve else f.rc.reserve) / 100
  let f := { f with pool, unspent := dAll - pool, shareBase := dAll - pool }
  let d := if e.codec = 0 then d else d.onEncoder s fun e => { e with sinceIdr := f.poc }
  let d := if f.hrdBreak then
    raise 0x0882 2 o (le 2 o ++ le 2 (min f.before 65535) ++ le 4 f.number) (count o 5 1 d) (td := f.domain) (frame := f.number)
  else d
  startHeader e.codec f d

/-- The budget of a frame is exhausted (R260, R284). -/
def exhaust (s codec : Nat) (f : EncFrame) (row left : Nat) (d : Dev) : Dev :=
  let o := 0x5000 + s
  let d := count o 3 1 (d.onEncoder s fun e => { e with exhaustedSince := e.exhaustedSince + 1 })
  let e := (mapGet d.codecs.encoders s).getD {}
  let due : Bool := match e.exhaustedEvent with
    | some t => t + 1000000000 ≤ d.now
    | none => true
  if due then
    raise (if codec = 0 then 0x08C0 else 0x0880) 1 o (le 2 o ++ le 2 row ++ le 2 left ++ le 2 0 ++ le 4 f.number ++ le 4 e.exhaustedSince)
      (d.onEncoder s fun e => { e with exhaustedSince := 0, exhaustedEvent := some d.now }) (td := f.domain) (frame := f.number)
  else d

/-- Swath `i` starts with its allocation (R259, R260). -/
def startSwath (s codec i : Nat) (f : EncFrame) (d : Dev) : EncFrame × Dev :=
  let n := f.count codec
  let last : Bool := i + 1 = n
  let sum := sumOf (fun l => sumOf id l) f.activity
  let a := sumOf id (f.activity.getD i [])
  let broke : Bool := f.exhaustedRow.isNone && !last && f.unspent = 0 && f.pool = 0
  let row := f.rows codec * i
  let d := if broke then exhaust s codec f row (n - i) d else d
  let f := if broke then { f with exhaustedRow := some row } else f
  let t := if last then f.unspent else min f.unspent (f.shareBase * a / max 1 sum)
  let g := if last then f.pool else min f.pool (t * (if codec = 0 then f.xs.draw else f.rc.draw) / 100)
  ({ f with unspent := f.unspent - t, pool := f.pool - g
            swaths := tabMod f.swaths i fun x =>
              { x with released := true, left := f.segments codec, alloc := f.floor codec i + t + g, floorCoded := f.exhaustedRow.isSome } }, d)

/-- The next swath of a session starts, and its jobs are queued. -/
def releaseSwath (s swath : Nat) (d : Dev) : Dev :=
  match mapGet d.codecs.encoders s with
  | none => d
  | some e =>
    match e.frames.find? fun f => f.swaths.any fun x => !x.released with
    | none => d
    | some f =>
      if f.swaths.findIdx? (fun x => !x.released) ≠ some swath || !swathReady d s e f swath then d
      else if e.codec ≠ 0 && e.enc.cls = 2 && f.enc.liveYield && swath = 0 && liveTineLate d then yieldFrame s f d
      else
        let (f, d) := if f.activity.isEmpty then startFrame s e f d else (f, d)
        let (f, d) := startSwath s e.codec swath f d
        let d := onEncFrame s f.number (fun _ => f) d
        let deadline := swathDeadline d e f swath
        (List.range (f.segments e.codec)).foldl (fun d k =>
          queueTine { session := 0x5000 + s, frame := f.number, swath, segment := k, cls := f.cls e.codec, deadline, ref := encodeTime e.codec f.chroma (f.pixels e.codec swath k) } d) d

/-- SWATH_RELEASE. -/
def execSwathRelease (time : Nat) (session : Fin 96) (swath : Nat) (s : State) : Host.Outcome State Fault Refusal :=
  after time (releaseSwath session.val swath) s

/-! ## The end of an encode job -/

/-- The activity of a coded segment (R258, R283). -/
def jobActivity (codec bytes : Nat) (r : TineResult) : Nat :=
  if codec = 0 then max 1 r.activity else max 1 ((bytes : Rat) * realExp2 (((r.qp : Rat) / 16 - 26) / 6)).floor.toNat

/-- QLIMIT is in force for a frame (R259, R283). -/
def EncFrame.limited (f : EncFrame) (codec : Nat) : Bool := if codec = 0 then f.xs.qlimitOn else f.rc.qlimitOn || f.rc.mode = 2

/-- A segment's share of its swath's allocation (R283). -/
def segmentShare (f : EncFrame) (i seg : Nat) : Nat :=
  let l := f.activity.getD i []
  (tabGet f.swaths i).alloc * l.getD seg 1 / max 1 (sumOf id l)

/-- The result of a segment goes into its frame (R259 to R261). `conceal` says that it holds nothing but floor quality, as every
segment of a floor-coded swath does. A JPEG XS slice begins with its header. -/
def codeSegment (codec : Nat) (j : TineJob) (r : TineResult) (conceal : Bool) (f : EncFrame) (d : Dev) : EncFrame × Dev :=
  let i := j.swath
  let x := tabGet f.swaths i
  let share := segmentShare f i j.segment
  let low : Bool := conceal || x.floorCoded
  let extra := if f.limited codec && !low then min (r.needAtLimit - share) f.unspent else 0
  let room := if low then min share (f.floor codec i / f.segments codec) else share + extra
  let bytes := ((if codec = 0 then xsSlice i else []) ++ r.coded).take room
  let (pad, d) := if codec = 0 && f.xs.pad then openBytes (share + extra - bytes.length) d else ([], d)
  let act := jobActivity codec bytes.length r
  let y := { x with
    left := x.left - 1, alloc := x.alloc + extra, concealed := x.concealed || conceal, floorCoded := x.floorCoded || conceal
    parts := mapSet x.parts j.segment (bytes ++ pad), activity := mapSet x.activity j.segment act
    qp := x.qp + r.qp * (f.pixels codec i j.segment : Nat), doneAt := if x.left ≤ 1 then some d.now else none }
  let back := if y.left = 0 && !(codec = 0 && f.xs.pad) then y.alloc - sumOf (fun e => e.2.length) y.parts else 0
  ({ f with unspent := f.unspent - extra, pool := f.pool + back, swaths := f.swaths.set i y
            vectors := f.vectors ++ (if conceal then [] else searchSegment d codec f i r) }, d)

/-- What a decoder of a segment's bytes reconstructs stands in the session's pail (R285, R287). -/
def reconstruct (codec : Nat) (j : TineJob) (r : TineResult) (conceal : Bool) (f : EncFrame) (d : Dev) : Dev :=
  if codec = 0 then d else writeRecon codec f j.swath j.segment (if conceal then concealedSegment d codec f j.swath j.segment else r.planes) d

/-- A job of a session that is late is reported: by its stream, or for a decoder's pictures by itself (R37, R48). -/
def noteEncMiss (s : Nat) (e : Encoder) (f : EncFrame) (j : TineJob) (d : Dev) : Dev := match encoderStream e with
  | some n => noteMiss n j.frame j.cls j.deadline d
  | none => noteSessionMiss j.session f.domain j.frame j.cls j.deadline e.missed (fun m d => d.onEncoder s fun e => { e with missed := m }) d

/-- An encode job ends. -/
def encodeDone (j : TineJob) (r : TineResult) (conceal : Bool) (d : Dev) : Dev :=
  let s := objIndex j.session
  match mapGet d.codecs.encoders s with
  | none => d
  | some e =>
    match e.frames.find? fun f => f.number = j.frame with
    | none => settleClosing s (settleLeaving s j.frame d)
    | some f =>
      let (f, d) := codeSegment e.codec j r conceal f d
      let d := reconstruct e.codec j r conceal f (onEncFrame s f.number (fun _ => f) d)
      settleEnc s j.frame (noteEncMiss s e f j d)

end Sys2Proof.Machine
end

