-- ==== Sys2Proof/Machine/DecodeEv.lean ====
section
/-! DEFINITION. Decode jobs of the tines, damage, concealment and recovery (R295 to R306), and the frames of playback streams (R307,
R308). -/

namespace Sys2Proof.Machine

/-! ## Concealment (R302, R303) -/

/-- A sample of the last good picture, held at its edges. -/
def goodSample (p : DecPicture) (plane : Nat) (x y : Int) : Nat :=
  let g := tabGet p.planes plane
  (g.rows.getD (clampInt y 0 ((g.rows.length : Int) - 1)).toNat []).getD (clampInt x 0 ((g.width : Int) - 1)).toNat 0

/-- The displacement that method 1 takes for a lost block, in ¼ pel (R303), in a picture that the first job told of. -/
def projected (p : DecPlan) (r : TineResult) (good : DecPicture) (b : LostBlock) : Option (Int × Int) :=
  if r.picType = 0 || b.vectors.isEmpty then none
  else
    let scaled := b.vectors.map fun v =>
      let s : Rat := if r.poc = v.2.2 then 1 else ((r.poc - good.poc : Int) : Rat) / ((r.poc - v.2.2 : Int) : Rat)
      (roundAway ((v.1 : Rat) * s), roundAway ((v.2.1 : Rat) * s))
    let m := medianVector scaled
    let hold := fun (v : Int) (at1 n : Nat) => clampInt v (-4 * (at1 : Int)) (4 * ((n : Int) - at1 - 16))
    some (hold m.1 (16 * b.x) p.codedW, hold m.2 (16 * b.y) p.codedH)

/-- A sample of a lost block (R303). -/
def concealSample (q : Decoder) (p : DecPlan) (r : TineResult) (b : LostBlock) (plane x y : Nat) : Nat :=
  let chroma := profileChroma q.codec q.profile
  match q.good with
  | none => 2 ^ (p.bits - 1)
  | some g =>
    if q.conceal = 2 then 2 ^ (p.bits - 1)
    else match (if q.conceal = 1 && q.codec ≠ 0 then projected p r g b else none) with
      | none => goodSample g plane x y
      | some (vx, vy) => predicted q.codec chroma plane p.bits (goodSample g plane) x y vx vy

/-- What the results of a unit's jobs say together. -/
def jobResult (q : Decoder) (k : Nat) : TineResult := mapGetD q.results k {}

/-- A decoded sample of a plane of the coded picture: that of the job whose area holds it. -/
def decodedSample (q : Decoder) (plane x y : Nat) : Nat :=
  let p := q.plan
  let (sx, sy) := subsample (profileChroma q.codec q.profile) plane
  let rows := fun (j : DecJob) => ceilDiv j.count (max 1 j.width) * p.unitH
  let holds := fun (j : DecJob) =>
    j.x * p.unitW ≤ x * sx && x * sx < (j.x + j.width) * p.unitW && j.y * p.unitH ≤ y * sy && y * sy < j.y * p.unitH + rows j
  match (indexed p.jobs).find? fun e => holds e.2 with
  | some (k, j) => (((jobResult q k).planes.getD plane []).getD (y - j.y * p.unitH / sy) []).getD (x - j.x * p.unitW / sx) 0
  | none => 0

/-- The planes of a decoded picture, cropped, with its lost blocks concealed. -/
def pictureOf (q : Decoder) (lost : List LostBlock) : List Picture :=
  let p := q.plan
  let chroma := profileChroma q.codec q.profile
  (List.range (if chroma = 3 then 1 else 3)).map fun plane =>
    let (sx, sy) := subsample chroma plane
    let w := ceilDiv p.w sx
    let h := ceilDiv p.h sy
    let rows := (List.range h).map fun y => (List.range w).map fun x =>
      match lost.find? fun b => b.x = (x * sx + p.cropX) / 16 && b.y = (y * sy + p.cropY) / 16 with
      | some b => concealSample q p (jobResult q 0) b plane x y
      | none => decodedSample q plane (x + p.cropX / sx) (y + p.cropY / sy)
    { width := w, height := h, rows }

/-! ## The picture -/

/-- A sample in its 16-bit container: 8-bit samples are multiplied by 4 (R294). -/
def storedSample (bits v : Nat) : List Byte := le 2 (if bits = 8 then 4 * v else v)

/-- The depth code of a picture (R294). -/
def decodedFormat (q : Decoder) (bits : Nat) : Nat :=
  if profileChroma q.codec q.profile = 3 then 0
  else decoderFormat q.codec q.profile / 16 * 16 + (if bits ≤ 10 then 0 else if bits = 12 then 1 else 2)

/-- Where a decoder's output slot starts in its pail. -/
def decodedBase (q : Decoder) (slot : Nat) : Nat := decoderSlotBase q + slot * decoderSlot q

/-- The planes of a picture in a slot (R299). -/
def writePlanes (q : Decoder) (base : Nat) (p : DecPicture) (stamp : Nat) (d : Dev) : Dev :=
  let chroma := profileChroma q.codec q.profile
  let put := fun (off : Nat) (bs : List Byte) (d : Dev) => pailWrite q.pail (base + off) bs d
  if chroma = 3 then
    let d := put 0x1000 ((List.range p.height).flatMap fun _ => le 4 stamp) d
    (indexed (tabGet p.planes 0).rows).foldl (fun d e =>
      put (0x20000 + e.1 * rawRowBytes p.width p.bits) (packBits p.bits (rawRowBytes p.width p.bits) e.2) d) d
  else
    let f := decodedFormat q p.bits
    let st := formatStride f p.width
    let off := formatOffset f p.width p.height
    let rowsOf := fun (k : Nat) => (tabGet p.planes k).rows
    let d := (indexed (rowsOf 0)).foldl (fun d e => put (off 0 + e.1 * st) (e.2.flatMap (storedSample p.bits)) d) d
    if chroma = 2 then
      [1, 2].foldl (fun d k => (indexed (rowsOf k)).foldl (fun d e => put (off k + e.1 * st) (e.2.flatMap (storedSample p.bits)) d) d) d
    else
      (indexed ((rowsOf 1).zip (rowsOf 2))).foldl (fun d e =>
        put (off 1 + e.1 * st) ((e.2.1.zip e.2.2).flatMap fun c => storedSample p.bits c.1 ++ storedSample p.bits c.2) d) d

/-- What a decode says of its picture, for the record. -/
structure DecNote where
  flags : Nat := 0
  picType : Nat := 0
  blocks : Nat := 0
  substituted : Nat := 0
  before : Nat := 0
  epoch : Nat := 0

/-- The record of a decoded picture (Table 12.2). -/
def decRecord (i : Nat) (q : Decoder) (p : DecPicture) (x : DecNote) (stamp : Nat) : List Byte :=
  let f := decodedFormat q p.bits
  let cfa : Bool := profileChroma q.codec q.profile = 3
  let planes := if cfa then [0x20000, 0, 0] else (List.range 3).map fun k => if k < formatPlanes f then formatOffset f p.width p.height k else 0
  le 8 p.frame ++ le 2 (0x6000 + i) ++ le 1 f ++ le 1 x.picType ++ le 4 x.flags ++ le 4 x.epoch ++ le 1 q.domain ++ le 3 0
    ++ fullTimeBytes { seconds := p.ptsSeconds, ns := p.ptsNs } ++ le 4 stamp ++ leInt 4 p.poc ++ le 4 x.blocks ++ le 1 x.substituted ++ le 3 0
    ++ le 2 p.width ++ le 2 p.height ++ planes.flatMap (le 4) ++ le 4 (if cfa then rawRowBytes p.width p.bits else formatStride f p.width)
    ++ le 4 x.before ++ List.replicate 52 0

/-- A picture's presentation time in ns. -/
def DecPicture.pts (p : DecPicture) : Nat := p.ptsSeconds * 1000000000 + p.ptsNs
def DecUnit.pts (u : DecUnit) : Nat := u.ptsSeconds * 1000000000 + u.ptsNs

/-- Pictures that are neither references nor in a slot are forgotten, and of the references the newest `dpb` are kept. -/
def prunePictures (q : Decoder) : Decoder :=
  let refs := (q.pictures.filter (·.reference)).length
  let l := (q.pictures.foldl (fun (acc : List DecPicture × Nat) p =>
    if p.reference && acc.2 > q.dpb then (acc.1 ++ [{ p with reference := false }], acc.2 - 1) else (acc.1 ++ [p], acc.2)) ([], refs)).1
  { q with pictures := l.filter fun p => p.reference || p.slot.isSome }

/-- Playback streams that a decoder is bound to. -/
def Decoder.streams (q : Decoder) : List Nat := (q.consumers.filter playbackId).map objIndex

/-- The encoder sessions that take a decoder's CFA output begin a frame with a complete slot, of its picture's size (R252, R255, R266). -/
def beginEncsOf (i slot : Nat) (p : DecPicture) (d : Dev) : Dev :=
  match mapGet d.codecs.decoders i with
  | none => d
  | some q => d.codecs.encoders.foldl (fun d x =>
      let (s, e) := x
      if e.codec = 0 && e.configured && !e.closing && e.xs.sourceKind = 3 && e.xs.source = 0x6000 + i && (0x5000 + s) ∈ q.consumers then
        let t := fullTime (domainNow d q.domain)
        beginEnc s e
          { number := p.frame, w := p.width, h := p.height, bits := p.bits, image := (p.width, p.height), sourceSlot := slot, period := q.periodNs, domain := q.domain, sofSeconds := t.seconds, sofNs := t.ns, sof := d.now, frameEnd := some d.now } d
      else d) d

/-- A decoded picture is copied to the next slot, unless it is held (R299). -/
def outputPicture (i : Nat) (p : DecPicture) (x : DecNote) (d : Dev) : Dev :=
  let o := 0x6000 + i
  match mapGet d.codecs.decoders i with
  | none => d
  | some q =>
    let slot := q.ring.next % max 1 q.depth
    if q.ring.held slot ≠ [] then
      d.onDecoder i fun q => prunePictures { q with pictures := q.pictures ++ [p], skippedBefore := min (2 ^ 32 - 1) (q.skippedBefore + 1) }
    else
      let stamp := shortStamp (domainNow d q.domain)
      let p := { p with frame := q.nextFrame, slot := some slot, waiting := q.streams }
      let x := { x with before := q.skippedBefore, flags := x.flags + 128 * boolNat (q.skippedBefore ≠ 0) }
      let base := decodedBase q slot
      let d := d.onDecoder i fun q => prunePictures { q with
        pictures := (q.pictures.map fun y => if y.slot = some slot then { y with slot := none } else y) ++ [p]
        nextFrame := q.nextFrame + 1, skippedBefore := 0, ring := ({ q.ring with next := (slot + 1) % max 1 q.depth }).hold slot o
        good := if p.concealed then q.good else some p, lastGood := if p.concealed then q.lastGood else p.poc }
      let d := writePlanes q base p stamp (pailWrite q.pail base (le 8 0) d)
      let d := q.streams.foldl (fun d n => holdSlot o slot (playHold n) d) (pailWrite q.pail base (decRecord i q p x stamp) d)
      beginEncsOf i slot p (completeSlot o slot p.frame x.epoch d)

/-- Missing references are replaced (R304). -/
def substitute (i : Nat) (l : List Int) (d : Dev) : Dev :=
  l.foldl (fun d poc => match mapGet d.codecs.decoders i with
    | none => d
    | some q =>
      let o := 0x6000 + i
      let p := { q.good.getD {} with poc, slot := none, frame := 0, concealed := false, substituted := true, tainted := false, reference := true, waiting := [], shown := [] }
      let d := count o 3 1 (d.onDecoder i fun q => { q with pictures := q.pictures ++ [p] })
      raise 0x0981 2 o (le 2 o ++ leInt 4 poc ++ le 1 (boolNat q.good.isNone) ++ le 1 0 ++ le 4 q.nextFrame) d (td := q.domain) (frame := q.nextFrame)) d

/-- DEC_DAMAGE (R303), for a unit that is damaged or not and some lost blocks. -/
def noteDamage (i damaged lost : Nat) (d : Dev) : Dev :=
  match mapGet d.codecs.decoders i with
  | none => d
  | some q =>
    let o := 0x6000 + i
    let since := q.damageSince + damaged
    let due : Bool := lost ≠ 0 && (match q.damageEvent with
      | some t => decide (t + 1000000000 ≤ d.now)
      | none => true)
    let d := d.onDecoder i fun q => { q with damageSince := if due then 0 else since, damageEvent := if due then some d.now else q.damageEvent }
    if due then raise 0x0980 2 o (le 2 o ++ le 4 since ++ le 4 lost ++ le 4 q.nextFrame) d (td := q.domain) (frame := q.nextFrame) else d

/-- The recovery_poc that a picture leaves in wait, and how a picture ends a chain of affected ones (R305): the kind of
DEC_RECOVERED. -/
def awaitedPoc (q : Decoder) (r : TineResult) (undamaged : Bool) : Option Int :=
  if !undamaged || r.irap = 1 then none else r.recoveryPoc.orElse fun _ => q.recovering
def recoveryKind (q : Decoder) (r : TineResult) (clean : Bool) : Option Nat :=
  if q.affected = 0 || !clean then none
  else if q.codec = 0 then some 3
  else if r.irap = 1 then some 0
  else if r.irap = 2 then some 1
  else if (awaitedPoc q r true).any (· ≤ r.poc) then some 2
  else none

/-- The RASL pictures of an IRAP are discarded (R305): those of a CRA or BLA that ends a chain of affected pictures, of a BLA, and of a CRA
that begins a sequence (PRESUMED, ITU-T H.265: log 64). -/
def dropsRasl (q : Decoder) (u : DecUnit) (r : TineResult) (kind : Option Nat) : Bool :=
  if r.irap = 0 then q.dropRasl
  else r.irap = 2 && (kind = some 1 || u.discontinuity || q.pictures.all (!·.reference) || (nalUnits u.data).any fun n => within (nalType q.codec n) 16 18)

/-- A unit's picture is decoded (R303 to R305): what its first job told of it, its lost blocks, and whether anything in the unit is
damaged. -/
def decodePicture (i : Nat) (u : DecUnit) (lost : List LostBlock) (damaged : Bool) (d : Dev) : Dev :=
  let o := 0x6000 + i
  let r := (mapGet d.codecs.decoders i).elim {} (jobResult · 0)
  let d := if r.irap = 1 then d.onDecoder i fun q => { q with pictures := q.pictures.map fun p => { p with reference := false } } else d
  match mapGet d.codecs.decoders i with
  | none => d
  | some q =>
    let known := fun (poc : Int) => q.pictures.any fun p => p.reference && p.poc = poc
    let missing := if q.codec = 0 then [] else (r.refs.filter fun poc => !known poc).eraseDups
    let d := substitute i missing d
    let q := (mapGet d.codecs.decoders i).getD q
    let used := if q.codec = 0 then [] else q.pictures.filter fun p => p.reference && p.poc ∈ r.refs
    let concealed := !lost.isEmpty
    let substituted := used.any (·.substituted)
    let kind := recoveryKind q r (!concealed && missing.isEmpty && !damaged)
    let tainted := kind.isNone && used.any fun p => p.concealed || p.substituted || p.tainted
    let d := noteDamage i (boolNat damaged) lost.length (if concealed then count o 2 1 d else d)
    let p : DecPicture :=
      { poc := r.poc, ptsSeconds := u.ptsSeconds, ptsNs := u.ptsNs, concealed, substituted, tainted, reference := q.codec ≠ 0
        width := q.plan.w, height := q.plan.h, bits := q.plan.bits, planes := pictureOf q lost }
    let d := match kind with
      | some k => raise 0x0982 0 o (le 2 o ++ leInt 4 r.poc ++ le 1 k ++ le 1 0 ++ le 4 q.affected) (d.onDecoder i fun q => { q with affected := 0 })
          (td := q.domain) (frame := q.nextFrame)
      | none => if concealed || substituted || tainted then d.onDecoder i fun q => { q with affected := q.affected + 1 } else d
    let d := d.onDecoder i fun x => { x with recovering := (awaitedPoc q r (!concealed && !damaged)).filter (r.poc < ·), dropRasl := dropsRasl q u r kind }
    let epoch := match q.streams with
      | n :: _ => (d.stream n).epoch
      | [] => 0
    let flags := boolNat concealed + 2 * boolNat substituted + 4 * boolNat tainted + 8 * boolNat (r.irap ≠ 0) + 16 * boolNat kind.isSome + 32 + 64 * boolNat u.late
    outputPicture i p { flags, picType := r.picType, blocks := lost.length, substituted := used.countP (·.substituted), epoch } d

/-- The last job of a unit has ended: its picture is finished, and the next unit begins (R302, R303). -/
def finishUnit (i : Nat) (q : Decoder) (u : DecUnit) (d : Dev) : Dev :=
  let o := 0x6000 + i
  let rects := q.plan.lostRects q.codec fun k => (jobResult q k).error
  let lost := if q.plan.picture then lostBlocks q.plan rects (q.results.flatMap fun e => e.2.vectors) else []
  let damaged : Bool := q.plan.damaged || !lost.isEmpty
  let d := d.onDecoder i fun q => { q with decoding := none, good := if u.discontinuity then none else q.good }
  let d := count o 0 1 (count o 1 (boolNat damaged) d)
  let d := if (jobResult q 0).rasl && q.dropRasl then count o 4 1 d
    else if q.plan.picture then decodePicture i u lost damaged d
    else noteDamage i (boolNat damaged) 0 d
  settleDecoder i (settleDrain i (nextDecode i (d.onDecoder i fun q => { q with results := [] })))

/-- A decode job ends (R295 to R306): the job that waited for it starts, and with the last one the unit's picture is finished. -/
def decodeDone (j : TineJob) (r : TineResult) (d : Dev) : Dev :=
  let i := objIndex j.session
  match mapGet d.codecs.decoders i with
  | none => d
  | some q =>
    match q.decoding with
    | none => settleDecoder i d
    | some u =>
      let d := d.onDecoder i fun q => { q with results := mapSet q.results j.swath r }
      let d := noteSessionMiss j.session q.domain j.frame j.cls j.deadline q.missed (fun m d => d.onDecoder i fun q => { q with missed := m }) d
      if q.results.length + 1 ≥ max 1 q.plan.jobs.length then finishUnit i { q with results := mapSet q.results j.swath r } u d
      else if j.swath + 1 < q.plan.jobs.length && q.plan.after q.codec (j.swath + 1) = some j.swath then queueDecode i (j.swath + 1) d
      else d

/-- A tine finishes its job and takes the next. -/
def tineDone (t : Nat) (r : TineResult) (d : Dev) : Dev :=
  match d.codecs.tines.getD t none with
  | none => d
  | some j =>
    let d := d.onCodecs fun c => { c with tines := c.tines.set t none }
    dispatchTines (if objType j.session = 0x5 then encodeDone j r false d else decodeDone j r d)

/-- TINE_JOB_COMPLETE. -/
def execTineJobComplete (time : Nat) (tine : Fin 64) (result : TineResult) (s : State) : Host.Outcome State Fault Refusal :=
  after time (tineDone tine.val result) s

/-! ## Playback (R307, R308) -/

/-- A picture that will not be presented, or is no longer, is let go by a stream. -/
def letGo (i n : Nat) (drop : DecPicture → Bool) (f : DecPicture → DecPicture) (d : Dev) : Dev :=
  match mapGet d.codecs.decoders i with
  | none => d
  | some q =>
    let d := (q.pictures.filter drop).foldl (fun d p => match p.slot with
      | some k => dropSlot (0x6000 + i) k (playHold n) d
      | none => d) d
    d.onDecoder i fun q => { q with pictures := q.pictures.map fun p => if drop p then f p else p }

/-- The latest of some pictures. -/
def latestPicture (l : List DecPicture) : Option DecPicture :=
  l.foldl (fun best p => match best with
    | some b => if p.pts ≥ b.pts then some p else best
    | none => some p) none

/-- The picture that a stream's frame presents: its slot, none for mid-grey (R307). -/
def presentPicture (i n sof : Nat) (d : Dev) : Option Nat × Dev :=
  match mapGet d.codecs.decoders i with
  | none => (none, d)
  | some q =>
    let o := 0x6000 + i
    match latestPicture (q.pictures.filter fun p => (n ∈ p.waiting || n ∈ p.shown) && p.slot.isSome && p.pts ≤ sof) with
    | some p =>
      let early := fun (y : DecPicture) => n ∈ y.waiting && y.frame ≠ p.frame && y.pts < p.pts
      let d := count o 6 ((q.pictures.filter early).length) d
      let d := letGo i n early (fun y => { y with waiting := y.waiting.erase n }) d
      if n ∈ p.shown then (p.slot, count o 7 1 d)
      else
      let d := letGo i n (fun y => n ∈ y.shown) (fun y => { y with shown := y.shown.erase n }) d
      (p.slot, d.onDecoder i fun q => { q with pictures := q.pictures.map fun y =>
        if y.slot = p.slot then { y with waiting := y.waiting.erase n, shown := n :: y.shown } else y })
    | none => match q.pictures.find? fun p => n ∈ p.shown with
      | some p => (p.slot, count o 7 1 d)
      | none => (none, d)

/-- Units that are due at a start of frame and not yet decoded are late (R308). -/
def markLate (i sof : Nat) (d : Dev) : Dev :=
  match mapGet d.codecs.decoders i with
  | none => d
  | some q =>
    let o := 0x6000 + i
    let units := q.decoding.toList ++ q.queue
    match units.filter fun u => !u.late && u.pts ≤ sof with
    | [] => d
    | u :: l =>
      let k := (u :: l).length
      let mark := fun (u : DecUnit) => if u.pts ≤ sof then { u with late := true } else u
      let due : Bool := match q.lateEvent with
        | some t => t + 1000000000 ≤ d.now
        | none => true
      let d := count o 5 k (d.onDecoder i fun q => { q with
        decoding := q.decoding.map mark, queue := q.queue.map mark, lateSince := if due then 0 else q.lateSince + k, lateEvent := if due then some d.now else q.lateEvent })
      if due then
        raise 0x0983 2 o (le 2 o ++ le 4 ((sof + q.leadUs * 1000 - u.pts) / 1000) ++ le 4 (q.lateSince + k)) d (td := q.domain) (frame := q.nextFrame)
      else d

/-- The start of a playback stream's first frame, where it is known. -/
def playbackStart (s : Stream) (q : Decoder) : Option Nat :=
  if s.playStart ≠ 0 then some s.playStart else (q.pictures.find? fun p => p.slot.isSome).map DecPicture.pts

/-- The next frame of a playback stream starts. -/
def playbackFrame (n : Nat) (d : Dev) : Dev :=
  let s := d.stream n
  match playbackDecoder d n with
  | none => d
  | some (i, q) =>
    match playbackStart s q with
    | none => d
    | some start =>
      let frame := s.frame + 1
      let sof := start + (frame - 1) * s.minPeriod
      let now := domainNow d q.domain
      if s.admission ≠ .admitted || now < sof then d
      else
        let d := d.onStream n fun s => { s with frame, lastSof := some sof, playStart := start }
        let d := applyAtSof n frame sof d
        let d := d.onStream n fun s => { s with inForce := true, bound := s.settings, boundFrame := frame, boundEpoch := s.epoch }
        let d := recordersAtSof n frame (markLate i sof d)
        let (slot, d) := presentPicture i n sof d
        let d := match slot with
          | some k => holdSlot (0x6000 + i) k (0x2000 + n) d
          | none => d
        let at1 := d.now - (now - sof)
        let t := fullTime sof
        let (w0, h) := (srcSize d n).getD (0, 0)
        let rec0 : FrameRecord := { number := frame, stream := n, epoch := (d.stream n).epoch, domain := q.domain, sofSeconds := t.seconds, sofNs := t.ns, rowsReceived := h, fillFirst := h }
        let fend := at1 + s.minPeriod
        let w : FrameWork :=
          { number := frame, src := if slot.isSome then 0x6000 + i else 0, sof := at1, sofSeconds := t.seconds, sofNs := t.ns, epoch := (d.stream n).epoch
            rowsIn := h, lineAt := (List.range (tilesH h)).map fun r => (r, at1 + r * 128 * s.minPeriod / max 1 h), delivered := some rec0, frameEnd := some fend }
        encDelivered n rec0 fend (recorderSource n rec0 (beginWork n (slot.getD 0) w (w0, h) q.domain [] d))

/-- PLAYBACK_SOF. -/
def execPlaybackSof (time : Nat) (stream : Fin 8) (s : State) : Host.Outcome State Fault Refusal :=
  after time (playbackFrame (16 + stream.val)) s

end Sys2Proof.Machine
end

