-- ==== Sys2Proof/Machine/RasterEv.lean ====
section
/-! DEFINITION. What the rasters, their outputs and the SDI inputs do in time: frame starts, commit cuts, latches, underruns,
composition and read-back checks (R311 to R332), and the branch frames that planes and senders take (R224). -/

namespace Sys2Proof.Machine

/-! ## Branch frames -/

/-- A frame of a branch that stands in a slot of its ring or is being written there. -/
structure BranchFrame where
  frame : Nat := 0
  sof : Nat := 0
  slot : Nat := 0
  set : BranchSet := {}
  deriving Inhabited

/-- The frames of a branch at hand: those that its stream works on, and the complete slots of its ring. -/
def branchFrames (d : Dev) (o : Nat) : List BranchFrame :=
  let (n, k) := branchOf o
  let b := branchSet d o
  let open' := (d.stream n).work.filterMap fun w =>
    if w.withdrawn then none
    else (tabGet w.branchOut k).slot.map fun s => { frame := w.number, sof := w.sofSeconds * 1000000000 + w.sofNs, slot := s, set := tabGet w.settings.branches k }
  let done := (List.range b.depth).filterMap fun s =>
    let h := pailRead d b.pail (s * b.slotSize) 40
    if u64 h 0 = 0 || u16 h 8 ≠ o || open'.any (fun x => x.frame = u64 h 0) then none
    else some { frame := u64 h 0, sof := u48 h 24 * 1000000000 + u32 h 32, slot := s, set := b }
  open' ++ done

/-- A stamp of a stream's domain as a time of another domain. -/
def acrossDomains (d : Dev) (n td sof : Nat) : Int := (sof : Int) + (domainNow d td : Int) - (domainNow d (streamDomain d n) : Int)

/-- The frame that a sync plane presents in raster frame `f` (R315): the one whose SOF lies within half a period of
start(f) − Φ. -/
def syncFrame (d : Dev) (r : Raster) (p : PlaneSet) (f : Nat) : Option BranchFrame :=
  let n := (branchOf p.source).1
  let target : Rat := (r.startOf f : Rat) - rasterPhase d r n
  let far := fun (x : BranchFrame) => let e : Rat := (acrossDomains d n r.timing.domain x.sof : Rat) - target; if e < 0 then -e else e
  let near := (branchFrames d p.source).filter fun x => 2 * far x ≤ r.timing.period
  near.foldl (fun best x => match best with
    | some y => if far x < far y then some x else some y
    | none => some x) none

/-! ## Latching (R313 to R317) -/

/-- The matrix that a Y'CbCr plane without one of its own is read with: the raster's, or on an R'G'B' raster one that the
manual leaves open. -/
def planeYcc (r : Raster) : Nat :=
  let y := (r.outputs.headD {}).ycc
  if y = 0 then 1 + Config.freeNat 0 0x1318 % 2 else y

/-- A plane's settings with the crop resolved. -/
def resolvedPlane (d : Dev) (p : PlaneSet) : PlaneSet :=
  let c := planeCrop d p
  { p with cropX := c.1, cropY := c.2.1, cropW := c.2.2.1, cropH := c.2.2.2 }

/-- A branch frame as a plane presents it. -/
def branchAir (d : Dev) (p : PlaneSet) (x : BranchFrame) : AirPlane :=
  let b := x.set
  { set := resolvedPlane d p, slot := x.slot, frame := x.frame, pail := b.pail, base := pictureSlot b.format b.outW b.outH x.slot, format := b.format
    width := b.outW, height := b.outH, range := b.range, ycc := b.ycc }

/-- An image in a pail as a plane presents it: full range (Table 13.1). -/
def imageAir (d : Dev) (r : Raster) (p : PlaneSet) : AirPlane :=
  { set := resolvedPlane d p, pail := p.pail, format := p.format, width := p.srcW, height := p.srcH, ycc := planeYcc r }

/-- A slot of an SDI input as a plane presents it. -/
def sdiAir (d : Dev) (r : Raster) (p : PlaneSet) (slot frame : Nat) : AirPlane :=
  let i := tabGet d.display.sdiIn p.source
  { set := resolvedPlane d p, slot, frame, pail := i.pail, base := pictureSlot 0x30 i.width i.height slot, format := 0x30, width := i.width
    height := i.height, range := 1, ycc := planeYcc r }

/-- What a plane presents after a latch, what it remembers, and whether it repeats a frame. -/
structure PlaneTake where
  air : Option AirPlane := none
  shown : PlaneShow := {}
  again : Bool := false
  deriving Inhabited

/-- A plane that finds no newer frame presents its previous one again. -/
def takeAgain (d : Dev) (p : PlaneSet) (before : Option AirPlane) (s : PlaneShow) : PlaneTake :=
  { air := before.map fun a => { a with set := resolvedPlane d p }, shown := s, again := before.isSome }

/-- A plane takes the frame it presents in raster frame `f`. -/
def latchPlane (d : Dev) (r : Raster) (f k : Nat) : PlaneTake :=
  let p := tabGet r.planes k
  let old := tabGet r.live k
  let same : Bool := old.mode ≠ 0 && old.sourceKind = p.sourceKind && old.source = p.source
  let s : PlaneShow := if same then tabGet r.shown k else {}
  let before := if same then (r.air.getLast?.bind fun a => a.planes.getD k none) else none
  if p.mode = 0 then {}
  else match p.sourceKind with
    | 0 =>
      let found := if p.mode = 1 then syncFrame d r p f
        else
          let g := ringOf d p.source
          let b := branchSet d p.source
          match g.lastSlot with
          | some x => if s.slot.isNone || g.lastFrame > s.frame then some { frame := g.lastFrame, slot := x, set := b } else none
          | none => none
      match found with
      | some x =>
        if s.slot = some x.slot && s.frame = x.frame then { takeAgain d p before s with again := true }
        else { air := some (branchAir d p x), shown := { slot := some x.slot, frame := x.frame } }
      | none => takeAgain d p before s
    | 1 => { air := some (imageAir d r p), shown := { slot := some 0 } }
    | _ =>
      let i := tabGet d.display.sdiIn p.source
      match i.ring.lastSlot with
      | some x =>
        if i.locked && (s.slot.isNone || i.ring.lastFrame > s.frame) then
          { air := some (sdiAir d r p x i.ring.lastFrame), shown := { slot := some x, frame := i.ring.lastFrame } }
        else if i.locked then takeAgain d p before { s with repeats := 0 }
        else if s.repeats + 1 > i.holdFrames then { shown := { s with repeats := s.repeats + 1 } }
        else takeAgain d p before { s with repeats := s.repeats + 1 }
      | none => takeAgain d p before s

/-! ## Composition (R318) -/

/-- A plane's picture in memory. -/
def AirPlane.picture (a : AirPlane) : Stored :=
  if a.set.sourceKind = 1 then
    { pail := a.pail, base := 0, format := a.format, w := a.width, h := a.height, stride := a.set.stride
      plane := (List.range 3).map (· * a.set.stride * a.set.srcH), top := some a.set.cropY }
  else { storedSlot a.pail a.base a.format a.width a.height with top := some a.set.cropY }

/-- A plane covers a line of the raster's picture, and a pixel of it. -/
def AirPlane.onLine (a : AirPlane) (l : Nat) : Bool := a.set.dstY ≤ l && l < a.set.dstY + min a.set.cropH (a.height - a.set.cropY)
def AirPlane.covers (a : AirPlane) (x l : Nat) : Bool := a.onLine l && a.set.dstX ≤ x && x < a.set.dstX + min a.set.cropW (a.width - a.set.cropX)

/-- A plane's sample in the raster's colour model. -/
def AirPlane.sample (a : AirPlane) (d : Dev) (ycc x l : Nat) : Pixel :=
  let p := a.picture.pixel d a.range (a.set.cropX + (x - a.set.dstX)) (a.set.cropY + (l - a.set.dstY))
  if formatYcc a.format then (if ycc = 0 then fromYcc a.ycc p else p) else if ycc = 0 then p else toYcc ycc p

/-- c = a × p + (1 − a) × c. -/
def AirPlane.over (d : Dev) (ycc x l : Nat) (c : Pixel) (a : AirPlane) : Pixel :=
  if !a.covers x l then c
  else
    let p := a.sample d ycc x l
    let k := fmul (fr ((a.set.alpha : Rat) / 256)) (if a.format = 1 || a.format = 2 then p.a else 1)
    let mix := fun (v u : Rat) => fadd (fmul k v) (fmul (fsub 1 k) u)
    { r := mix p.r c.r, g := mix p.g c.g, b := mix p.b c.b, a := 1 }

/-- The planes that a line of a frame is drawn from, lowest first: after an abort those of the frame before, or none (R329). -/
def AirFrame.layers (a : AirFrame) (l : Nat) : List AirPlane :=
  let gone := fun (x : Option Nat) => match x with
    | some k => k ≤ l
    | none => false
  if !gone a.aborted then a.planes.filterMap id
  else if gone a.fillLate then [] else a.before.filterMap id

/-- A line of the composited picture as codes: three to a pixel, the chroma of a 4:2:2 pair given with both its pixels. -/
def airLine (d : Dev) (r : Raster) (a : AirFrame) (l : Nat) : List (Nat × Nat × Nat) :=
  if a.closed then a.lines.getD l []
  else
    let o := r.outputs.headD {}
    let w := r.timing.hActive
    let row := (List.range w).map fun x => (a.layers l).foldl (AirPlane.over d o.ycc x l) {}
    let at1 := fun (x : Nat) => row.getD x {}
    let chroma := fun (f : Pixel → Rat) (x : Nat) => if o.sampling = 1 then chroma422 w (fun u => f (at1 u)) (x / 2 * 2) else f (at1 x)
    let c := fun (v : Rat) => if o.ycc = 0 then quantLuma o.depth o.range v else quantChroma o.depth o.range v
    (List.range w).map fun x => (quantLuma o.depth o.range (at1 x).r, c (chroma (·.g) x), c (chroma (·.b) x))

/-! ## Read-back checking (R326, R327) -/

/-- One bit, one byte, and a string of bytes of the CRC-32 of IEEE 802.3. -/
def ieeeBit (c : Nat) : Nat := if c % 2 = 1 then (c / 2) ^^^ 0xEDB88320 else c / 2
def ieeeByte (c : Nat) (b : Byte) : Nat := (List.range 8).foldl (fun x _ => ieeeBit x) (c ^^^ b.toNat)
def crc32 (bs : List Byte) : Nat := (bs.foldl ieeeByte 0xFFFFFFFF) ^^^ 0xFFFFFFFF

/-- Where a pixel goes on a quad link: two-sample interleave or square division (Table 13.2). -/
def OutputBind.quadOf (o : OutputBind) (w h x l : Nat) : Nat :=
  if o.link = 1 then l % 2 * 2 + x / 2 % 2 else boolNat (2 * l ≥ h) * 2 + boolNat (2 * x ≥ w)

/-- The samples of a pixel in interface order (R326). -/
def OutputBind.order (o : OutputBind) (x : Nat) (c : Nat × Nat × Nat) : List Nat :=
  let pair := if x % 2 = 0 then c.2.1 else c.2.2
  if o.output < 0x10 then [pair, c.1] else if o.sampling = 1 then [c.1, pair] else [c.1, c.2.1, c.2.2]

/-- The CRC of the composited picture over the samples that a transmitter carries. -/
def unitCrc (o : OutputBind) (unit w : Nat) (lines : List (List (Nat × Nat × Nat))) : Nat :=
  let h := lines.length
  let quad : Bool := o.output < 0x10 && o.link ≠ 0
  crc32 ((indexed lines).flatMap fun l => (indexed l.2).flatMap fun x =>
    if quad && o.quadOf w h x.1 l.1 ≠ unit - o.output then [] else (o.order x.1 x.2).flatMap (le 2))

/-- RASTER_CRC_MISMATCH, at most one a second for an output (Table 13.8). -/
def crcMismatch (i frame unit : Nat) (k : CrcCheck) (d : Dev) : CrcCheck × Dev :=
  let k := { k with since := k.since + 1 }
  let d := count (0x4000 + i) 2 1 d
  let quiet : Bool := match k.event with
    | some t => d.now < t + 1000000000
    | none => false
  if quiet then (k, d)
  else ({ k with since := 0, event := some d.now },
    raise 0x0A81 3 (0x4000 + i) (le 1 unit ++ le 1 0 ++ le 2 (0x4000 + i) ++ le 4 k.composited ++ le 4 k.loopback ++ le 4 k.since) d
      (td := (d.raster i).timing.domain) (frame := frame))

/-- The CRCs of a transmitter are compared; `lines` is the composited picture and `back` the loopback CRC. -/
def checkUnit (i : Nat) (a : AirFrame) (lines : List (List (Nat × Nat × Nat))) (unit back : Nat) (d : Dev) : Dev :=
  let r := d.raster i
  match r.outputs.find? fun o => unit ∈ o.units with
  | none => d
  | some o =>
    let k := { mapGetD o.checks unit {} with composited := unitCrc o unit r.timing.hActive lines, loopback := back % 2 ^ 32 }
    let (k, d) := if k.composited = k.loopback then (k, d) else crcMismatch i a.frame unit k d
    d.onRaster i fun r =>
      { r with outputs := r.outputs.map fun x => if x.output = o.output then { x with checks := mapSet x.checks unit k } else x }

/-- A transmitted frame's read-back CRCs are checked (R327). -/
def checkFrame (i : Nat) (readBack : List (Nat × Nat)) (d : Dev) : Dev :=
  let r := d.raster i
  match r.air.find? fun a => a.frame = r.frame with
  | none => d
  | some a =>
    if !r.crcOn || !a.transmitted then d
    else
      let lines := (List.range r.timing.vActive).map (airLine d r a)
      (readBack.filter fun e => e.1 ∉ a.skipped).foldl (fun d e => checkUnit i a lines e.1 e.2 d) d

/-! ## Frames -/

/-- The raster acts for its timeline: the first of an aligned group, or itself. -/
def leadsTimeline (d : Dev) (i : Nat) : Bool := leadRaster d (timelineOfRaster d i) = some i

/-- A raster frame starts on its grid (R312, R327): the frame before ends, and a raster that is to stop does. -/
def rasterFrame (i : Nat) (readBack : List (Nat × Nat)) (d : Dev) : Dev :=
  let r := d.raster i
  if !r.running then d
  else
    let d := if r.frame = 0 then d else checkFrame i readBack d
    if r.stopping && r.frame ≠ 0 then haltRaster i d
    else
      let f := r.frame + 1
      let d := setAir i (r.air.filter fun a => a.frame ≥ f || a.frame = r.latchedFrame) d
      let d := count (0x4000 + i) 8 1 (d.onRaster i fun r => { r with frame := f, frameStart := r.startOf f, stretch := 0 })
      if leadsTimeline d i then anchorBegins i d else d

/-- RASTER_FRAME_START. -/
def execRasterFrameStart (time : Nat) (raster : Fin 8) (readBack : List (Nat × Nat)) (s : State) : Host.Outcome State Fault Refusal :=
  after time (rasterFrame raster.val readBack) s

/-- RASTER_COMMIT_CUT (R321). -/
def commitCut (i : Nat) (d : Dev) : Dev := if (d.raster i).running && leadsTimeline d i then applyAtCut i d else d
def execRasterCommitCut (time : Nat) (raster : Fin 8) (s : State) : Host.Outcome State Fault Refusal := after time (commitCut raster.val) s

/-- Reduced refresh at a latch (R328): whether the frame is transmitted. -/
def refreshStep (r : Raster) (changed : Bool) : Bool × Raster :=
  if !(r.refresh && !r.outputs.isEmpty && r.outputs.all OutputBind.dsiCommand) then (true, r)
  else if changed then (true, { r with refreshK := 0, unchangedRun := 0, refreshPhase := 0 })
  else if r.refreshPhase + 1 < 2 ^ r.refreshK then (false, { r with refreshPhase := r.refreshPhase + 1 })
  else if r.unchangedRun + 1 ≥ r.nUnchanged && r.timing.rateNum ≥ r.timing.rateDen * 2 ^ (r.refreshK + 1) then
    (true, { r with refreshPhase := 0, unchangedRun := 0, refreshK := r.refreshK + 1 })
  else (true, { r with refreshPhase := 0, unchangedRun := r.unchangedRun + 1 })

/-- The DSI ports of a raster that wait for their TE input (R325). -/
def tePorts (r : Raster) : List Nat := (r.outputs.filter fun o => o.dsiCommand && o.te = 1).map fun o => o.output - 0x20

/-- A sender sends this raster's picture. -/
def rasterSent (d : Dev) (i : Nat) : Bool := d.net.flows.any fun e => e.1 < 64 && e.2.running && e.2.bindObject = 0x4000 + i

/-- A frame whose last line is fetched lets its slots go; its composited lines are kept where something still reads them. -/
def closeAir (d : Dev) (i : Nat) (a : AirFrame) : AirFrame :=
  let r := d.raster i
  if a.closed || (domainNow d r.timing.domain : Rat) < r.lastFetch a.frame then a
  else { a with closed := true, lines := if r.crcOn || rasterSent d i then (List.range r.timing.vActive).map (airLine d r a) else [] }

/-- A raster latches its next frame (R313, R315 to R317): it copies its shadow set and takes plane slots. -/
def latchRaster (i : Nat) (d : Dev) : Dev :=
  let r := d.raster i
  if !r.running then d
  else
    let f := max (r.latchedFrame + 1) r.frame
    let takes := (List.range 4).map (latchPlane d r f)
    let planes := takes.map (·.air)
    let last := r.air.getLast?
    let before := if r.fill = 1 then (match last with
        | some a => (List.range 4).map fun k => if (tabGet r.planes k).mode = 0 then none else a.planes.getD k none
        | none => List.replicate 4 none) else List.replicate 4 none
    let changed : Bool := r.changed || (last.map (·.planes)) ≠ some planes
    let (sent, r2) := refreshStep r changed
    let noTe := fun (a : AirFrame) => if a.frame = r.latchedFrame then { a with skipped := r.awaitTe.map (0x20 + ·) } else a
    let kept := ((r.air.filter fun a => a.frame ≥ r.frame).map noTe).map (closeAir d i)
    let d := setAir i (kept ++ [{ frame := f, planes, before, transmitted := sent }]) d
    let d := if r.awaitTe.isEmpty then d else count (0x4000 + i) 3 r.awaitTe.length d
    let d := d.onRaster i fun x =>
      { x with live := r.planes, shown := takes.map (·.shown), latchedFrame := f, latchEpoch := r.epoch, changed := false
               refreshK := r2.refreshK, unchangedRun := r2.unchangedRun, refreshPhase := r2.refreshPhase, awaitTe := if sent then tePorts r else [] }
    (indexed takes).foldl (fun d e => if e.2.again && e.2.air.isSome && (tabGet r.planes e.1).sourceKind ≠ 1 then count (0x4000 + i) (4 + e.1) 1 d else d) d

/-- RASTER_LATCH. -/
def execRasterLatch (time : Nat) (raster : Fin 8) (s : State) : Host.Outcome State Fault Refusal := after time (latchRaster raster.val) s

/-! ## Underrun (R329, R330) -/

/-- Changes a frame of a raster that is on its way. -/
def onAir (i frame : Nat) (g : AirFrame → AirFrame) (d : Dev) : Dev :=
  d.onRaster i fun r => { r with air := r.air.map fun a => if a.frame = frame then g a else a }

/-- The frame whose line falls due now: the newest whose deadline for it has come. -/
def dueAir (d : Dev) (r : Raster) (line : Nat) : Option AirFrame :=
  let due := fun (a : AirFrame) => (r.startOf a.frame : Rat) + r.timing.out line - 150000 ≤ (domainNow d r.timing.domain : Rat)
  (r.air.reverse.find? fun a => due a).orElse fun _ => r.air.head?

/-- A raster aborts a frame from a line on; RASTER_UNDERRUN comes once a frame. -/
def abortAir (frame line plane cause : Nat) (d : Dev) (i : Nat) : Dev :=
  let r := d.raster i
  match r.air.find? fun a => a.frame = frame with
  | none => d
  | some a =>
    let d := onAir i frame (fun a => { a with aborted := some (min line (a.aborted.getD line)) }) d
    if a.aborted.isSome then d
    else count (0x4000 + i) 0 1
      (raise 0x0A80 2 (0x4000 + i) (le 2 (0x4000 + i) ++ le 2 line ++ le 1 plane ++ le 1 cause ++ le 4 frame) d (td := r.timing.domain) (frame := frame))

/-- A plane's source has written the row that a line of the raster shows. -/
def AirPlane.rowsThere (a : AirPlane) (d : Dev) (line : Nat) : Bool :=
  let (n, k) := branchOf a.set.source
  match workOf d n a.frame, srcSize d n with
  | some w, some size =>
    let o := tabGet w.branchOut k
    a.set.sourceKind ≠ 0 || o.done || a.set.cropY + (line - a.set.dstY) < rowsComplete (tabGet w.settings.branches k) size o
  | _, _ => true

/-- A line of a plane is not there in time: the frame aborts, with every member of an aligned group; a fill line that is late
leaves the rest of the frame black. -/
def lineLate (i line plane cause : Nat) (d : Dev) : Dev :=
  let r := d.raster i
  if !r.running || line ≥ r.timing.vActive then d
  else match dueAir d r line with
    | none => d
    | some a =>
      match a.aborted with
      | some k =>
        if k ≤ line && (a.before.getD plane none).isSome then
          onAir i a.frame (fun a => { a with fillLate := some (min line (a.fillLate.getD line)) }) d
        else d
      | none =>
        if cause ≥ 2 || !((a.planes.getD plane none).any fun p => p.onLine line && (cause ≠ 0 || !p.rowsThere d line)) then d
        else (rasterPeers d i).foldl (fun d x => if x = i then d else abortAir a.frame line 0xFF 3 d x) (abortAir a.frame line plane cause d i)

/-- RASTER_LINE_DEADLINE. -/
def execRasterLineDeadline (time : Nat) (raster : Fin 8) (line : Nat) (plane : Fin 4) (cause : Nat) (s : State) : Host.Outcome State Fault Refusal :=
  after time (lineLate raster.val line plane.val cause) s

/-! ## Output ports (R325) -/

/-- A TE edge of a DSI port starts the transfer that waits for it. -/
def teEdge (port : Nat) (d : Dev) : Dev :=
  d.onDisplay fun p => { p with rasters := p.rasters.map fun r =>
    if r.running && port ∈ r.awaitTe then { r with awaitTe := r.awaitTe.filter (· ≠ port) } else r }

/-- DSI_TE_EDGE. -/
def execDsiTeEdge (time : Nat) (port : Fin 2) (s : State) : Host.Outcome State Fault Refusal := after time (teEdge port.val) s

/-- HDMI_LINK (Table 13.8). -/
def hdmiLink (port state rate lanes : Nat) (d : Dev) : Dev := raise 0x0A86 1 0 (le 1 (0x10 + port) ++ le 1 state ++ le 1 rate ++ le 1 lanes) d

/-- The port drives an FRL link. -/
def frlBound (d : Dev) (port : Nat) : Bool := d.display.rasters.any fun r => r.outputs.any fun o => o.output = 0x10 + port && o.link = 1

/-- Changes an HDMI port's link. -/
def onHdmi (port : Nat) (g : HdmiLink → HdmiLink) (d : Dev) : Dev := d.onDisplay fun p => { p with hdmi := tabMod p.hdmi port g }

/-- FRL training ended: a failure is tried again after 1 s. HDMI_LINK tells a change. -/
def frlTrained (port : Nat) (good first : Bool) (d : Dev) : Dev :=
  let l := tabGet d.display.hdmi port
  let d := onHdmi port (fun l => { l with trained := good, retryAt := if good then none else some (d.now + 1000000000) }) d
  if good then hdmiLink port 3 l.rate l.lanes d else if first then hdmiLink port 2 l.rate l.lanes d else d

/-- Hot-plug of an HDMI port changes; a port that drives FRL trains when it is plugged. -/
def hotPlug (port : Nat) (plugged trained : Bool) (rate lanes : Nat) (d : Dev) : Dev :=
  let l := tabGet d.display.hdmi port
  if l.plugged = plugged then d
  else
    let d := onHdmi port (fun _ => { plugged, rate := if plugged then rate % 256 else 0, lanes := if plugged then lanes % 256 else 0 }) d
    let d := hdmiLink port (boolNat plugged) (if plugged then rate else 0) (if plugged then lanes else 0) d
    if plugged && frlBound d port then frlTrained port trained true d else d

/-- HDMI_HOT_PLUG. -/
def execHdmiHotPlug (time : Nat) (port : Fin 2) (plugged trained : Bool) (rate lanes : Nat) (s : State) : Host.Outcome State Fault Refusal :=
  after time (hotPlug port.val plugged trained rate lanes) s

/-- A failed FRL training is tried again; a port that was bound to FRL after it was plugged trains here first. -/
def frlRetry (port : Nat) (trained : Bool) (d : Dev) : Dev :=
  let l := tabGet d.display.hdmi port
  let due : Bool := match l.retryAt with
    | some t => t ≤ d.now
    | none => true
  if l.plugged && !l.trained && due && frlBound d port then frlTrained port trained l.retryAt.isNone d else d

/-- HDMI_FRL_RETRY. -/
def execHdmiFrlRetry (time : Nat) (port : Fin 2) (trained : Bool) (s : State) : Host.Outcome State Fault Refusal :=
  after time (frlRetry port.val trained) s

/-! ## SDI inputs (R331, R332) -/

/-- Changes an SDI input. -/
def onSdi (i : Nat) (g : SdiInput → SdiInput) (d : Dev) : Dev := d.onDisplay fun p => { p with sdiIn := tabMod p.sdiIn i g }

/-- A sample of a received frame, given in interface order: Cb, Y, Cr, Y, each 16 bits. -/
def sdiSample (samples : List Byte) (k : Nat) : List Byte := le 2 (u16 samples (2 * k) % 1024)

/-- The planes of a received frame as the ring stores them: (offset in the slot, bytes) of each row. -/
def sdiRows (w h : Nat) (samples : List Byte) : List (Nat × List Byte) :=
  let st := formatStride 0x30 w
  (List.range h).flatMap fun y =>
    [(formatOffset 0x30 w h 0 + y * st, (List.range w).flatMap fun x => sdiSample samples (2 * (y * w + x) + 1)),
     (formatOffset 0x30 w h 1 + y * st, (List.range w).flatMap fun x => sdiSample samples (2 * (y * w + x)))]

/-- An SDI input writes a received frame to the next slot of its ring; `sav` is when the first active line's SAV arrived. -/
def sdiFrame (i sav w h : Nat) (samples ancillary : List Byte) (d : Dev) : Dev :=
  let x := tabGet d.display.sdiIn i
  if !x.enabled || !x.locked then d
  else
    let o := sdiRef i
    let size := formatSlot 0x30 w h
    let before := x.ring.skippedBefore
    let frame := x.frames + 1
    let at1 := (d.domain x.domain).timeAt (min sav d.now)
    let d := onSdi i (fun x => { x with width := w, height := h, frames := frame, sinceLock := x.sinceLock + 1, ancillary, sav := at1 }) d
    if (mappedPail d x.pail).elim 0 (·.2.size) < x.depth * size then d
    else match takeSlot o x.pail x.depth size d with
      | (none, d) => onSdi i (fun x => { x with ring := { x.ring with skippedBefore := min (2 ^ 32 - 1) (x.ring.skippedBefore + 1) } }) d
      | (some slot, d) =>
        let d := (sdiRows w h samples).foldl (fun d e => pailWrite x.pail (slot * size + e.1) e.2 d) d
        let t := fullTime at1
        let r : SlotRecord := { frame, format := 0x30, flags := 16 * boolNat (before ≠ 0) + 32, domain := x.domain, sofSeconds := t.seconds, sofNs := t.ns
                                doneStamp := shortStamp (domainNow d x.domain), rowsComplete := h, skippedBefore := before, width := w, height := h
                                payloadId := x.payloadId, input := i }
        completeSlot o slot frame 0 (writeRecord x.pail slot r d)

/-- SDI_RX_FRAME. -/
def execSdiRxFrame (time : Nat) (input : Fin 4) (sav width height : Nat) (samples ancillary : List Byte) (s : State) :
    Host.Outcome State Fault Refusal := after time (sdiFrame input.val sav width height samples ancillary) s

/-- An SDI input gains lock. -/
def sdiLocked (i payloadId : Nat) (d : Dev) : Dev :=
  let x := tabGet d.display.sdiIn i
  if !x.enabled || x.locked then d
  else raise 0x0A84 0 0 (le 1 i ++ le 1 0 ++ le 4 payloadId) (onSdi i (fun x => { x with locked := true, payloadId := payloadId % 2 ^ 32, sinceLock := 0 }) d)
    (td := x.domain)

/-- SDI_RX_LOCKED. -/
def execSdiRxLocked (time : Nat) (input : Fin 4) (payloadId : Nat) (s : State) : Host.Outcome State Fault Refusal :=
  after time (sdiLocked input.val payloadId) s

/-- An SDI input loses lock. -/
def sdiLost (i : Nat) (d : Dev) : Dev :=
  let x := tabGet d.display.sdiIn i
  if !x.locked then d
  else raise 0x0A85 2 0 (le 1 i ++ le 1 0 ++ le 4 x.sinceLock) (onSdi i (fun x => { x with locked := false }) d) (td := x.domain)

/-- SDI_RX_LOST. -/
def execSdiRxLost (time : Nat) (input : Fin 4) (s : State) : Host.Outcome State Fault Refusal := after time (sdiLost input.val) s

end Sys2Proof.Machine
end

