-- ==== Sys2Proof/Machine/NetEv.lean ====
section
/-! DEFINITION. What the network engine does in time: packets that senders launch, packets that receivers take, frame times that
close, lost paths, links and neighbour messages (R358, R361 to R372, R499). -/

namespace Sys2Proof.Machine

/-- Changes a sender's or a receiver's entry, and reads it. -/
def Dev.flow? (d : Dev) (k : Nat) : Option Flow := mapGet d.net.flows k

/-- The object of a flow. -/
def flowObj (k : Nat) : Nat := 0x8000 + k

/-! ## Packets of a sender -/

/-- An RTP packet (R364): version 2, marker, payload type, sequence number, timestamp and SSRC. -/
def rtpPacket (c : FlowConfig) (marker : Bool) (seq stamp : Nat) (payload : List Byte) : List Byte :=
  [byte 0x80, byte (128 * boolNat marker + c.payloadType)] ++ be 2 seq ++ be 4 stamp ++ be 4 c.ssrc ++ payload

/-- The IPv6 address of a port (R359, Table 15.3): link-local, formed from its MAC address, where no prefix is given (PRESUMED: RFC
4291's interface identifier). -/
def portIpv6 (d : Dev) (port : Nat) : Nat :=
  let p := tabGet d.net.ports port
  let mac := (d.boot.macBase + port) % 2 ^ 48
  if p.ipv6Prefix ≠ 0 then p.ipv6
  else 0xFE80 * 2 ^ 112 + (mac / 2 ^ 24 ^^^ 0x020000) * 2 ^ 40 + 0xFFFE * 2 ^ 24 + mac % 2 ^ 24

/-- The paths that a sender's packet leaves on: those whose link is up (R363). -/
def sentWays (d : Dev) (c : FlowConfig) : List SentWay :=
  let way := fun (m addr : Nat) =>
    let p := tabGet d.net.ports m
    if p.link then [{ mac := m, vlan := p.vlan, pcp := c.pcpOrDepth, source := if c.ipv6 then portIpv6 d m else p.ipv4
                      target := addr, dscp := c.dscp, port := c.port : SentWay }] else []
  way c.macA c.addrA ++ (if c.dual then way c.macB c.addrB else [])

/-- A packet leaves on every path whose link is up; a path that is down counts it as not sent. -/
def sendPacket (k : Nat) (marker : Bool) (stamp : Nat) (payload : List Byte) (d : Dev) : Dev :=
  match d.flow? k with
  | none => d
  | some f =>
    let c := f.config
    let o := flowObj k
    let up := fun p => (tabGet d.net.ports p).link
    let ways := sentWays d c
    let p := rtpPacket c marker f.extSeq stamp payload
    let d := if up c.macA then d else count o 6 1 d
    let d := if c.dual && !up c.macB then count o 7 1 d else d
    count o 8 (ways.length * (p.length + ipHeader c - 12))
      (count o 0 1 (d.onFlow k fun f => { f with lastPacket := p, lastWays := ways, extSeq := (f.extSeq + 1) % 2 ^ 32 }))

/-- The timestamp of an instant on the 90 kHz clock (R364). -/
def clock90 (ns : Nat) : Nat := ns * 90000 / 1000000000 % 2 ^ 32

/-! ### ST 2110-20 -/

/-- Fields put side by side, most significant first, as bytes. -/
def wireBits (width : Nat) (l : List Nat) : List Byte := be (l.length * width / 8) (l.foldl (fun a v => a * 2 ^ width + v % 2 ^ width) 0)

/-- The samples of a pgroup in order (R365). -/
def groupSamples (format : Nat) (code : Nat → Nat × Nat × Nat) (x : Nat) : List Nat :=
  if format / 16 = 3 then [(code x).2.1, (code x).1, (code x).2.2, (code (x + 1)).1]
  else (List.range (pgroup format).2).flatMap fun i => [(code (x + i)).1, (code (x + i)).2.1, (code (x + i)).2.2]

/-- The runs of a packet: line, first pgroup and how many (R365). -/
def packetRuns (s : SendSource) (maxPayload n : Nat) : List (Nat × Nat × Nat) :=
  let g := packetGroups s maxPayload
  let per := max 1 s.lineGroups
  let a := n * g
  let b := min (a + g) (per * s.h)
  (List.range ((b - 1) / per + 1 - a / per)).map fun i =>
    let l := a / per + i
    let x := max a (l * per)
    (l, x - l * per, min b ((l + 1) * per) - x)

/-- The payload of a packet (R364, R365): extended sequence number, the headers of its SRDs, and their pgroups. -/
def videoPayload (s : SendSource) (maxPayload n seq : Nat) (code : Nat → Nat → Nat × Nat × Nat) : List Byte :=
  let runs := packetRuns s maxPayload n
  let (bytes, px) := pgroup s.format
  let head := (indexed runs).flatMap fun e =>
    be 2 (e.2.2.2 * bytes) ++ be 2 e.2.1 ++ be 2 (boolNat (e.1 + 1 < runs.length) * 32768 + e.2.2.1 * px)
  let data := runs.flatMap fun e => (List.range e.2.2).flatMap fun i =>
    wireBits (formatDepth s.format) (groupSamples s.format (code e.1) ((e.2.1 + i) * px))
  be 2 (seq / 65536) ++ head ++ data

/-- A pixel's codes as a branch stores them; poisoned samples come from the line before (R499). -/
def storedCode (d : Dev) (p : Stored) (l x : Nat) : Nat × Nat × Nat :=
  if x ≥ p.w then (0, 0, 0)
  else if p.format / 16 = 3 then (p.word d 0 l (2 * x), p.chroma d (x / 2) l 0, p.chroma d (x / 2) l 1)
  else (p.word d 0 l (6 * x), p.word d 0 l (6 * x + 2), p.word d 0 l (6 * x + 4))

/-- Black as R367 gives it. -/
def flowBlack (format : Nat) : Nat × Nat × Nat :=
  let n := formatDepth format
  if format / 16 = 3 then (64 * 2 ^ (n - 8), 128 * 2 ^ (n - 8), 128 * 2 ^ (n - 8)) else (0, 0, 0)

/-- A branch frame's row was in memory 20 µs ago (R367). -/
def rowReady (d : Dev) (o : Nat) (x : BranchFrame) (v : Nat) : Bool :=
  let (n, k) := branchOf o
  match srcSize d n with
  | none => false
  | some (w, h) =>
    let r := branchTileRow x.set w h v
    match workOf d n x.frame with
    | some y => match mapGet (tabGet y.branchOut k).rowAt r with
      | some t => t + 20000 ≤ d.now
      | none => false
    | none =>
      let stamp := u32 (pailRead d x.set.pail (x.slot * x.set.slotSize) 40) 36
      r ≠ branchTileRow x.set w h (x.set.outH - 1) || (domainNow d (streamDomain d n) + 2 ^ 32 - stamp) % 2 ^ 32 ≥ 20000

/-- FLOW_UNDERRUN, at most one a second for a flow (Table 15.6). -/
def flowUnderrun (k packet frame : Nat) (d : Dev) : Dev :=
  match d.flow? k with
  | none => d
  | some f =>
    let d := count (flowObj k) 2 1 d
    let quiet : Bool := match f.underrunEvent with
      | some t => d.now < t + 1000000000
      | none => false
    if quiet then d
    else raise 0x0C80 2 (flowObj k) (le 2 (flowObj k) ++ le 4 packet ++ le 4 frame) (d.onFlow k fun f => { f with underrunEvent := some d.now })
      (td := f.config.domain) (frame := frame)

/-- A sender's frame is over: its slot is let go, and a flow that is to stop does. -/
def endSending (k : Nat) (d : Dev) : Dev :=
  let d := dropSending k d
  match d.flow? k with
  | some f => if f.stopping then haltFlow k d else d
  | none => d

/-- A base for which the source offers no frame is a gap, once for a period (R367). -/
def sendGap (k : Nat) (tro period : Rat) (d : Dev) : Dev :=
  match d.flow? k with
  | none => d
  | some f =>
    let now : Rat := domainNow d f.config.domain
    let base : Rat := match f.lastClosed with
      | some b => (b : Rat) + period
      | none => now - tro
    if base + tro ≤ now then count (flowObj k) 1 1 (d.onFlow k fun f => { f with lastClosed := some base.floor.toNat }) else d

/-- A sender takes a frame of its source. -/
def beginSending (k : Nat) (s : SendFrame) (d : Dev) : Dev :=
  match d.flow? k with
  | none => d
  | some f =>
    let d := match s.slot with
      | some x => holdSlot f.bindObject x (flowObj k) d
      | none => d
    d.onFlow k fun f => { f with sending := some s, frames := s.frame, lastClosed := some s.base }

/-- The frame that a video sender could take now: the newest one that it has not sent and whose first packet is due. -/
def nextVideo (d : Dev) (f : Flow) (s : SendSource) : Option SendFrame :=
  let now : Rat := domainNow d f.config.domain
  let due := fun (base : Nat) => (base : Rat) + s.tro ≤ now
  let n := framePackets s f.config.maxPayload
  if objType f.bindObject = 0x4 then
    let r := d.raster (objIndex f.bindObject)
    ((r.air.reverse.find? fun a => a.frame > f.frames && due (r.startOf a.frame)).map fun a =>
      { frame := a.frame, base := r.startOf a.frame, packets := n, rtpStamp := clock90 (r.startOf a.frame) })
  else
    let l := (branchFrames d f.bindObject).filter fun x => x.frame > f.frames && due x.sof
    (l.foldl (fun best x => match best with
      | some (y : BranchFrame) => if x.frame > y.frame then some x else some y
      | none => some x) none).map fun x => { frame := x.frame, slot := some x.slot, base := x.sof, packets := n, rtpStamp := clock90 x.sof }

/-- The next packet of an ST 2110-20 frame leaves at its launch time (R361, R365, R367). -/
def launchVideo (k : Nat) (d : Dev) : Dev :=
  match d.flow? k with
  | none => d
  | some f => match sendSource d f with
    | none => d
    | some s =>
      let d := if f.sending.isSome then d
        else match nextVideo d f s with
          | some x => beginSending k x d
          | none => sendGap k s.tro s.period d
      match (d.flow? k).bind (·.sending) with
      | none => d
      | some x =>
        let n := x.next
        if (domainNow d f.config.domain : Rat) < (x.base : Rat) + launchOf s x.packets n then d
        else
          let r := d.raster (objIndex f.bindObject)
          let raster : Bool := objType f.bindObject = 0x4
          let air := r.air.find? fun a => a.frame = x.frame
          let src := (branchFrames d f.bindObject).find? fun y => y.frame = x.frame
          let lines := (packetRuns s f.config.maxPayload n).map (·.1)
          let ready : Bool := if raster then air.isSome else match src with
            | some y => lines.all (rowReady d f.bindObject y)
            | none => false
          let late : Bool := x.blackFrom.isNone && !ready
          let x := if late then { x with blackFrom := some n } else x
          let d := if late then flowUnderrun k n x.frame d else d
          let code : Nat → Nat → Nat × Nat × Nat := fun l =>
            if x.blackFrom.isSome then fun _ => flowBlack s.format
            else if raster then (match air with
              | some a =>
                let row := airLine d r a l
                fun c => row.getD c (0, 0, 0)
              | none => fun _ => flowBlack s.format)
            else match src with
              | some y => storedCode d { storedSlot y.set.pail (pictureSlot y.set.format y.set.outW y.set.outH y.slot) y.set.format y.set.outW y.set.outH with top := some 0 } l
              | none => fun _ => flowBlack s.format
          let last : Bool := n + 1 ≥ x.packets
          let d := sendPacket k last x.rtpStamp (videoPayload s f.config.maxPayload n f.extSeq code) d
          let d := d.onFlow k fun f => { f with sending := some { x with next := n + 1 } }
          if last then endSending k d else d

/-! ### ST 2110-22 -/

/-- A codestream that a session sends: its frame, SOF, slot and the bytes that were in memory 20 µs ago. -/
structure XsFrame where
  frame : Nat := 0
  sof : Nat := 0
  slot : Nat := 0
  bytes : List Byte := []
  whole : Bool := false
  deriving Inhabited

/-- Bytes of a pail with those of poisoned lines as zeros (R499). -/
def readZeroed (d : Dev) (h off n : Nat) : List Byte :=
  (pailRead d h off n).zipIdx.map fun e => if pailPoisoned d h (off + e.2) 1 then 0 else e.1

/-- The bytes of a frame in progress that stand in codestream order. -/
def xsPrefix (d : Dev) (f : EncFrame) : List Byte :=
  let done := f.swaths.takeWhile fun s => match s.doneAt with
    | some t => t + 20000 ≤ d.now
    | none => false
  if done.isEmpty then []
  else f.header ++ f.pad ++ done.flatMap (fun s => mapGetD s.parts 0 []) ++ (if done.length = f.swaths.length then be 2 xsEoc else [])

/-- The frames of a JPEG XS session at hand. -/
def xsFrames (d : Dev) (o : Nat) : List XsFrame :=
  match mapGet d.codecs.encoders (objIndex o) with
  | none => []
  | some e =>
    let open' := e.frames.filterMap fun f => f.slot.map fun s =>
      let b := xsPrefix d f
      { frame := f.number, sof := f.sofSeconds * 1000000000 + f.sofNs, slot := s, bytes := b, whole := !f.swaths.isEmpty && f.swaths.all fun s => s.doneAt.any (· + 20000 ≤ d.now) }
    let size := xsSlot e.xs.budget
    let done := (List.range e.xs.depth).filterMap fun s =>
      let h := pailRead d e.xs.pail (s * size) 44
      if u64 h 0 = 0 || u16 h 8 ≠ o || open'.any (fun x => x.frame = u64 h 0) then none
      else some { frame := u64 h 0, sof := u48 h 24 * 1000000000 + u32 h 32, slot := s, bytes := readZeroed d e.xs.pail (s * size + 0x1000) (u32 h 40), whole := true }
    open' ++ done

/-- The next packet of an ST 2110-22 frame (R263, R365, R367). Its payload header names the frame, the last packet and the slice
mode; its slice and packet counters are open. -/
def launchXs (k : Nat) (d : Dev) : Dev :=
  match d.flow? k with
  | none => d
  | some f => match mapGet d.codecs.encoders (objIndex f.bindObject) with
    | none => d
    | some e =>
      let c := f.config
      let n := ceilDiv e.xs.budget c.maxPayload
      let s : SendSource := { period := (xsPeriod d e.xs : Rat), activeNum := c.ractiveNum, activeDen := c.ractiveDen, tro := (c.delay : Rat) }
      let now : Rat := domainNow d c.domain
      let frames := xsFrames d f.bindObject
      let d := if f.sending.isSome then d
        else match (frames.filter fun x => x.frame > f.frames && (x.sof : Rat) + s.tro ≤ now).foldl (fun best x => match best with
            | some (y : XsFrame) => if x.frame > y.frame then some x else some y
            | none => some x) none with
          | some x => beginSending k { frame := x.frame, slot := some x.slot, base := x.sof, packets := n, rtpStamp := clock90 x.sof } d
          | none => sendGap k s.tro s.period d
      match (d.flow? k).bind (·.sending) with
      | none => d
      | some x =>
        if now < (x.base : Rat) + launchOf s x.packets x.next then d
        else
          let a := x.next * c.maxPayload
          let have' := frames.find? fun y => y.frame = x.frame
          let bytes := (have'.map (·.bytes)).getD []
          let whole : Bool := (have'.map (·.whole)).getD false
          let need := min (a + c.maxPayload) (if whole then bytes.length else e.xs.budget)
          if bytes.length < need || have'.isNone then endSending k (flowUnderrun k x.next x.frame d)
          else
            let last : Bool := x.next + 1 ≥ x.packets || (whole && a + c.maxPayload ≥ bytes.length)
            let (v, d) := takeFree d
            let head := be 4 (2 ^ 31 + 2 ^ 30 + boolNat last * 2 ^ 29 + x.frame % 32 * 2 ^ 22 + Config.freeNat v 0 % 2 ^ 22)
            let d := sendPacket k last x.rtpStamp (head ++ (bytes.drop a).take (need - a)) d
            let d := d.onFlow k fun f => { f with sending := some { x with next := x.next + 1 } }
            if last then endSending k d else d

/-! ### ST 2110-30 and ST 2110-40 -/

/-- Samples of a packet of a flow (Table 15.2). -/
def packetSamples (c : FlowConfig) : Nat :=
  let hz := if bit c.audioFormat 0 then 96000 else 48000
  hz / (if bit c.audioFormat 2 then 8000 else 1000)

/-- Bytes of a sample on the wire. -/
def sampleBytes (c : FlowConfig) : Nat := if bit c.audioFormat 1 then 2 else 3

/-- The newest sample of a port: an ASRC whose clock has stopped goes on with zeros in its domain's time (Table 16.2). -/
def portNewest (d : Dev) (p : AudioPort) : Nat :=
  if p.state = .muted && p.asrc.enable && p.config.direction = 1 then max p.sampleIndex (mediaCount d p.config.domain p.asrc.outRate) else p.sampleIndex

/-- The next audio packet of a port, once its samples are there (R364, R389). -/
def launchAudio (k : Nat) (d : Dev) : Dev :=
  match d.flow? k with
  | none => d
  | some f =>
    let c := f.config
    let p := d.port (objIndex f.bindObject)
    let spp := packetSamples c
    let newest := portNewest d p
    let first := if f.frames = 0 || f.frames + 4096 < newest then (newest + 1) / spp * spp - spp else f.frames
    if first + spp > newest + 1 then d
    else
      let size := sampleBytes c
      let data := (List.range spp).flatMap fun i =>
        let x := ringEntry p (first + i)
        (List.range c.channels).flatMap fun ch => be size ((x.getD ch 0 / 2 ^ (32 - 8 * size)) % 2 ^ (8 * size)).toNat
      (sendPacket k false (first % 2 ^ 32) data d).onFlow k fun f => { f with frames := first + spp }

/-- Bytes of `n` ancillary packets as RFC 8331 lays them out: a word, then 10-bit words up to the checksum, filled up to 32 bits. -/
def ancBytes : Nat → List Byte → Nat
  | 0, _ => 0
  | n + 1, b =>
    let words := unle (slice b 4 4).reverse / 4 % 256
    let size := 4 + ceilDiv ((words + 4) * 10) 32 * 4
    size + ancBytes n (b.drop size)

/-- A packet of ancillary data: extended sequence number, length, and the payload from ANC_Count on. -/
def ancPacket (k stamp : Nat) (payload : List Byte) (d : Dev) : Dev :=
  match d.flow? k with
  | some f => sendPacket k true stamp (be 2 (f.extSeq / 65536) ++ be 2 (payload.length - 4) ++ payload) d
  | none => d

/-- The slot of a host ANC ring with the highest frame number above the last one sent (R368). -/
def hostAnc (d : Dev) (pail last : Nat) : Option (Nat × List Byte) :=
  let size := match mappedPail d pail with
    | some (_, p) => p.size
    | none => 0
  (List.range (size / 4096)).foldl (fun best s =>
    let b := pailRead d pail (s * 4096) 4096
    let n := u64 b 0
    if n > last && (match best with
        | some (m, _) => m < n
        | none => true) then some (n, (b.drop 16).take (4 + ancBytes (u16 b 8) (b.drop 20))) else best) none

/-- An ancillary packet leaves: of an SDI input's frame at its sof_time, or of a host ring at a grid point (Table 15.2, R368). -/
def launchAnc (k : Nat) (d : Dev) : Dev :=
  match d.flow? k with
  | none => d
  | some f =>
    let c := f.config
    let now := domainNow d c.domain
    if f.bindKind = 1 then
      let x := tabGet d.display.sdiIn f.bindInput
      if x.frames > f.frames && x.sav + c.delay ≤ now then
        (ancPacket k (clock90 x.sav) (if x.ancillary.length < 4 then List.replicate 4 0 else x.ancillary) d).onFlow k fun f => { f with frames := x.frames, lastClosed := some x.sav }
      else if x.locked then d
      else sendGap k (c.delay : Rat) (1000000000 * ((d.domain c.domain).rateDen : Rat) / ((d.domain c.domain).rateNum : Rat)) d
    else
      let start := match f.lastClosed with
        | some b => b + 1
        | none => now - c.delay
      let g := nextGrid d c.domain start
      if now < g + c.delay then (if f.lastClosed.isSome then d else d.onFlow k fun f => { f with lastClosed := some (g - 1) })
      else
        let slot := hostAnc d f.bindPail f.ancFrame
        let d := ancPacket k (clock90 g) ((slot.map (·.2)).getD (List.replicate 4 0)) d
        d.onFlow k fun f => { f with lastClosed := some g, ancFrame := (slot.map (·.1)).getD f.ancFrame }

/-- How far past its launch time the next packet of a sender's frame in progress is, in ns (R361, R365). -/
def pastLaunch (d : Dev) (f : Flow) : Option Rat :=
  let s : Option SendSource := match f.config.essence with
    | 0 => sendSource d f
    | 1 => (mapGet d.codecs.encoders (objIndex f.bindObject)).map fun e =>
      { period := (xsPeriod d e.xs : Rat), activeNum := f.config.ractiveNum, activeDen := f.config.ractiveDen, tro := (f.config.delay : Rat) }
    | _ => none
  match f.sending, s with
  | some x, some s => some ((domainNow d f.config.domain : Rat) - ((x.base : Rat) + launchOf s x.packets x.next))
  | _, _ => none

/-- Two flows use a port. -/
def Flow.shares (f g : Flow) : Bool := f.onPort g.config.macA || (g.config.dual && f.onPort g.config.macB)

/-- A packet waits for another flow of the same MAC whose packet was to leave before it, or at the same time with a lower flow
number (R361). -/
def waitsTurn (d : Dev) (k : Nat) (f : Flow) : Bool := match pastLaunch d f with
  | none => false
  | some t => d.net.flows.any fun e => decide (e.1 < 64) && decide (e.1 ≠ k) && e.2.running && e.2.shares f && (match pastLaunch d e.2 with
    | some u => decide (u > t) || (decide (u = t) && decide (e.1 < k))
    | none => false)

/-- MEDIA_PACKET_LAUNCH (R361, R365). -/
def packetLaunch (k : Nat) (d : Dev) : Dev :=
  match d.flow? k with
  | none => d
  | some f =>
    if !f.running || !f.bound || waitsTurn d k f then d
    else match f.config.essence with
      | 0 => launchVideo k d
      | 1 => launchXs k d
      | 2 => launchAudio k d
      | _ => launchAnc k d
def execMediaPacketLaunch (time : Nat) (flow : Fin 64) (s : State) : Host.Outcome State Fault Refusal := after time (packetLaunch flow.val) s

/-- A sender's packet read faults (Table 18.6, R367). -/
def senderFault (k : Nat) (d : Dev) : Dev :=
  match d.flow? k with
  | some f => match f.sending with
    | some x =>
      let d := if x.blackFrom.isSome then d else flowUnderrun k x.next x.frame d
      if f.config.essence = 1 then endSending k d
      else d.onFlow k fun f => { f with sending := some { x with blackFrom := some (x.blackFrom.getD x.next) } }
    | none => d
  | none => d

/-! ## Receivers -/

/-- A flow's media clock, in Hz (R364). -/
def flowClock (c : FlowConfig) : Nat := if c.essence = 2 then (if bit c.audioFormat 0 then 96000 else 48000) else 90000

/-- The count of a flow's clock nearest to an instant whose low 32 bits are a timestamp, and the instant it stands for (R370). -/
def nearestStamp (c : FlowConfig) (now stamp : Nat) : Nat × Nat :=
  let hz := flowClock c
  let n : Int := now * hz / 1000000000
  let e : Int := ((stamp : Int) - n + 2 ^ 31) % 2 ^ 32 - 2 ^ 31
  let count := (n + e).toNat
  (count, ceilDiv (count * 1000000000) hz)

/-- When the frame or packet time of an instant closes (R371). -/
def closeTime (c : FlowConfig) (instant : Nat) : Nat := instant + (if c.essence = 2 then 0 else c.periodNs) + c.delay * 1000

/-- FLOW_PATH_LOST (Table 15.6). -/
def pathEvent (k : Nat) (pathB back : Bool) (d : Dev) : Dev :=
  let o := flowObj k
  raise 0x0C81 2 o (le 2 o ++ le 1 (boolNat pathB) ++ le 1 (boolNat back)) d (td := ((d.flow? k).getD {}).config.domain)

/-- A packet arrives on a path: a path that was lost is back. -/
def pathAlive (k : Nat) (pathB : Bool) (d : Dev) : Dev :=
  match d.flow? k with
  | none => d
  | some f =>
    let was := if pathB then f.lostB else f.lostA
    let d := d.onFlow k fun f => if pathB then { f with lastPathB := some d.now, lostB := false } else { f with lastPathA := some d.now, lostA := false }
    if was then pathEvent k pathB true d else d

/-- A packet whose number is known enters its frame, unless it came before on either path or its frame has closed (R370, R371). -/
def storePacket (k : Nat) (pathB : Bool) (ext stamp : Nat) (payload : List Byte) (d : Dev) : Dev :=
  match d.flow? k with
  | none => d
  | some f =>
    let c := f.config
    let mark := if pathB then 2 else 1
    let now := domainNow d c.domain
    let (n, t) := nearestStamp c now stamp
    if ext ∈ f.seen then
      count (flowObj k) 5 1 (d.onFlow k fun f => { f with receiving := f.receiving.map fun r => match mapGet r.packets ext with
        | some (m, b) => { r with packets := mapSet r.packets ext (m ||| mark, b) }
        | none => r })
    else if closeTime c t ≤ now then count (flowObj k) 4 1 (d.onFlow k fun f => { f with lateSince := f.lateSince + 1 })
    else
      let d := count (flowObj k) 8 (payload.length + ipHeader c) (count (flowObj k) 0 1 d)
      let newest : Bool := (ext + 2 ^ 32 - f.extSeq) % 2 ^ 32 < 2 ^ 31
      let top := if newest || !f.seqKnown then ext else f.extSeq
      let near := fun (x : Nat) => decide ((top + 2 ^ 32 - x) % 2 ^ 32 < 65536)
      let put := fun (r : RecvFrame) => { r with packets := mapSet r.packets ext (mark, payload) }
      d.onFlow k fun f =>
        { f with extSeq := top, seqKnown := true, held := none, seen := ext :: f.seen.filter near
                 receiving := if f.receiving.any fun r => r.stamp = n then f.receiving.map fun r => if r.stamp = n then put r else r
                   else f.receiving ++ [put { stamp := n, instant := t }] }

/-- RTP_PACKET_RECEIVE (R370): the sequence number is extended, or after two packets in a row at a new place starts again. -/
def rtpReceive (k : Nat) (pathB : Bool) (seq stamp : Nat) (payload : List Byte) (fragment : Bool) (d : Dev) : Dev :=
  match d.flow? k with
  | none => d
  | some f =>
    let c := f.config
    if !f.running || (pathB && !c.dual) then d
    else
      let d := pathAlive k pathB d
      let seq := seq % 65536
      if fragment then count 0 1 1 d
      else if c.essence = 0 then storePacket k pathB (unle (slice payload 0 2).reverse * 65536 + seq) stamp payload d
      else if !f.seqKnown then storePacket k pathB seq stamp payload d
      else
        let e : Int := ((seq : Int) - f.extSeq + 32768) % 65536 - 32768
        if e.natAbs ≤ 3000 then storePacket k pathB ((f.extSeq + e) % 2 ^ 32).toNat stamp payload d
        else match f.held with
          | some (hs, ht, hp) =>
            if (hs + 1) % 65536 = seq then
              let o := flowObj k
              let d := d.onFlow k fun f => { f with seqKnown := false, seen := [], held := none, closedSeq := none }
              let d := raise 0x0C83 1 o (le 2 o ++ le 4 f.extSeq ++ le 4 seq) d (td := c.domain)
              storePacket k pathB (if seq = 0 then 65536 else seq) stamp payload (storePacket k pathB hs ht hp d)
            else if hs = seq then d
            else d.onFlow k fun f => { f with held := some (seq, stamp, payload) }
          | none => d.onFlow k fun f => { f with held := some (seq, stamp, payload) }
def execRtpPacketReceive (time : Nat) (flow : Fin 64) (pathB : Bool) (seq stamp : Nat) (payload : List Byte) (fragment : Bool) (s : State) :
    Host.Outcome State Fault Refusal := after time (rtpReceive (64 + flow.val) pathB seq stamp payload fragment) s

/-! ### Closing -/

/-- The SRDs of an ST 2110-20 payload, after its extended sequence number: how many headers stand, and each row, offset and length. -/
def srdHeads : Nat → List Byte → List (Nat × Nat × Nat)
  | 0, _ => []
  | fuel + 1, b =>
    let at1 := fun o => unle (slice b o 2).reverse
    let h := (at1 2 % 32768, at1 4 % 32768, at1 0)
    if b.length < 6 then [] else if at1 4 ≥ 32768 then h :: srdHeads fuel (b.drop 6) else [h]

/-- The runs of a packet: row, first pixel and bytes. -/
def srdRuns (payload : List Byte) : List (Nat × Nat × List Byte) :=
  let b := payload.drop 2
  let heads := srdHeads 64 b
  (heads.foldl (fun (acc : List (Nat × Nat × List Byte) × Nat) h => (acc.1 ++ [(h.1, h.2.1, slice b acc.2 h.2.2)], acc.2 + h.2.2)) ([], 6 * heads.length)).1

/-- The sample `i` of a pgroup of `n` bytes. -/
def groupField (width : Nat) (b : List Byte) (i : Nat) : Nat := unle b.reverse / 2 ^ (8 * b.length - width * (i + 1)) % 2 ^ width

/-- What a pgroup writes into a slot: (offset, bytes). -/
def groupWritesAt (format w h row x : Nat) (b : List Byte) : List (Nat × List Byte) :=
  let v := fun i => le 2 (groupField (formatDepth format) b i)
  let at1 := fun (p o : Nat) => formatOffset format w h p + row * formatStride format w + o
  if row ≥ h then []
  else if format / 16 = 3 then (if x + 1 ≥ w then [] else [(at1 0 (2 * x), v 1 ++ v 3), (at1 1 (2 * x), v 0 ++ v 2)])
  else (List.range (pgroup format).2).flatMap fun i => if x + i ≥ w then [] else [(at1 0 (6 * (x + i)), v (3 * i) ++ v (3 * i + 1) ++ v (3 * i + 2))]

/-- The pgroups of a packet, whole ones only: row, first pixel and bytes. -/
def packetGroupsOf (format : Nat) (payload : List Byte) : List (Nat × Nat × List Byte) :=
  let (bytes, px) := pgroup format
  (srdRuns payload).flatMap fun e => (List.range (e.2.2.length / bytes)).map fun i => (e.1, e.2.1 + i * px, slice e.2.2 (i * bytes) bytes)

/-- A black picture in a slot's layout, from its first plane on. -/
def blackPicture (format w h : Nat) : List Byte :=
  let k := flowBlack format
  let st := formatStride format w
  (List.range (formatPlanes format)).flatMap fun p =>
    let rows := formatRows format h p
    let one := if format / 16 = 3 then le 2 (if p = 0 then k.1 else k.2.1) else List.replicate 6 0
    let row := ((List.replicate w one).flatten ++ List.replicate st 0).take st
    (List.replicate rows row).flatten ++ List.replicate (roundUp (st * rows) 4096 - st * rows) 0

/-- An ST 2110-20 frame is completed in the receiver's ring (R371). -/
def closeVideo (k : Nat) (r : RecvFrame) (d : Dev) : Dev :=
  match d.flow? k with
  | none => d
  | some f =>
    let c := f.config
    let o := flowObj k
    let fmt := c.videoFormat
    let size := formatSlot fmt c.width c.height
    let before := f.ring.skippedBefore
    let old := f.ring.lastSlot
    match takeSlot o c.pail c.pcpOrDepth size d with
    | (none, d) => d.onFlow k fun f => { f with ring := { f.ring with skippedBefore := min (2 ^ 32 - 1) (f.ring.skippedBefore + 1) } }
    | (some slot, d) =>
      let base := slot * size
      let ground := match old with
        | some x => pailRead d c.pail (x * size + 0x1000) (size - 0x1000)
        | none => blackPicture fmt c.width c.height
      let d := pailWrite c.pail (base + 0x1000) ground d
      let groups := r.packets.flatMap fun e => packetGroupsOf fmt e.2.2
      let d := groups.foldl (fun d g => (groupWritesAt fmt c.width c.height g.1 g.2.1 g.2.2).foldl (fun d e => pailWrite c.pail (base + e.1) e.2 d) d) d
      let px := (pgroup fmt).2
      let got := ((groups.map fun g => (g.1, g.2.1 / px)).filter fun g => g.1 < c.height && g.2 < ceilDiv c.width px).dedup.length
      let concealed : Bool := got < c.height * ceilDiv c.width px
      let t := fullTime r.instant
      let rec0 : SlotRecord :=
        { frame := f.frames, format := fmt, flags := 8 * boolNat concealed + 16 * boolNat (before ≠ 0) + 32, domain := c.domain, sofSeconds := t.seconds
          sofNs := t.ns, doneStamp := shortStamp (domainNow d c.domain), rowsComplete := c.height, skippedBefore := before, width := c.width, height := c.height }
      completeSlot o slot f.frames 0 (writeRecord c.pail slot rec0 d)

/-- The numbers of a closed frame's packets: those after the last closed number up to its own highest. -/
def closedNumbers (f : Flow) (r : RecvFrame) : List Nat :=
  let top := maxOf (fun e => e.1) r.packets
  let low := match f.closedSeq with
    | some x => if x < top && top - x ≤ 65536 then x + 1 else (r.packets.head?.map (·.1)).getD top
    | none => (r.packets.head?.map (·.1)).getD top
  if r.packets.isEmpty then [] else (List.range (top + 1 - low)).map (low + ·)

/-- An ST 2110-22 codestream is submitted to its decoder, zeros for what is missing (R371). -/
def closeXs (f : Flow) (r : RecvFrame) (d : Dev) : Dev :=
  if objType f.bindObject ≠ 0x6 then d
  else
    let size := maxOf (fun e => e.2.2.length - 4) r.packets
    let data := (closedNumbers f r).flatMap fun n => match mapGet r.packets n with
      | some e => e.2.drop 4
      | none => List.replicate size 0
    let t := closeTime f.config r.instant
    submitUnit (objIndex f.bindObject) { bytes := data.length, ptsSeconds := t / 1000000000, ptsNs := t % 1000000000, data } d

/-- A sample on the wire as the port holds it. -/
def wireSample (c : FlowConfig) (b : List Byte) (i ch : Nat) : Int :=
  let n := sampleBytes c
  sfieldAt (slice b ((i * c.channels + ch) * n) n).reverse 0 n * 2 ^ (32 - 8 * n)

/-- A packet time of an ST 2110-30 flow goes to the entries of its port, zeros where it is missing (R371, R389). -/
def closeAudio (f : Flow) (first : Nat) (b : List Byte) (d : Dev) : Dev :=
  if objType f.bindObject ≠ 0x7 then d
  else
    let c := f.config
    (List.range (packetSamples c)).foldl (fun d i =>
      let x := (List.range 16).map fun ch => if ch < c.channels && (i * c.channels + ch + 1) * sampleBytes c ≤ b.length then wireSample c b i ch else 0
      storeEntry (objIndex f.bindObject) (first + i) x d) d

/-- An ancillary frame goes to the receiver's ring in the layout of R368. -/
def closeAnc (k : Nat) (f : Flow) (r : RecvFrame) (d : Dev) : Dev :=
  let c := f.config
  let o := flowObj k
  let bodies := r.packets.map fun e => e.2.2
  let n := sumOf (fun (b : List Byte) => (b.getD 4 0).toNat) bodies
  let field := slice (bodies.headD []) 5 3
  let payload := byte (n % 256) :: (field ++ bodies.flatMap fun b => b.drop 8)
  match takeSlot o c.pail c.pcpOrDepth 4096 d with
  | (none, d) => d
  | (some slot, d) =>
    let d := pailWrite c.pail (slot * 4096 + 8) ((le 2 n ++ le 6 0 ++ payload ++ List.replicate 4080 0).take 4088) d
    completeSlot o slot f.frames 0 (pailWrite c.pail (slot * 4096) (le 8 f.frames) d)

/-- Losses at a close are counted, and told at most once a second (R371, Table 15.6). -/
def countLosses (k : Nat) (r : RecvFrame) (d : Dev) : Dev :=
  match d.flow? k with
  | none => d
  | some f =>
    let o := flowObj k
    let all := closedNumbers f r
    let on := fun (m n : Nat) => match mapGet r.packets n with
      | some e => bit e.1 m
      | none => false
    let lost := all.countP fun n => (mapGet r.packets n).isNone
    let d := count o 3 lost (count o 6 (all.countP fun n => !on 0 n) d)
    let d := if f.config.dual then count o 7 (all.countP fun n => !on 1 n) d else d
    let d := d.onFlow k fun f => { f with lossSince := f.lossSince + lost, closedSeq := all.getLast?.orElse fun _ => f.closedSeq }
    let quiet : Bool := match f.lossEvent with
      | some t => d.now < t + 1000000000
      | none => false
    if lost = 0 || quiet then d
    else raise 0x0C82 2 o (le 2 o ++ le 4 (f.lossSince + lost) ++ le 4 f.lateSince)
      (d.onFlow k fun f => { f with lossSince := 0, lateSince := 0, lossEvent := some d.now }) (td := f.config.domain)

/-- The oldest frame or packet time that a receiver fills. -/
def oldestFrame (f : Flow) : Option RecvFrame :=
  f.receiving.foldl (fun best r => match best with
    | some (y : RecvFrame) => if r.stamp < y.stamp then some r else some y
    | none => some r) none

/-- FLOW_CLOSE (R371): the oldest frame whose time has come is completed; an audio packet time with no packet at all gives zeros. -/
def flowClose (k : Nat) (d : Dev) : Dev :=
  match d.flow? k with
  | none => d
  | some f =>
    let c := f.config
    let now := domainNow d c.domain
    let spp := packetSamples c
    let after' := fun (d : Dev) => match d.flow? k with
      | some f => if f.stopping && f.receiving.isEmpty then haltFlow k d else d
      | none => d
    let silent := match f.lastClosed with
      | some n => if c.essence = 2 && closeTime c (ceilDiv (n * 1000000000) (flowClock c)) ≤ now && (match oldestFrame f with
          | some r => n + spp ≤ r.stamp
          | none => true) then some n else none
      | none => none
    if !f.running then d
    else match silent with
      | some n => after' (closeAudio f n [] (d.onFlow k fun f => { f with lastClosed := some (n + spp) }))
      | none => match oldestFrame f with
        | none => after' d
        | some r =>
          if closeTime c r.instant > now then d
          else
            let d := d.onFlow k fun f => { f with frames := f.frames + 1, receiving := f.receiving.filter fun x => x.stamp ≠ r.stamp, lastClosed := some (r.stamp + spp) }
            let g := (d.flow? k).getD {}
            let d := match c.essence with
              | 0 => closeVideo k r d
              | 1 => closeXs g r d
              | 2 => closeAudio g r.stamp ((r.packets.head?.map (·.2.2)).getD []) d
              | _ => closeAnc k g r d
            after' (countLosses k r d)
def execFlowClose (time : Nat) (flow : Fin 64) (s : State) : Host.Outcome State Fault Refusal := after time (flowClose (64 + flow.val)) s

/-- FLOW_PATH_LOST (R371). -/
def flowPathLost (k : Nat) (pathB : Bool) (d : Dev) : Dev :=
  match d.flow? k with
  | none => d
  | some f =>
    let last := (if pathB then f.lastPathB else f.lastPathA).getD f.startedAt
    let was := if pathB then f.lostB else f.lostA
    if !f.running || was || (pathB && !f.config.dual) || d.now < last + 100000000 then d
    else pathEvent k pathB false (d.onFlow k fun f => if pathB then { f with lostB := true } else { f with lostA := true })
def execFlowPathLost (time : Nat) (flow : Fin 64) (pathB : Bool) (s : State) : Host.Outcome State Fault Refusal :=
  after time (flowPathLost (64 + flow.val) pathB) s

/-- A receiver's packet write faults: the packet is discarded, and found missing when its frame closes (Table 18.6). -/
def receiverFault (k : Nat) (d : Dev) : Dev :=
  match d.flow? k with
  | none => d
  | some f => match f.seen.head? with
    | none => d
    | some n => d.onFlow k fun f => { f with receiving := f.receiving.map fun r => { r with packets := mapDel r.packets n } }

/-! ## Ports -/

/-- ETHERNET_LINK_CHANGE (R372). A media MAC that is configured down stays down. -/
def linkChange (port : Nat) (up : Bool) (speed : Nat) (d : Dev) : Dev :=
  let p := tabGet d.net.ports port
  let on : Bool := up && p.speed ≠ 0
  if p.link = on then d else linkState port on (speed % 256) (d.onNet fun n => { n with ports := tabMod n.ports port fun p => { p with link := on } })
def execEthernetLinkChange (time : Nat) (port : Fin 5) (up : Bool) (speed : Nat) (s : State) : Host.Outcome State Fault Refusal :=
  after time (linkChange port.val up speed) s

/-- The groups that the running receivers of a port have joined, with the source where SSM names one (R369). -/
def joinedGroups (d : Dev) (port : Nat) (v6 : Bool) : List (Nat × Nat) :=
  (d.net.flows.flatMap fun e =>
    if e.1 ≥ 64 && e.2.running && e.2.config.ipv6 = v6 then
      let from_ := if e.2.config.ssm then e.2.config.sourceFilter else 0
      (if e.2.config.macA = port then [(e.2.config.addrA, from_)] else [])
        ++ (if e.2.config.dual && e.2.config.macB = port then [(e.2.config.addrB, from_)] else [])
    else []).dedup

/-- What a port answers to a message (Table 15.1): a message for another address gets no answer. -/
def portAnswer (d : Dev) (port : Nat) (m : NeighbourIn) : Option PortAnswer :=
  let p := tabGet d.net.ports port
  let mac := (d.boot.macBase + port) % 2 ^ 48
  let mine := fun (x : Nat) => (p.ipv4Prefix ≠ 0 && x = p.ipv4) || x = portIpv6 d port
  let wanted := fun (group : Nat) (v6 : Bool) =>
    let l := (joinedGroups d port v6).filter fun g => group = 0 || g.1 = group
    if l.isEmpty then none else some (PortAnswer.groups l)
  if !p.link then none
  else match m with
    | .arp target sender => if p.ipv4Prefix ≠ 0 && target = p.ipv4 then some (.arp mac sender) else none
    | .ndp target sender => if target = portIpv6 d port then some (.ndp mac sender) else none
    | .icmpEcho target sender data => if mine target then some (.echo sender data) else none
    | .igmpQuery group => wanted group false
    | .mldQuery group => wanted group true

/-- ARP_NDP_ICMP_RECEIVE (R358). -/
def neighbour (port : Nat) (m : NeighbourIn) (d : Dev) : Dev :=
  match portAnswer d port m with
  | some a => d.onNet fun n => { n with ports := tabMod n.ports port fun p => { p with answer := some a } }
  | none => d
def execArpNdpIcmpReceive (time : Nat) (port : Fin 5) (message : NeighbourIn) (s : State) : Host.Outcome State Fault Refusal :=
  after time (neighbour port.val message) s

end Sys2Proof.Machine
end

