-- ==== Sys2Proof/Machine/EngineEv.lean ====
section
/-! DEFINITION. Faults of engine accesses (R431, R432, Table 18.6): what becomes of the unit of work of each engine. -/

namespace Sys2Proof.Machine

/-- What PAIL_FAULT tells of a fault (Table 18.10): the engine or, where it has no object ID, what it works for; the outcome; and
the class. -/
structure FaultNote where
  engine : Nat := 0
  outcome : Nat := 0
  cls : Nat := 0
  deriving Inhabited

/-- The cause of a concealment: a translation or host fault, poison, or a retry that failed (R178, Table 7.7). -/
def concealCause (kind : AccessFault) (retried : Bool) : Nat := if retried then 2 else if kind = .poison then 1 else 0

/-- What happens to the job of an aborted unit: class L and retried ones are concealed. -/
def gaveUp (cls : Nat) (retry : Bool) : Bool := cls = 0 || retry

/-! ## Drills, harrows and tines -/

/-- A drill's job faults (R178, R432). -/
def drillFault (i : Nat) (kind : AccessFault) (d : Dev) : Dev :=
  match (tabGet d.fabric.drills i).job with
  | some j => abortJob (concealCause kind j.retry) j (d.onFabric fun f => { f with drills := tabMod f.drills i fun x => { x with job := none } })
  | none => d

/-- A harrow's band faults (R195). -/
def harrowFault (i : Nat) (kind : AccessFault) (d : Dev) : Dev :=
  match d.fabric.harrows.getD i none with
  | some j =>
    let d := d.onFabric fun f => { f with harrows := f.harrows.set i none }
    if gaveUp j.cls j.retry then
      dispatchHarrows (finishWork j.stream j.frame (noteMiss j.stream j.frame j.cls j.deadline (concealBand j (concealCause kind (j.cls ≠ 0)) d)))
    else queueBand { j with retry := true } d
  | none => d

/-- What a segment that is not coded again holds: floor quality (R265, R285), whose bytes are open. -/
def floorResult (codec : Nat) (f : EncFrame) (j : TineJob) (d : Dev) : TineResult × Dev :=
  let (k, d) := takeFree d
  let (coded, d) := openBytes (Config.freeNat k 0 % (f.floor codec j.swath / f.segments codec + 1)) d
  ({ coded }, d)

/-- What a decode job that is not run again holds: its whole area is lost (R306). Should it be the unit's first job, the picture's order
count is open. -/
def lostJob (d : Dev) : TineResult × Dev :=
  let (k, d) := takeFree d
  ({ error := some 0, poc := (Config.freeNat k 0 : Int) }, d)

/-- A tine's job faults (R265, R285, R306). -/
def tineFault (t : Nat) (d : Dev) : Dev :=
  match d.codecs.tines.getD t none with
  | some j =>
    let d := d.onCodecs fun c => { c with tines := c.tines.set t none }
    if !gaveUp j.cls j.retry then queueTine { j with retry := true } d
    else if objType j.session = 0x5 then
      match (mapGet d.codecs.encoders (objIndex j.session)).bind fun e => (e.frames.find? fun f => f.number = j.frame).map fun f => (e.codec, f) with
      | some (codec, f) =>
        let (r, d) := floorResult codec f j d
        dispatchTines (encodeDone j r true d)
      | none => dispatchTines (settleClosing (objIndex j.session) (settleLeaving (objIndex j.session) j.frame d))
    else
      let (r, d) := lostJob d
      dispatchTines (decodeDone j r d)
  | none => d

/-! ## Other engines -/

/-- The frame that a furrow writes is dropped; the next delivered one counts it (R431). -/
def furrowFault (i : Nat) (d : Dev) : Dev :=
  let f := d.furrow i
  match f.config, f.current.orElse fun _ => f.ending.head? with
  | some c, some fr =>
    let n := c.stream
    let d := match fr.fillAt, fr.source with
      | some _, some k => dropSlot (0x2000 + n) k (0x1000 + i) d
      | _, _ => d
    let d := d.onFurrow i fun f =>
      { f with dropped := f.dropped + fr.dropped + 1, firstNext := f.firstNext || fr.first
               current := f.current.filter fun x => x.number ≠ fr.number, ending := f.ending.filter fun x => x.number ≠ fr.number }
    let d := match workOf d n fr.number with
      | some w => d.onStream n fun s =>
        { s with bank := if s.bank = w.bank then 1 - w.bank else s.bank, denoised := s.denoised.filter fun x => x.frame ≠ fr.number
                 proxies := s.proxies.filter fun x => x.frame ≠ fr.number, fields := s.fields.filter fun x => x.frame ≠ fr.number }
      | none => d
    settleStop i c fr.number (withdrawFrame n fr.number d)
  | _, _ => d

/-- The flow whose packet faults: a sender acts as for a missing source, unless only poison was read (R367, R499). -/
def sendFault (k : Nat) (kind : AccessFault) (d : Dev) : Dev := if kind = .poison then d else senderFault k d

/-- A 4 KiB block of a source that the magazine reads faults: it is read again, and after a second fault written as zeros
(R468). -/
def magazineFault (reel handle off : Nat) (d : Dev) : Dev :=
  d.onRecording reel fun r =>
    let e := (handle, off / 4096 * 4096)
    if e ∈ r.faultAt then { r with zeroAt := e :: r.zeroAt } else { r with faultAt := e :: r.faultAt }

/-- A raster's line fetch faults (R329, R499): poison is concealed where it is drawn. -/
def rasterFault (i line plane : Nat) (kind : AccessFault) (d : Dev) : Dev := if kind = .poison then d else lineLate i line plane 1 d

/-! ## Notes -/

/-- The engine has a unit of work, and what PAIL_FAULT tells of it. -/
def faultNote (e : EngineRef) (kind : AccessFault) (off handle : Nat) (d : Dev) : Option FaultNote := match e with
  | .drill i => ((tabGet d.fabric.drills i).job).map fun j => { engine := 0xD000 + i.val, outcome := boolNat (!gaveUp j.cls j.retry), cls := j.cls }
  | .harrow h => (d.fabric.harrows.getD h none).map fun j => { engine := 0x2000 + j.stream, outcome := boolNat (!gaveUp j.cls j.retry), cls := j.cls }
  | .tine t => (d.codecs.tines.getD t none).map fun j => { engine := j.session, outcome := boolNat (!gaveUp j.cls j.retry), cls := j.cls }
  | .raster r _ _ => if (d.raster r).running then some { engine := 0x4000 + r.val, outcome := if kind = .poison then 0 else 2 } else none
  | .furrow f => if (d.furrow f).current.isSome || !(d.furrow f).ending.isEmpty then some { engine := 0x1000 + f.val, outcome := 3 } else none
  | .sender f => ((d.flow? f.val).bind fun x => x.sending).map fun _ => { engine := flowObj f.val, outcome := if kind = .poison then 0 else 2 }
  | .receiver f => (d.flow? (64 + f.val)).bind fun x => if x.receiving.isEmpty then none else some { engine := flowObj (64 + f.val), outcome := 3 }
  | .audio p isWrite => if (d.port p).on then some { engine := portObj p.val, outcome := if isWrite then 3 else 2 } else none
  | .channel _ => none
  | .magazine reel => (recordingOf d reel).map fun r =>
      { engine := 0xB000 + reel, outcome := if (handle, off / 4096 * 4096) ∈ r.faultAt then 0 else 1, cls := 1 }

/-- The unit of work is handled by Table 18.6. -/
def handleFault (e : EngineRef) (kind : AccessFault) (off handle : Nat) (d : Dev) : Dev := match e with
  | .drill i => drillFault i.val kind d
  | .harrow h => harrowFault h.val kind d
  | .tine t => tineFault t.val d
  | .raster r line plane => rasterFault r.val line plane.val kind d
  | .furrow f => furrowFault f.val d
  | .sender f => sendFault f.val kind d
  | .receiver f => receiverFault (64 + f.val) d
  | .audio p isWrite => if isWrite then count (pailKey (handle % 2 ^ 24)) 0 1 d else restartStep p.val (some 0) d
  | .channel c => if (d.channel c).busy then assignMovers (finishBurst c.val (some kind) d) else d
  | .magazine reel => magazineFault reel handle off d

/-- An engine's access faults (R431): PAIL_FAULT is raised, and the unit of work recovers. A DMA channel raises its own. -/
def engineFault (e : EngineRef) (kind : AccessFault) (dva handle : Nat) (d : Dev) : Dev :=
  let off := dva - (match mappedPail d handle with
    | some (_, p) => p.dva
    | none => 0)
  match faultNote e kind off handle d with
  | some n => handleFault e kind off handle (pailFault n.engine (faultKind kind) n.outcome dva handle n.cls d)
  | none => match e with
    | .channel _ => handleFault e kind off handle d
    | _ => d

/-- ENGINE_ACCESS_FAULT. -/
def execEngineAccessFault (time : Nat) (engine : EngineRef) (kind : AccessFault) (dva handle : Nat) (s : State) :
    Host.Outcome State Fault Refusal := after time (engineFault engine kind dva handle) s

end Sys2Proof.Machine
end

