-- ==== Sys2Proof/Machine/MagEv.lean ====
section
/-! DEFINITION. The events of the magazine that can end a wait of the controller: a request that starts a recording goes on once the host
writes before it are durable, or lost (R486). -/

namespace Sys2Proof.Machine

/-- A request that waits for host writes goes on once none of them is staged any more, and intake with it. -/
def endStartWait (d : Dev) : Dev := match d.mag.startWait with
  | none => d
  | some (q, replay, orders) =>
    if d.nvme.staged.any fun w => w.order ∈ orders then d
    else drainAll (executeNow q replay (d.onMag fun m => { m with startWait := none }))

/-- NAND_OPERATION_COMPLETE (R459, R463). -/
def execNandOperationComplete (time : Nat) (op : NandOp) (s : State) : Host.Outcome State Fault Refusal :=
  after time (fun d => endStartWait (nandDone op d)) s

/-- JOURNAL_PAGE_PROGRAM (R459). -/
def execJournalPageProgram (time : Nat) (s : State) : Host.Outcome State Fault Refusal :=
  after time (fun d => if magUsable d then endStartWait (settleHost (journalPage d)) else d) s

/-- MAGAZINE_REMOVAL (R470). -/
def execMagazineRemoval (time : Nat) (s : State) : Host.Outcome State Fault Refusal := after time (fun d => endStartWait (removeMagazine d)) s

/-- UNCORRECTABLE_ERROR (R405, R407, R504, R513). -/
def execUncorrectableError (time line requester cause : Nat) (s : State) : Host.Outcome State Fault Refusal :=
  after time (fun d => endStartWait (uncorrectable line requester cause d)) s

end Sys2Proof.Machine
end

