-- ==== Sys2Proof/Machine/SensorEv.lean ====
section
/-! DEFINITION. The sensor control buses: lockstep writes in their windows, confirmations, retries, restores and reads (R103 to
R106, R143 to R145). -/

namespace Sys2Proof.Machine

/-- The first commit with a group's writes of a furrow that meet a test. -/
def commitWith (d : Dev) (i g : Nat) (p : Commit → GroupWrite → Bool) : Option (Commit × GroupWrite) :=
  d.ctl.commits.findSome? fun c => (c.groups.find? fun x => x.furrow = i && x.group = g && p c x).map fun x => (c, x)

/-- Changes a group's writes of a commit. -/
def onGroup (txn i g : Nat) (f : GroupWrite → GroupWrite) (d : Dev) : Dev :=
  onCommit txn (fun c => { c with groups := c.groups.map fun x => if x.furrow = i && x.group = g then f x else x }) d

/-- The writes of a group can still start (R103): no later than the close minus the slack. Outside a window there is no limit. -/
def startsInTime (d : Dev) (x : GroupWrite) : Bool := match timedStream d x.furrow, latestStart d x with
  | some n, some t => ((timelineNow d (.stream n) : Nat) : Rat) ≤ t
  | _, _ => true

/-- The place in the staged set of a group's next write. -/
def GroupWrite.turn (x : GroupWrite) : Nat := x.order.getD x.confirmed 0

/-- On a stopped furrow writes are made in staging order (R145): nothing of an earlier commit or staged earlier is still to be written. -/
def inOrder (d : Dev) (c : Commit) (x : GroupWrite) : Bool :=
  let open' := fun (y : GroupWrite) => y.furrow = x.furrow && y.confirmed < y.writes.length
  x.closeFrame.isSome
    || ((d.ctl.commits.takeWhile fun y => y.txn ≠ c.txn).all fun y => y.groups.all fun z => !open' z)
      && c.groups.all fun z => !open' z || x.turn ≤ z.turn

/-- The controller starts a group's writes. -/
def startGroup (i g : Nat) (d : Dev) : Dev :=
  match commitWith d i g fun _ x => !x.started && x.confirmed < x.writes.length with
  | none => d
  | some (c, x) =>
    if windowOpen d c x && startsInTime d x && inOrder d c x then driveBus i (onGroup c.txn i g d.beginWrites d) else d

/-- A group's lockstep writes start. -/
def execSensorGroupWriteStart (time : Nat) (furrow : Fin 16) (group : Nat) (s : State) : Host.Outcome State Fault Refusal :=
  after time (startGroup furrow.val group) s

/-- The reason of a failed transfer (R105). -/
def busReason : BusResult → Nat
  | .timeout => 2
  | _ => 1

/-- A transfer confirms a write: ACK, and with VERIFY a matching read-back (R104). -/
def transferOk (d : Dev) (i g : Nat) (result : BusResult) (data want : List Byte) : Bool :=
  result = .ack && (match groupDesc d i g with
    | some x => !x.verify || data = want
    | none => true)

/-- A confirmed value enters the cache (R144). -/
def cacheReg (i reg : Nat) (v : List Byte) (d : Dev) : Dev := d.onFurrow i fun f => { f with cache := mapSet f.cache reg v }

/-- Changes the streams that a furrow feeds. -/
def onFed (i : Nat) (f : Stream → Stream) (d : Dev) : Dev := match furrowConfigOf d i with
  | some c => d.onStream c.stream f
  | none => d

/-- The last frame that a group's old value can reach when its restore is in place now (R106). -/
def suspectEnd (d : Dev) (i g : Nat) : Nat :=
  match timedStream d i, groupDesc d i g with
  | some n, some x =>
    let s := d.stream n
    let f := if windowClose d n x s.frame > (timelineNow d (.stream n) : Int) then s.frame else s.frame + 1
    f + x.delay - 1
  | _, _ => match furrowConfigOf d i with
    | some c => (d.stream c.stream).frame
    | none => 0

/-- A restore's first write ended (R105 step 2, R106). -/
def restoreStep (i g : Nat) (r : Restore) (result : BusResult) (data : List Byte) (d : Dev) : Dev :=
  let replace := fun (x : Option Restore) (d : Dev) => d.onCtl fun c => { c with restores := match x with
    | some y => c.restores.map fun z => if z = r then y else z
    | none => c.restores.erase r }
  match r.writes with
  | [] => replace none d
  | (reg, v) :: rest =>
    let last := fun (d : Dev) =>
      if rest.isEmpty then
        let d := replace none d
        let d := onFed i (fun s => { s with suspectMax := max (suspectEnd d i g) s.suspectMax }) d
        if d.ctl.restores.any fun x => x.furrow = i then d
        else onFed i (fun s => { s with suspectTo := some s.suspectMax }) d
      else replace (some { r with writes := rest, retries := 0 }) d
    if transferOk d i g result data v then last (cacheReg i reg v d)
    else if r.retries < 2 then replace (some { r with retries := r.retries + 1 }) d
    else
      let d := onFed i (fun s => { s with suspectGroups := (g :: s.suspectGroups).dedup }) d
      last (raise 0x0182 3 (0x1000 + i) (le 2 (0x1000 + i) ++ le 1 g ++ le 1 (busReason result)) d)

/-- A lockstep write ended: confirmed, retried twice, or failed (R104, R105). -/
def writeStep (i g : Nat) (c : Commit) (x : GroupWrite) (result : BusResult) (data : List Byte) (d : Dev) : Dev :=
  match x.writes[x.confirmed]? with
  | none => d
  | some (reg, v) =>
    if transferOk d i g result data v then
      let d := onFed i (fun s => { s with suspectGroups := s.suspectGroups.filter (· ≠ g) }) (cacheReg i reg v d)
      let d := onGroup c.txn i g (fun x => { x with confirmed := x.confirmed + 1, retries := 0 }) d
      settleCommit c.txn (applyUntimed c.txn d)
    else if x.retries < 2 then onGroup c.txn i g (fun x => { x with retries := x.retries + 1 }) d
    else failCommit c.txn (busReason result * 256 + g) d

/-- A register read ended: its value is the reply, and enters the cache (R144). -/
def readStep (i : Nat) (x : SensorRead) (result : BusResult) (data : List Byte) (d : Dev) : Dev :=
  let v := (data ++ List.replicate x.length 0).take x.length
  let d := d.onFurrow i fun f => { f with reading := none }
  let d := if result = .ack then cacheReg i x.reg v d else d
  let r : Rsp := if result = .ack then .ok v else { status := 0x0306, detail := busReason result * 256 }
  if x.waits then (if sessionOpen d x.request.pkt.session then drainAll (finish x.request false r d) else d)
  else completeCmd { session := x.request.pkt.session, seq := x.request.pkt.seq, op := x.request.op } r d

/-- A register read whose reply bound has passed while it waited for the bus answers PENDING (R62). -/
def lateRead (i : Nat) (d : Dev) : Dev := match (d.furrow i).reading with
  | some x =>
    if x.waits && d.now > x.request.pkt.time + 2000000 then
      let d := d.onFurrow i fun f => { f with reading := some { x with waits := false } }
      if sessionOpen d x.request.pkt.session then drainAll (finish x.request false .pending d) else d
    else d
  | none => d

/-- A bus transfer ends: a read that had begun, or a restore, or a lockstep write (R143). What waited may then begin. -/
def transferDone (i g : Nat) (result : BusResult) (data : List Byte) (d0 : Dev) : Dev :=
  let d := lateRead i d0
  match (d.furrow i).reading.filter (·.begun) with
  | some x => readStep i x result data d
  | none => beginRead i (match d.ctl.restores.find? fun r => r.furrow = i && r.group = g with
    | some r => restoreStep i g r result data d
    | none => match commitWith d i g fun c x => x.started && x.confirmed < x.writes.length && inOrder d c x with
      | some (c, x) => writeStep i g c x result data d
      | none => d)

/-- A sensor bus transfer ends. -/
def execSensorBusTransferDone (time : Nat) (furrow : Fin 16) (group : Nat) (result : BusResult) (data : List Byte) (s : State) :
    Host.Outcome State Fault Refusal :=
  after time (transferDone furrow.val group result data) s

/-- A group's window closes with a write unconfirmed: the commit fails with reason 3 (R105). -/
def closeWindow (i g : Nat) (d : Dev) : Dev :=
  match commitWith d i g fun _ x => x.confirmed < x.writes.length && x.closeFrame.isSome with
  | none => d
  | some (c, x) => match timedStream d i, groupDesc d i g, x.closeFrame with
    | some n, some y, some f =>
      if windowClose d n y f ≤ (timelineNow d (.stream n) : Int) || (d.stream n).frame > f then failCommit c.txn (3 * 256 + g) d else d
    | _, _, _ => d

/-- A write window closes. -/
def execSensorWriteWindowClose (time : Nat) (furrow : Fin 16) (group : Nat) (s : State) : Host.Outcome State Fault Refusal :=
  after time (closeWindow furrow.val group) s

end Sys2Proof.Machine
end

