-- ==== Sys2Proof/Machine/Dispatch.lean ====
section
/-! DEFINITION. The dispatcher: one arm per command. -/

namespace Sys2Proof.Machine

/-- The effect of a command on everything but the queue. -/
def exec (i : Instr) (s : State) : Host.Outcome State Fault Refusal :=
  match i with
  | .openSession p => Sys2Proof.Machine.execOpenSession p s
  | .closeSession p => Sys2Proof.Machine.execCloseSession p s
  | .keepalive p => Sys2Proof.Machine.execKeepalive p s
  | .objClaim p => Sys2Proof.Machine.execObjClaim p s
  | .objRelease p => Sys2Proof.Machine.execObjRelease p s
  | .objQueryOwner p => Sys2Proof.Machine.execObjQueryOwner p s
  | .sessionList p => Sys2Proof.Machine.execSessionList p s
  | .queryDevice p => Sys2Proof.Machine.execQueryDevice p s
  | .txnBegin p => Sys2Proof.Machine.execTxnBegin p s
  | .txnCommit p => Sys2Proof.Machine.execTxnCommit p s
  | .txnAbort p => Sys2Proof.Machine.execTxnAbort p s
  | .txnStatus p => Sys2Proof.Machine.execTxnStatus p s
  | .txnEpochQuery p => Sys2Proof.Machine.execTxnEpochQuery p s
  | .streamQuery p => Sys2Proof.Machine.execStreamQuery p s
  | .streamAdmit p => Sys2Proof.Machine.execStreamAdmit p s
  | .streamRelease p => Sys2Proof.Machine.execStreamRelease p s
  | .admitQuery p => Sys2Proof.Machine.execAdmitQuery p s
  | .paceQuery p => Sys2Proof.Machine.execPaceQuery p s
  | .furrowConfig p => Sys2Proof.Machine.execFurrowConfig p s
  | .furrowLaneMap p => Sys2Proof.Machine.execFurrowLaneMap p s
  | .furrowSyncCodes p => Sys2Proof.Machine.execFurrowSyncCodes p s
  | .furrowTrain p => Sys2Proof.Machine.execFurrowTrain p s
  | .furrowGang p => Sys2Proof.Machine.execFurrowGang p s
  | .furrowStatus p => Sys2Proof.Machine.execFurrowStatus p s
  | .sensorProfileLoad p => Sys2Proof.Machine.execSensorProfileLoad p s
  | .sensorRegWrite p => Sys2Proof.Machine.execSensorRegWrite p s
  | .sensorRegRead p => Sys2Proof.Machine.execSensorRegRead p s
  | .sensorMclkSet p => Sys2Proof.Machine.execSensorMclkSet p s
  | .syncPinSet p => Sys2Proof.Machine.execSyncPinSet p s
  | .furrowStart p => Sys2Proof.Machine.execFurrowStart p s
  | .furrowStop p => Sys2Proof.Machine.execFurrowStop p s
  | .rawBlackSet p => Sys2Proof.Machine.execRawBlackSet p s
  | .rawDefectLoad p => Sys2Proof.Machine.execRawDefectLoad p s
  | .rawFpnLoad p => Sys2Proof.Machine.execRawFpnLoad p s
  | .rawNoiseModelSet p => Sys2Proof.Machine.execRawNoiseModelSet p s
  | .rawSnrSet p => Sys2Proof.Machine.execRawSnrSet p s
  | .rawTnrSet p => Sys2Proof.Machine.execRawTnrSet p s
  | .rawDualGainSet p => Sys2Proof.Machine.execRawDualGainSet p s
  | .rawShadingLoad p => Sys2Proof.Machine.execRawShadingLoad p s
  | .rawWbSet p => Sys2Proof.Machine.execRawWbSet p s
  | .rawQuery p => Sys2Proof.Machine.execRawQuery p s
  | .demosaicSet p => Sys2Proof.Machine.execDemosaicSet p s
  | .colourSpaceSet p => Sys2Proof.Machine.execColourSpaceSet p s
  | .matrixSet p => Sys2Proof.Machine.execMatrixSet p s
  | .cdlSet p => Sys2Proof.Machine.execCdlSet p s
  | .lut1dLoad p => Sys2Proof.Machine.execLut1dLoad p s
  | .lut3dLoad p => Sys2Proof.Machine.execLut3dLoad p s
  | .transferSet p => Sys2Proof.Machine.execTransferSet p s
  | .branchConfig p => Sys2Proof.Machine.execBranchConfig p s
  | .branchScalerSet p => Sys2Proof.Machine.execBranchScalerSet p s
  | .branchEnable p => Sys2Proof.Machine.execBranchEnable p s
  | .branchQuery p => Sys2Proof.Machine.execBranchQuery p s
  | .statsConfig p => Sys2Proof.Machine.execStatsConfig p s
  | .statsZonesSet p => Sys2Proof.Machine.execStatsZonesSet p s
  | .tapConfig p => Sys2Proof.Machine.execTapConfig p s
  | .tapEnable p => Sys2Proof.Machine.execTapEnable p s
  | .statsQuery p => Sys2Proof.Machine.execStatsQuery p s
  | .motionConfig p => Sys2Proof.Machine.execMotionConfig p s
  | .motionSearchSet p => Sys2Proof.Machine.execMotionSearchSet p s
  | .motionExport p => Sys2Proof.Machine.execMotionExport p s
  | .motionQuery p => Sys2Proof.Machine.execMotionQuery p s
  | .encOpen p => Sys2Proof.Machine.execEncOpen p s
  | .encClose p => Sys2Proof.Machine.execEncClose p s
  | .encConfig p => Sys2Proof.Machine.execEncConfig p s
  | .encRcSet p => Sys2Proof.Machine.execEncRcSet p s
  | .encForceIrap p => Sys2Proof.Machine.execEncForceIrap p s
  | .encBind p => Sys2Proof.Machine.execEncBind p s
  | .encQuery p => Sys2Proof.Machine.execEncQuery p s
  | .encXsConfig p => Sys2Proof.Machine.execEncXsConfig p s
  | .decOpen p => Sys2Proof.Machine.execDecOpen p s
  | .decClose p => Sys2Proof.Machine.execDecClose p s
  | .decSubmit p => Sys2Proof.Machine.execDecSubmit p s
  | .decFlush p => Sys2Proof.Machine.execDecFlush p s
  | .decBind p => Sys2Proof.Machine.execDecBind p s
  | .decQuery p => Sys2Proof.Machine.execDecQuery p s
  | .rasterTimingSet p => Sys2Proof.Machine.execRasterTimingSet p s
  | .rasterPlaneSet p => Sys2Proof.Machine.execRasterPlaneSet p s
  | .rasterOutputSet p => Sys2Proof.Machine.execRasterOutputSet p s
  | .rasterGroupSet p => Sys2Proof.Machine.execRasterGroupSet p s
  | .rasterCommitCutSet p => Sys2Proof.Machine.execRasterCommitCutSet p s
  | .rasterCrcSet p => Sys2Proof.Machine.execRasterCrcSet p s
  | .rasterRefreshSet p => Sys2Proof.Machine.execRasterRefreshSet p s
  | .rasterUnderrunSet p => Sys2Proof.Machine.execRasterUnderrunSet p s
  | .sdiRxConfig p => Sys2Proof.Machine.execSdiRxConfig p s
  | .rasterQuery p => Sys2Proof.Machine.execRasterQuery p s
  | .rasterStart p => Sys2Proof.Machine.execRasterStart p s
  | .rasterStop p => Sys2Proof.Machine.execRasterStop p s
  | .tdConfig p => Sys2Proof.Machine.execTdConfig p s
  | .tdQuery p => Sys2Proof.Machine.execTdQuery p s
  | .ptpConfig p => Sys2Proof.Machine.execPtpConfig p s
  | .genlockConfig p => Sys2Proof.Machine.execGenlockConfig p s
  | .ltcConfig p => Sys2Proof.Machine.execLtcConfig p s
  | .launchSchedule p => Sys2Proof.Machine.execLaunchSchedule p s
  | .tdRateCommit p => Sys2Proof.Machine.execTdRateCommit p s
  | .timeAnchorConfig p => Sys2Proof.Machine.execTimeAnchorConfig p s
  | .macConfig p => Sys2Proof.Machine.execMacConfig p s
  | .flowSendCreate p => Sys2Proof.Machine.execFlowSendCreate p s
  | .flowRecvCreate p => Sys2Proof.Machine.execFlowRecvCreate p s
  | .flowDelete p => Sys2Proof.Machine.execFlowDelete p s
  | .flowBind p => Sys2Proof.Machine.execFlowBind p s
  | .flowStart p => Sys2Proof.Machine.execFlowStart p s
  | .flowStop p => Sys2Proof.Machine.execFlowStop p s
  | .flowQuery p => Sys2Proof.Machine.execFlowQuery p s
  | .udpControlSet p => Sys2Proof.Machine.execUdpControlSet p s
  | .sapConfig p => Sys2Proof.Machine.execSapConfig p s
  | .sapSlotMap p => Sys2Proof.Machine.execSapSlotMap p s
  | .sapGroupSet p => Sys2Proof.Machine.execSapGroupSet p s
  | .sapClockSet p => Sys2Proof.Machine.execSapClockSet p s
  | .asrcConfig p => Sys2Proof.Machine.execAsrcConfig p s
  | .audioEmbedSet p => Sys2Proof.Machine.execAudioEmbedSet p s
  | .sapRestart p => Sys2Proof.Machine.execSapRestart p s
  | .sapQuery p => Sys2Proof.Machine.execSapQuery p s
  | .pailAlloc p => Sys2Proof.Machine.execPailAlloc p s
  | .pailImportHost p => Sys2Proof.Machine.execPailImportHost p s
  | .pailFree p => Sys2Proof.Machine.execPailFree p s
  | .pailQuery p => Sys2Proof.Machine.execPailQuery p s
  | .pailMap p => Sys2Proof.Machine.execPailMap p s
  | .dmaChannelConfig p => Sys2Proof.Machine.execDmaChannelConfig p s
  | .dmaSheafSubmit p => Sys2Proof.Machine.execDmaSheafSubmit p s
  | .dmaPause p => Sys2Proof.Machine.execDmaPause p s
  | .dmaResume p => Sys2Proof.Machine.execDmaResume p s
  | .dmaAbort p => Sys2Proof.Machine.execDmaAbort p s
  | .dmaQuery p => Sys2Proof.Machine.execDmaQuery p s
  | .magQuery p => Sys2Proof.Machine.execMagQuery p s
  | .magFormat p => Sys2Proof.Machine.execMagFormat p s
  | .magEject p => Sys2Proof.Machine.execMagEject p s
  | .reelCreate p => Sys2Proof.Machine.execReelCreate p s
  | .reelDelete p => Sys2Proof.Machine.execReelDelete p s
  | .reelRecordStart p => Sys2Proof.Machine.execReelRecordStart p s
  | .reelRecordStop p => Sys2Proof.Machine.execReelRecordStop p s
  | .clipQuery p => Sys2Proof.Machine.execClipQuery p s
  | .reelExpose p => Sys2Proof.Machine.execReelExpose p s
  | .faultQuery p => Sys2Proof.Machine.execFaultQuery p s
  | .failoverForce p => Sys2Proof.Machine.execFailoverForce p s
  | .yokeStatus p => Sys2Proof.Machine.execYokeStatus p s
  | .rankQuery p => Sys2Proof.Machine.execRankQuery p s
  | .rankRetire p => Sys2Proof.Machine.execRankRetire p s
  | .drillQuery p => Sys2Proof.Machine.execDrillQuery p s
  | .faultLogRead p => Sys2Proof.Machine.execFaultLogRead p s
  | .eventRingSet p => Sys2Proof.Machine.execEventRingSet p s
  | .eventFilterSet p => Sys2Proof.Machine.execEventFilterSet p s
  | .eventRead p => Sys2Proof.Machine.execEventRead p s
  | .telemetryRead p => Sys2Proof.Machine.execTelemetryRead p s
  | .counterRead p => Sys2Proof.Machine.execCounterRead p s
  | .counterReadClear p => Sys2Proof.Machine.execCounterReadClear p s
  | .gleanQuery p => Sys2Proof.Machine.execGleanQuery p s
  | .fwInfo p => Sys2Proof.Machine.execFwInfo p s
  | .fwUpdateBegin p => Sys2Proof.Machine.execFwUpdateBegin p s
  | .fwUpdateData p => Sys2Proof.Machine.execFwUpdateData p s
  | .fwUpdateEnd p => Sys2Proof.Machine.execFwUpdateEnd p s
  | .fwActivate p => Sys2Proof.Machine.execFwActivate p s
  | .deviceReset p => Sys2Proof.Machine.execDeviceReset p s
  | .rollbackCommit p => Sys2Proof.Machine.execRollbackCommit p s
  | .writePacket time bytes => Sys2Proof.Machine.execWritePacket time bytes s
  | .readReply time clocked => Sys2Proof.Machine.execReadReply time clocked s
  | .readStatus time => Sys2Proof.Machine.execReadStatus time s
  | .bootStatus time => Sys2Proof.Machine.execBootStatus time s
  | .bootWrite time offset data => Sys2Proof.Machine.execBootWrite time offset data s
  | .bootGo time length image => Sys2Proof.Machine.execBootGo time length image s
  | .intStatusWrite time value => Sys2Proof.Machine.execIntStatusWrite time value s
  | .ringCtrlWrite time ring value => Sys2Proof.Machine.execRingCtrlWrite time ring value s
  | .cqHeadWrite time ring value => Sys2Proof.Machine.execCqHeadWrite time ring value s
  | .evHeadWrite time value => Sys2Proof.Machine.execEvHeadWrite time value s
  | .bar0RegisterWrite time offset value => Sys2Proof.Machine.execBar0RegisterWrite time offset value s
  | .createIoSq time cid qid size cqid prio => Sys2Proof.Machine.execCreateIoSq time cid qid size cqid prio s
  | .createIoCq time cid qid size => Sys2Proof.Machine.execCreateIoCq time cid qid size s
  | .deleteIoSq time cid qid => Sys2Proof.Machine.execDeleteIoSq time cid qid s
  | .deleteIoCq time cid qid => Sys2Proof.Machine.execDeleteIoCq time cid qid s
  | .getLogPage time cid lid nsid bytes rae => Sys2Proof.Machine.execGetLogPage time cid lid nsid bytes rae s
  | .identify time cid cns nsid => Sys2Proof.Machine.execIdentify time cid cns nsid s
  | .abort time cid sqid target => Sys2Proof.Machine.execAbort time cid sqid target s
  | .setFeatures time cid fid value => Sys2Proof.Machine.execSetFeatures time cid fid value s
  | .getFeatures time cid fid => Sys2Proof.Machine.execGetFeatures time cid fid s
  | .asynchronousEventRequest time cid => Sys2Proof.Machine.execAsynchronousEventRequest time cid s
  | .namespaceManagementCreate time cid nsze ncap flbas => Sys2Proof.Machine.execNamespaceManagementCreate time cid nsze ncap flbas s
  | .namespaceManagementDelete time cid nsid => Sys2Proof.Machine.execNamespaceManagementDelete time cid nsid s
  | .namespaceAttachmentAttach time cid nsid => Sys2Proof.Machine.execNamespaceAttachmentAttach time cid nsid s
  | .namespaceAttachmentDetach time cid nsid => Sys2Proof.Machine.execNamespaceAttachmentDetach time cid nsid s
  | .read time sqid cid nsid slba nlb => Sys2Proof.Machine.execRead time sqid cid nsid slba nlb s
  | .write time sqid cid nsid slba nlb data fua => Sys2Proof.Machine.execWrite time sqid cid nsid slba nlb data fua s
  | .flush time sqid cid nsid => Sys2Proof.Machine.execFlush time sqid cid nsid s
  | .writeZeroes time sqid cid nsid slba nlb => Sys2Proof.Machine.execWriteZeroes time sqid cid nsid slba nlb s
  | .datasetManagement time sqid cid nsid ranges deallocate => Sys2Proof.Machine.execDatasetManagement time sqid cid nsid ranges deallocate s
  | .invalidCommandOpcode time sqid cid => Sys2Proof.Machine.execInvalidCommandOpcode time sqid cid s
  | .controllerDisable time => Sys2Proof.Machine.execControllerDisable time s
  | .powerOnReset time boot => Sys2Proof.Machine.execPowerOnReset time boot s
  | .coldReset time boot => Sys2Proof.Machine.execColdReset time boot s
  | .warmReset time boot => Sys2Proof.Machine.execWarmReset time boot s
  | .pcieEndpointReset time kind => Sys2Proof.Machine.execPcieEndpointReset time kind s
  | .leaseExpiry time index => Sys2Proof.Machine.execLeaseExpiry time index s
  | .tombstoneExpiry time index => Sys2Proof.Machine.execTombstoneExpiry time index s
  | .txnIdleTimeout time txn => Sys2Proof.Machine.execTxnIdleTimeout time txn s
  | .spiCsTimeout time => Sys2Proof.Machine.execSpiCsTimeout time s
  | .fragmentReassemblyTimeout time => Sys2Proof.Machine.execFragmentReassemblyTimeout time s
  | .pacerReading time speeds => Sys2Proof.Machine.execPacerReading time speeds s
  | .vcoreConfirmed time vout speeds => Sys2Proof.Machine.execVcoreConfirmed time vout speeds s
  | .vcoreConfirmTimeout time => Sys2Proof.Machine.execVcoreConfirmTimeout time s
  | .readVoutPoll time vout tj stackTj => Sys2Proof.Machine.execReadVoutPoll time vout tj stackTj s
  | .guaranteeRestored time => Sys2Proof.Machine.execGuaranteeRestored time s
  | .furrowSof time furrow lanes => Sys2Proof.Machine.execFurrowSof time furrow lanes s
  | .furrowRowEnd time furrow row => Sys2Proof.Machine.execFurrowRowEnd time furrow row s
  | .frameTimeout time furrow => Sys2Proof.Machine.execFrameTimeout time furrow s
  | .fillLands time furrow => Sys2Proof.Machine.execFillLands time furrow s
  | .frameDeliver time furrow => Sys2Proof.Machine.execFrameDeliver time furrow s
  | .furrowSilent time furrow => Sys2Proof.Machine.execFurrowSilent time furrow s
  | .furrowTrainDone time furrow lanes eyes => Sys2Proof.Machine.execFurrowTrainDone time furrow lanes eyes s
  | .sensorGroupWriteStart time furrow group => Sys2Proof.Machine.execSensorGroupWriteStart time furrow group s
  | .sensorBusTransferDone time furrow group result data => Sys2Proof.Machine.execSensorBusTransferDone time furrow group result data s
  | .sensorWriteWindowClose time furrow group => Sys2Proof.Machine.execSensorWriteWindowClose time furrow group s
  | .syncPinEdge time furrow pin rising => Sys2Proof.Machine.execSyncPinEdge time furrow pin rising s
  | .syncPulseEnd time furrow pin => Sys2Proof.Machine.execSyncPulseEnd time furrow pin s
  | .tileRowRelease time stream row => Sys2Proof.Machine.execTileRowRelease time stream row s
  | .motionBandRelease time stream row span => Sys2Proof.Machine.execMotionBandRelease time stream row span s
  | .motionWaitTimeout time stream row => Sys2Proof.Machine.execMotionWaitTimeout time stream row s
  | .harrowBandComplete time harrow => Sys2Proof.Machine.execHarrowBandComplete time harrow s
  | .drillJobComplete time drill => Sys2Proof.Machine.execDrillJobComplete time drill s
  | .drillJobTimeout time drill cause => Sys2Proof.Machine.execDrillJobTimeout time drill cause s
  | .swathRelease time session swath => Sys2Proof.Machine.execSwathRelease time session swath s
  | .tineJobComplete time tine result => Sys2Proof.Machine.execTineJobComplete time tine result s
  | .playbackSof time stream => Sys2Proof.Machine.execPlaybackSof time stream s
  | .rasterFrameStart time raster readBack => Sys2Proof.Machine.execRasterFrameStart time raster readBack s
  | .rasterCommitCut time raster => Sys2Proof.Machine.execRasterCommitCut time raster s
  | .rasterLatch time raster => Sys2Proof.Machine.execRasterLatch time raster s
  | .rasterLineDeadline time raster line plane cause => Sys2Proof.Machine.execRasterLineDeadline time raster line plane cause s
  | .dsiTeEdge time port => Sys2Proof.Machine.execDsiTeEdge time port s
  | .hdmiHotPlug time port plugged trained rate lanes => Sys2Proof.Machine.execHdmiHotPlug time port plugged trained rate lanes s
  | .hdmiFrlRetry time port trained => Sys2Proof.Machine.execHdmiFrlRetry time port trained s
  | .sdiRxFrame time input sav width height samples ancillary => Sys2Proof.Machine.execSdiRxFrame time input sav width height samples ancillary s
  | .sdiRxLocked time input payloadId => Sys2Proof.Machine.execSdiRxLocked time input payloadId s
  | .sdiRxLost time input => Sys2Proof.Machine.execSdiRxLost time input s
  | .referenceEdge time input => Sys2Proof.Machine.execReferenceEdge time input s
  | .referenceStopTimeout time input => Sys2Proof.Machine.execReferenceStopTimeout time input s
  | .ptpSyncReceive time td portB offset => Sys2Proof.Machine.execPtpSyncReceive time td portB offset s
  | .ptpAnnounceReceive time td portB grandmaster steps utcOffset flags best => Sys2Proof.Machine.execPtpAnnounceReceive time td portB grandmaster steps utcOffset flags best s
  | .ptpReferenceTimeout time td portB => Sys2Proof.Machine.execPtpReferenceTimeout time td portB s
  | .ltcWordReceive time word good => Sys2Proof.Machine.execLtcWordReceive time word good s
  | .ltcWordSend time => Sys2Proof.Machine.execLtcWordSend time s
  | .tdStepApply time td => Sys2Proof.Machine.execTdStepApply time td s
  | .timeAnchor time td => Sys2Proof.Machine.execTimeAnchor time td s
  | .holdoverExtended time td => Sys2Proof.Machine.execHoldoverExtended time td s
  | .launchFire time id => Sys2Proof.Machine.execLaunchFire time id s
  | .mediaPacketLaunch time flow => Sys2Proof.Machine.execMediaPacketLaunch time flow s
  | .rtpPacketReceive time flow pathB seq stamp payload fragment => Sys2Proof.Machine.execRtpPacketReceive time flow pathB seq stamp payload fragment s
  | .flowClose time flow => Sys2Proof.Machine.execFlowClose time flow s
  | .flowPathLost time flow pathB => Sys2Proof.Machine.execFlowPathLost time flow pathB s
  | .ethernetLinkChange time port up speed => Sys2Proof.Machine.execEthernetLinkChange time port up speed s
  | .sapFsEdge time port xrun samples => Sys2Proof.Machine.execSapFsEdge time port xrun samples s
  | .sapFsMeasure time port milliHz => Sys2Proof.Machine.execSapFsMeasure time port milliHz s
  | .stackTempReport time stk temp => Sys2Proof.Machine.execStackTempReport time stk temp s
  | .refreshDue time rank busy => Sys2Proof.Machine.execRefreshDue time rank busy s
  | .correctedError time rank => Sys2Proof.Machine.execCorrectedError time rank s
  | .uncorrectableError time line requester cause => Sys2Proof.Machine.execUncorrectableError time line requester cause s
  | .migrationChunkCopy time error => Sys2Proof.Machine.execMigrationChunkCopy time error s
  | .poolPageMove time => Sys2Proof.Machine.execPoolPageMove time s
  | .engineAccessFault time engine kind dva handle => Sys2Proof.Machine.execEngineAccessFault time engine kind dva handle s
  | .pailUnmap time handle => Sys2Proof.Machine.execPailUnmap time handle s
  | .pailImportListRead time handle failed host => Sys2Proof.Machine.execPailImportListRead time handle failed host s
  | .pailZeroingStep time => Sys2Proof.Machine.execPailZeroingStep time s
  | .dmaBurstComplete time mover fault host => Sys2Proof.Machine.execDmaBurstComplete time mover fault host s
  | .dmaLevelPoll time channel host => Sys2Proof.Machine.execDmaLevelPoll time channel host s
  | .magPowerEnable time => Sys2Proof.Machine.execMagPowerEnable time s
  | .magazineMount time info => Sys2Proof.Machine.execMagazineMount time info s
  | .magazineRemoval time => Sys2Proof.Machine.execMagazineRemoval time s
  | .nandOperationComplete time op => Sys2Proof.Machine.execNandOperationComplete time op s
  | .recordForm time reel => Sys2Proof.Machine.execRecordForm time reel s
  | .partialAcreProgram time => Sys2Proof.Machine.execPartialAcreProgram time s
  | .journalPageProgram time => Sys2Proof.Machine.execJournalPageProgram time s
  | .mapCheckpoint time => Sys2Proof.Machine.execMapCheckpoint time s
  | .clipDirectoryUpdate time reel => Sys2Proof.Machine.execClipDirectoryUpdate time reel s
  | .churnStep time die block => Sys2Proof.Machine.execChurnStep time die block s
  | .scrubStep time corrected uncorrectable => Sys2Proof.Machine.execScrubStep time corrected uncorrectable s
  | .laneRecentrePass time furrow moves => Sys2Proof.Machine.execLaneRecentrePass time furrow moves s
  | .telemetrySample time readings => Sys2Proof.Machine.execTelemetrySample time readings s
  | .drillPatrol time drill good => Sys2Proof.Machine.execDrillPatrol time drill good s
  | .gleanerEvaluate time needs => Sys2Proof.Machine.execGleanerEvaluate time needs s
  | .eventRingCopy time => Sys2Proof.Machine.execEventRingCopy time s
  | .failover time trigger pauseUs => Sys2Proof.Machine.execFailover time trigger pauseUs s
  | .yokeLaneDisagree time lane => Sys2Proof.Machine.execYokeLaneDisagree time lane s
  | .thermalTrip time sensor => Sys2Proof.Machine.execThermalTrip time sensor s
  | .pmbAlert time statusWord vout iout => Sys2Proof.Machine.execPmbAlert time statusWord vout iout s
  | .fwSlotEraseDone time good => Sys2Proof.Machine.execFwSlotEraseDone time good s
  | .unknownOpcodePacket op p => Sys2Proof.Machine.execUnknownOpcodePacket op p s
  | .sqTailWrite time ring value => Sys2Proof.Machine.execSqTailWrite time ring value s
  | .resetNLow time duration => Sys2Proof.Machine.execResetNLow time duration s
  | .vaonOutOfRange time => Sys2Proof.Machine.execVaonOutOfRange time s
  | .standbyComplexFault time reason => Sys2Proof.Machine.execStandbyComplexFault time reason s
  | .syncTriggerPulse time furrow pin => Sys2Proof.Machine.execSyncTriggerPulse time furrow pin s
  | .fwSlotCheckDone time image => Sys2Proof.Machine.execFwSlotCheckDone time image s
  | .arpNdpIcmpReceive time port message => Sys2Proof.Machine.execArpNdpIcmpReceive time port message s

end Sys2Proof.Machine
end

