-- ==== Sys2Proof/WellFormed.lean ====
section
/-! DEFINITION. Commands that a sender can send: every operand within the width that the wire gives it. The model gives every
command its effect, well formed or not. -/

namespace Sys2Proof

/-- A packet's header fields fit their widths (Table 3.1), its parameters are as many as a packet carries at most, and what the host
wrote lies in its address space. -/
def Packet.wellFormed (p : Packet) : Bool :=
  p.len < 65536 && p.magic < 65536 && p.version < 256 && p.flags < 256 && p.session < 65536 && p.seq < 2 ^ 32 && p.txn < 2 ^ 32
    && p.paramLength < 65536 && p.reserved < 65536 && p.crc < 2 ^ 32 && p.params.length ≤ 65536 && p.host.all fun e => e.1 < 2 ^ 64

/-- The boot inputs are those of two stacks and a 2-bit BOOT_MODE (Table 24.7). -/
def BootInputs.wellFormed (b : BootInputs) : Bool := b.bootMode < 4 && b.stackTemps.length = 2 && b.badChannels.all fun c => c < 64

/-- NVMe queue and command identifiers and sizes are 16 bits. -/
def ids (l : List Nat) : Bool := l.all fun x => x < 65536

/-- The opcode and the packet of a command that is a Kievo packet (Table 3.13); other rows are none. -/
def Instr.kievo : Instr → Option (Nat × Packet)
  | .openSession p => some (0x0001, p)
  | .closeSession p => some (0x0002, p)
  | .keepalive p => some (0x0003, p)
  | .objClaim p => some (0x0004, p)
  | .objRelease p => some (0x0005, p)
  | .objQueryOwner p => some (0x0006, p)
  | .sessionList p => some (0x0007, p)
  | .queryDevice p => some (0x0010, p)
  | .txnBegin p => some (0x0100, p)
  | .txnCommit p => some (0x0101, p)
  | .txnAbort p => some (0x0102, p)
  | .txnStatus p => some (0x0103, p)
  | .txnEpochQuery p => some (0x0104, p)
  | .streamQuery p => some (0x0200, p)
  | .streamAdmit p => some (0x0201, p)
  | .streamRelease p => some (0x0202, p)
  | .admitQuery p => some (0x0203, p)
  | .paceQuery p => some (0x0204, p)
  | .furrowConfig p => some (0x0300, p)
  | .furrowLaneMap p => some (0x0301, p)
  | .furrowSyncCodes p => some (0x0302, p)
  | .furrowTrain p => some (0x0303, p)
  | .furrowGang p => some (0x0304, p)
  | .furrowStatus p => some (0x0305, p)
  | .sensorProfileLoad p => some (0x0306, p)
  | .sensorRegWrite p => some (0x0307, p)
  | .sensorRegRead p => some (0x0308, p)
  | .sensorMclkSet p => some (0x0309, p)
  | .syncPinSet p => some (0x030A, p)
  | .furrowStart p => some (0x030B, p)
  | .furrowStop p => some (0x030C, p)
  | .rawBlackSet p => some (0x0400, p)
  | .rawDefectLoad p => some (0x0401, p)
  | .rawFpnLoad p => some (0x0402, p)
  | .rawNoiseModelSet p => some (0x0403, p)
  | .rawSnrSet p => some (0x0404, p)
  | .rawTnrSet p => some (0x0405, p)
  | .rawDualGainSet p => some (0x0406, p)
  | .rawShadingLoad p => some (0x0407, p)
  | .rawWbSet p => some (0x0408, p)
  | .rawQuery p => some (0x0409, p)
  | .demosaicSet p => some (0x0500, p)
  | .colourSpaceSet p => some (0x0501, p)
  | .matrixSet p => some (0x0502, p)
  | .cdlSet p => some (0x0503, p)
  | .lut1dLoad p => some (0x0504, p)
  | .lut3dLoad p => some (0x0505, p)
  | .transferSet p => some (0x0506, p)
  | .branchConfig p => some (0x0507, p)
  | .branchScalerSet p => some (0x0508, p)
  | .branchEnable p => some (0x0509, p)
  | .branchQuery p => some (0x050A, p)
  | .statsConfig p => some (0x0600, p)
  | .statsZonesSet p => some (0x0601, p)
  | .tapConfig p => some (0x0602, p)
  | .tapEnable p => some (0x0603, p)
  | .statsQuery p => some (0x0604, p)
  | .motionConfig p => some (0x0700, p)
  | .motionSearchSet p => some (0x0701, p)
  | .motionExport p => some (0x0702, p)
  | .motionQuery p => some (0x0703, p)
  | .encOpen p => some (0x0800, p)
  | .encClose p => some (0x0801, p)
  | .encConfig p => some (0x0802, p)
  | .encRcSet p => some (0x0803, p)
  | .encForceIrap p => some (0x0804, p)
  | .encBind p => some (0x0805, p)
  | .encQuery p => some (0x0806, p)
  | .encXsConfig p => some (0x0807, p)
  | .decOpen p => some (0x0900, p)
  | .decClose p => some (0x0901, p)
  | .decSubmit p => some (0x0902, p)
  | .decFlush p => some (0x0903, p)
  | .decBind p => some (0x0904, p)
  | .decQuery p => some (0x0905, p)
  | .rasterTimingSet p => some (0x0A00, p)
  | .rasterPlaneSet p => some (0x0A01, p)
  | .rasterOutputSet p => some (0x0A02, p)
  | .rasterGroupSet p => some (0x0A03, p)
  | .rasterCommitCutSet p => some (0x0A04, p)
  | .rasterCrcSet p => some (0x0A05, p)
  | .rasterRefreshSet p => some (0x0A06, p)
  | .rasterUnderrunSet p => some (0x0A07, p)
  | .sdiRxConfig p => some (0x0A08, p)
  | .rasterQuery p => some (0x0A09, p)
  | .rasterStart p => some (0x0A0A, p)
  | .rasterStop p => some (0x0A0B, p)
  | .tdConfig p => some (0x0B00, p)
  | .tdQuery p => some (0x0B01, p)
  | .ptpConfig p => some (0x0B02, p)
  | .genlockConfig p => some (0x0B03, p)
  | .ltcConfig p => some (0x0B04, p)
  | .launchSchedule p => some (0x0B05, p)
  | .tdRateCommit p => some (0x0B06, p)
  | .timeAnchorConfig p => some (0x0B07, p)
  | .macConfig p => some (0x0C00, p)
  | .flowSendCreate p => some (0x0C01, p)
  | .flowRecvCreate p => some (0x0C02, p)
  | .flowDelete p => some (0x0C03, p)
  | .flowBind p => some (0x0C04, p)
  | .flowStart p => some (0x0C05, p)
  | .flowStop p => some (0x0C06, p)
  | .flowQuery p => some (0x0C07, p)
  | .udpControlSet p => some (0x0C08, p)
  | .sapConfig p => some (0x0D00, p)
  | .sapSlotMap p => some (0x0D01, p)
  | .sapGroupSet p => some (0x0D02, p)
  | .sapClockSet p => some (0x0D03, p)
  | .asrcConfig p => some (0x0D04, p)
  | .audioEmbedSet p => some (0x0D05, p)
  | .sapRestart p => some (0x0D06, p)
  | .sapQuery p => some (0x0D07, p)
  | .pailAlloc p => some (0x0E00, p)
  | .pailImportHost p => some (0x0E01, p)
  | .pailFree p => some (0x0E02, p)
  | .pailQuery p => some (0x0E03, p)
  | .pailMap p => some (0x0E04, p)
  | .dmaChannelConfig p => some (0x0F00, p)
  | .dmaSheafSubmit p => some (0x0F01, p)
  | .dmaPause p => some (0x0F02, p)
  | .dmaResume p => some (0x0F03, p)
  | .dmaAbort p => some (0x0F04, p)
  | .dmaQuery p => some (0x0F05, p)
  | .magQuery p => some (0x1000, p)
  | .magFormat p => some (0x1001, p)
  | .magEject p => some (0x1002, p)
  | .reelCreate p => some (0x1003, p)
  | .reelDelete p => some (0x1004, p)
  | .reelRecordStart p => some (0x1005, p)
  | .reelRecordStop p => some (0x1006, p)
  | .clipQuery p => some (0x1007, p)
  | .reelExpose p => some (0x1008, p)
  | .faultQuery p => some (0x1100, p)
  | .failoverForce p => some (0x1101, p)
  | .yokeStatus p => some (0x1102, p)
  | .rankQuery p => some (0x1103, p)
  | .rankRetire p => some (0x1104, p)
  | .drillQuery p => some (0x1105, p)
  | .faultLogRead p => some (0x1106, p)
  | .eventRingSet p => some (0x1200, p)
  | .eventFilterSet p => some (0x1201, p)
  | .eventRead p => some (0x1202, p)
  | .telemetryRead p => some (0x1203, p)
  | .counterRead p => some (0x1204, p)
  | .counterReadClear p => some (0x1205, p)
  | .gleanQuery p => some (0x1206, p)
  | .fwInfo p => some (0x1300, p)
  | .fwUpdateBegin p => some (0x1301, p)
  | .fwUpdateData p => some (0x1302, p)
  | .fwUpdateEnd p => some (0x1303, p)
  | .fwActivate p => some (0x1304, p)
  | .deviceReset p => some (0x1305, p)
  | .rollbackCommit p => some (0x1306, p)
  | .writePacket _ _ => none
  | .readReply _ _ => none
  | .readStatus _ => none
  | .bootStatus _ => none
  | .bootWrite _ _ _ => none
  | .bootGo _ _ _ => none
  | .intStatusWrite _ _ => none
  | .ringCtrlWrite _ _ _ => none
  | .cqHeadWrite _ _ _ => none
  | .evHeadWrite _ _ => none
  | .bar0RegisterWrite _ _ _ => none
  | .createIoSq _ _ _ _ _ _ => none
  | .createIoCq _ _ _ _ => none
  | .deleteIoSq _ _ _ => none
  | .deleteIoCq _ _ _ => none
  | .getLogPage _ _ _ _ _ _ => none
  | .identify _ _ _ _ => none
  | .abort _ _ _ _ => none
  | .setFeatures _ _ _ _ => none
  | .getFeatures _ _ _ => none
  | .asynchronousEventRequest _ _ => none
  | .namespaceManagementCreate _ _ _ _ _ => none
  | .namespaceManagementDelete _ _ _ => none
  | .namespaceAttachmentAttach _ _ _ => none
  | .namespaceAttachmentDetach _ _ _ => none
  | .read _ _ _ _ _ _ => none
  | .write _ _ _ _ _ _ _ _ => none
  | .flush _ _ _ _ => none
  | .writeZeroes _ _ _ _ _ _ => none
  | .datasetManagement _ _ _ _ _ _ => none
  | .invalidCommandOpcode _ _ _ => none
  | .controllerDisable _ => none
  | .powerOnReset _ _ => none
  | .coldReset _ _ => none
  | .warmReset _ _ => none
  | .pcieEndpointReset _ _ => none
  | .leaseExpiry _ _ => none
  | .tombstoneExpiry _ _ => none
  | .txnIdleTimeout _ _ => none
  | .spiCsTimeout _ => none
  | .fragmentReassemblyTimeout _ => none
  | .pacerReading _ _ => none
  | .vcoreConfirmed _ _ _ => none
  | .vcoreConfirmTimeout _ => none
  | .readVoutPoll _ _ _ _ => none
  | .guaranteeRestored _ => none
  | .furrowSof _ _ _ => none
  | .furrowRowEnd _ _ _ => none
  | .frameTimeout _ _ => none
  | .fillLands _ _ => none
  | .frameDeliver _ _ => none
  | .furrowSilent _ _ => none
  | .furrowTrainDone _ _ _ _ => none
  | .sensorGroupWriteStart _ _ _ => none
  | .sensorBusTransferDone _ _ _ _ _ => none
  | .sensorWriteWindowClose _ _ _ => none
  | .syncPinEdge _ _ _ _ => none
  | .syncPulseEnd _ _ _ => none
  | .tileRowRelease _ _ _ => none
  | .motionBandRelease _ _ _ _ => none
  | .motionWaitTimeout _ _ _ => none
  | .harrowBandComplete _ _ => none
  | .drillJobComplete _ _ => none
  | .drillJobTimeout _ _ _ => none
  | .swathRelease _ _ _ => none
  | .tineJobComplete _ _ _ => none
  | .playbackSof _ _ => none
  | .rasterFrameStart _ _ _ => none
  | .rasterCommitCut _ _ => none
  | .rasterLatch _ _ => none
  | .rasterLineDeadline _ _ _ _ _ => none
  | .dsiTeEdge _ _ => none
  | .hdmiHotPlug _ _ _ _ _ _ => none
  | .hdmiFrlRetry _ _ _ => none
  | .sdiRxFrame _ _ _ _ _ _ _ => none
  | .sdiRxLocked _ _ _ => none
  | .sdiRxLost _ _ => none
  | .referenceEdge _ _ => none
  | .referenceStopTimeout _ _ => none
  | .ptpSyncReceive _ _ _ _ => none
  | .ptpAnnounceReceive _ _ _ _ _ _ _ _ => none
  | .ptpReferenceTimeout _ _ _ => none
  | .ltcWordReceive _ _ _ => none
  | .ltcWordSend _ => none
  | .tdStepApply _ _ => none
  | .timeAnchor _ _ => none
  | .holdoverExtended _ _ => none
  | .launchFire _ _ => none
  | .mediaPacketLaunch _ _ => none
  | .rtpPacketReceive _ _ _ _ _ _ _ => none
  | .flowClose _ _ => none
  | .flowPathLost _ _ _ => none
  | .ethernetLinkChange _ _ _ _ => none
  | .sapFsEdge _ _ _ _ => none
  | .sapFsMeasure _ _ _ => none
  | .stackTempReport _ _ _ => none
  | .refreshDue _ _ _ => none
  | .correctedError _ _ => none
  | .uncorrectableError _ _ _ _ => none
  | .migrationChunkCopy _ _ => none
  | .poolPageMove _ => none
  | .engineAccessFault _ _ _ _ _ => none
  | .pailUnmap _ _ => none
  | .pailImportListRead _ _ _ _ => none
  | .pailZeroingStep _ => none
  | .dmaBurstComplete _ _ _ _ => none
  | .dmaLevelPoll _ _ _ => none
  | .magPowerEnable _ => none
  | .magazineMount _ _ => none
  | .magazineRemoval _ => none
  | .nandOperationComplete _ _ => none
  | .recordForm _ _ => none
  | .partialAcreProgram _ => none
  | .journalPageProgram _ => none
  | .mapCheckpoint _ => none
  | .clipDirectoryUpdate _ _ => none
  | .churnStep _ _ _ => none
  | .scrubStep _ _ _ => none
  | .laneRecentrePass _ _ _ => none
  | .telemetrySample _ _ => none
  | .drillPatrol _ _ _ => none
  | .gleanerEvaluate _ _ => none
  | .eventRingCopy _ => none
  | .failover _ _ _ => none
  | .yokeLaneDisagree _ _ => none
  | .thermalTrip _ _ => none
  | .pmbAlert _ _ _ _ => none
  | .fwSlotEraseDone _ _ => none
  | .unknownOpcodePacket op p => some (op, p)
  | .sqTailWrite _ _ _ => none
  | .resetNLow _ _ => none
  | .vaonOutOfRange _ => none
  | .standbyComplexFault _ _ => none
  | .syncTriggerPulse _ _ _ => none
  | .fwSlotCheckDone _ _ => none
  | .arpNdpIcmpReceive _ _ _ => none

/-- A command whose operands fit their widths. -/
def Instr.wellFormed : Instr → Bool
  | .openSession p => p.wellFormed
  | .closeSession p => p.wellFormed
  | .keepalive p => p.wellFormed
  | .objClaim p => p.wellFormed
  | .objRelease p => p.wellFormed
  | .objQueryOwner p => p.wellFormed
  | .sessionList p => p.wellFormed
  | .queryDevice p => p.wellFormed
  | .txnBegin p => p.wellFormed
  | .txnCommit p => p.wellFormed
  | .txnAbort p => p.wellFormed
  | .txnStatus p => p.wellFormed
  | .txnEpochQuery p => p.wellFormed
  | .streamQuery p => p.wellFormed
  | .streamAdmit p => p.wellFormed
  | .streamRelease p => p.wellFormed
  | .admitQuery p => p.wellFormed
  | .paceQuery p => p.wellFormed
  | .furrowConfig p => p.wellFormed
  | .furrowLaneMap p => p.wellFormed
  | .furrowSyncCodes p => p.wellFormed
  | .furrowTrain p => p.wellFormed
  | .furrowGang p => p.wellFormed
  | .furrowStatus p => p.wellFormed
  | .sensorProfileLoad p => p.wellFormed
  | .sensorRegWrite p => p.wellFormed
  | .sensorRegRead p => p.wellFormed
  | .sensorMclkSet p => p.wellFormed
  | .syncPinSet p => p.wellFormed
  | .furrowStart p => p.wellFormed
  | .furrowStop p => p.wellFormed
  | .rawBlackSet p => p.wellFormed
  | .rawDefectLoad p => p.wellFormed
  | .rawFpnLoad p => p.wellFormed
  | .rawNoiseModelSet p => p.wellFormed
  | .rawSnrSet p => p.wellFormed
  | .rawTnrSet p => p.wellFormed
  | .rawDualGainSet p => p.wellFormed
  | .rawShadingLoad p => p.wellFormed
  | .rawWbSet p => p.wellFormed
  | .rawQuery p => p.wellFormed
  | .demosaicSet p => p.wellFormed
  | .colourSpaceSet p => p.wellFormed
  | .matrixSet p => p.wellFormed
  | .cdlSet p => p.wellFormed
  | .lut1dLoad p => p.wellFormed
  | .lut3dLoad p => p.wellFormed
  | .transferSet p => p.wellFormed
  | .branchConfig p => p.wellFormed
  | .branchScalerSet p => p.wellFormed
  | .branchEnable p => p.wellFormed
  | .branchQuery p => p.wellFormed
  | .statsConfig p => p.wellFormed
  | .statsZonesSet p => p.wellFormed
  | .tapConfig p => p.wellFormed
  | .tapEnable p => p.wellFormed
  | .statsQuery p => p.wellFormed
  | .motionConfig p => p.wellFormed
  | .motionSearchSet p => p.wellFormed
  | .motionExport p => p.wellFormed
  | .motionQuery p => p.wellFormed
  | .encOpen p => p.wellFormed
  | .encClose p => p.wellFormed
  | .encConfig p => p.wellFormed
  | .encRcSet p => p.wellFormed
  | .encForceIrap p => p.wellFormed
  | .encBind p => p.wellFormed
  | .encQuery p => p.wellFormed
  | .encXsConfig p => p.wellFormed
  | .decOpen p => p.wellFormed
  | .decClose p => p.wellFormed
  | .decSubmit p => p.wellFormed
  | .decFlush p => p.wellFormed
  | .decBind p => p.wellFormed
  | .decQuery p => p.wellFormed
  | .rasterTimingSet p => p.wellFormed
  | .rasterPlaneSet p => p.wellFormed
  | .rasterOutputSet p => p.wellFormed
  | .rasterGroupSet p => p.wellFormed
  | .rasterCommitCutSet p => p.wellFormed
  | .rasterCrcSet p => p.wellFormed
  | .rasterRefreshSet p => p.wellFormed
  | .rasterUnderrunSet p => p.wellFormed
  | .sdiRxConfig p => p.wellFormed
  | .rasterQuery p => p.wellFormed
  | .rasterStart p => p.wellFormed
  | .rasterStop p => p.wellFormed
  | .tdConfig p => p.wellFormed
  | .tdQuery p => p.wellFormed
  | .ptpConfig p => p.wellFormed
  | .genlockConfig p => p.wellFormed
  | .ltcConfig p => p.wellFormed
  | .launchSchedule p => p.wellFormed
  | .tdRateCommit p => p.wellFormed
  | .timeAnchorConfig p => p.wellFormed
  | .macConfig p => p.wellFormed
  | .flowSendCreate p => p.wellFormed
  | .flowRecvCreate p => p.wellFormed
  | .flowDelete p => p.wellFormed
  | .flowBind p => p.wellFormed
  | .flowStart p => p.wellFormed
  | .flowStop p => p.wellFormed
  | .flowQuery p => p.wellFormed
  | .udpControlSet p => p.wellFormed
  | .sapConfig p => p.wellFormed
  | .sapSlotMap p => p.wellFormed
  | .sapGroupSet p => p.wellFormed
  | .sapClockSet p => p.wellFormed
  | .asrcConfig p => p.wellFormed
  | .audioEmbedSet p => p.wellFormed
  | .sapRestart p => p.wellFormed
  | .sapQuery p => p.wellFormed
  | .pailAlloc p => p.wellFormed
  | .pailImportHost p => p.wellFormed
  | .pailFree p => p.wellFormed
  | .pailQuery p => p.wellFormed
  | .pailMap p => p.wellFormed
  | .dmaChannelConfig p => p.wellFormed
  | .dmaSheafSubmit p => p.wellFormed
  | .dmaPause p => p.wellFormed
  | .dmaResume p => p.wellFormed
  | .dmaAbort p => p.wellFormed
  | .dmaQuery p => p.wellFormed
  | .magQuery p => p.wellFormed
  | .magFormat p => p.wellFormed
  | .magEject p => p.wellFormed
  | .reelCreate p => p.wellFormed
  | .reelDelete p => p.wellFormed
  | .reelRecordStart p => p.wellFormed
  | .reelRecordStop p => p.wellFormed
  | .clipQuery p => p.wellFormed
  | .reelExpose p => p.wellFormed
  | .faultQuery p => p.wellFormed
  | .failoverForce p => p.wellFormed
  | .yokeStatus p => p.wellFormed
  | .rankQuery p => p.wellFormed
  | .rankRetire p => p.wellFormed
  | .drillQuery p => p.wellFormed
  | .faultLogRead p => p.wellFormed
  | .eventRingSet p => p.wellFormed
  | .eventFilterSet p => p.wellFormed
  | .eventRead p => p.wellFormed
  | .telemetryRead p => p.wellFormed
  | .counterRead p => p.wellFormed
  | .counterReadClear p => p.wellFormed
  | .gleanQuery p => p.wellFormed
  | .fwInfo p => p.wellFormed
  | .fwUpdateBegin p => p.wellFormed
  | .fwUpdateData p => p.wellFormed
  | .fwUpdateEnd p => p.wellFormed
  | .fwActivate p => p.wellFormed
  | .deviceReset p => p.wellFormed
  | .rollbackCommit p => p.wellFormed
  | .writePacket _ bytes => bytes.length ≤ 4104
  | .readReply _ clocked => clocked ≤ 65535
  | .readStatus _ => true
  | .bootStatus _ => true
  | .bootWrite _ offset data => offset < 2 ^ 32 && data.length ≤ 4096
  | .bootGo _ length _ => length < 2 ^ 32
  | .intStatusWrite _ value => value < 2 ^ 32
  | .ringCtrlWrite _ _ value => value < 2 ^ 32
  | .cqHeadWrite _ _ value => value < 2 ^ 32
  | .evHeadWrite _ value => value < 2 ^ 32
  | .bar0RegisterWrite _ offset value => offset < 65536 && offset % 4 = 0 && value < 2 ^ 32
  | .createIoSq _ cid qid size cqid prio => ids [cid, qid, size, cqid] && prio < 4
  | .createIoCq _ cid qid size => ids [cid, qid, size]
  | .deleteIoSq _ cid qid => ids [cid, qid]
  | .deleteIoCq _ cid qid => ids [cid, qid]
  | .getLogPage _ cid lid nsid _ _ => ids [cid] && lid < 256 && nsid < 2 ^ 32
  | .identify _ cid cns nsid => ids [cid] && cns < 256 && nsid < 2 ^ 32
  | .abort _ cid sqid target => ids [cid, sqid, target]
  | .setFeatures _ cid fid value => ids [cid] && fid < 256 && value < 2 ^ 32
  | .getFeatures _ cid fid => ids [cid] && fid < 256
  | .asynchronousEventRequest _ cid => ids [cid]
  | .namespaceManagementCreate _ cid nsze ncap flbas => ids [cid] && nsze < 2 ^ 64 && ncap < 2 ^ 64 && flbas < 256
  | .namespaceManagementDelete _ cid nsid => ids [cid] && nsid < 2 ^ 32
  | .namespaceAttachmentAttach _ cid nsid => ids [cid] && nsid < 2 ^ 32
  | .namespaceAttachmentDetach _ cid nsid => ids [cid] && nsid < 2 ^ 32
  | .read _ sqid cid nsid slba nlb => ids [sqid, cid] && nsid < 2 ^ 32 && slba < 2 ^ 64 && nlb ≤ 65536
  | .write _ sqid cid nsid slba nlb data _ => ids [sqid, cid] && nsid < 2 ^ 32 && slba < 2 ^ 64 && nlb ≤ 65536 && data.length = nlb * 4096
  | .flush _ sqid cid nsid => ids [sqid, cid] && nsid < 2 ^ 32
  | .writeZeroes _ sqid cid nsid slba nlb => ids [sqid, cid] && nsid < 2 ^ 32 && slba < 2 ^ 64 && nlb ≤ 65536
  | .datasetManagement _ sqid cid nsid ranges _ => ids [sqid, cid] && nsid < 2 ^ 32 && ranges.length ≤ 256
  | .invalidCommandOpcode _ sqid cid => ids [sqid, cid]
  | .controllerDisable _ => true
  | .powerOnReset _ boot => boot.wellFormed
  | .coldReset _ boot => boot.wellFormed
  | .warmReset _ boot => boot.wellFormed
  | .pcieEndpointReset _ kind => kind ≤ 2
  | .leaseExpiry _ index => index < 256
  | .tombstoneExpiry _ index => index < 256
  | .txnIdleTimeout _ txn => txn < 2 ^ 32
  | .spiCsTimeout _ => true
  | .fragmentReassemblyTimeout _ => true
  | .pacerReading _ speeds => speeds.length = 12
  | .vcoreConfirmed _ _ speeds => speeds.length = 12
  | .vcoreConfirmTimeout _ => true
  | .readVoutPoll _ _ _ stackTj => stackTj.length = 2
  | .guaranteeRestored _ => true
  | .furrowSof _ _ _ => true
  | .furrowRowEnd _ _ _ => true
  | .frameTimeout _ _ => true
  | .fillLands _ _ => true
  | .frameDeliver _ _ => true
  | .furrowSilent _ _ => true
  | .furrowTrainDone _ _ lanes eyes => lanes.length ≤ 128 && eyes.length ≤ 128
  | .sensorGroupWriteStart _ _ group => group < 32
  | .sensorBusTransferDone _ _ group _ _ => group < 32
  | .sensorWriteWindowClose _ _ group => group < 32
  | .syncPinEdge _ _ _ _ => true
  | .syncPulseEnd _ _ _ => true
  | .tileRowRelease _ _ _ => true
  | .motionBandRelease _ _ _ _ => true
  | .motionWaitTimeout _ _ _ => true
  | .harrowBandComplete _ _ => true
  | .drillJobComplete _ _ => true
  | .drillJobTimeout _ _ cause => cause ≤ 3
  | .swathRelease _ _ _ => true
  | .tineJobComplete _ _ _ => true
  | .playbackSof _ _ => true
  | .rasterFrameStart _ _ _ => true
  | .rasterCommitCut _ _ => true
  | .rasterLatch _ _ => true
  | .rasterLineDeadline _ _ _ _ cause => cause ≤ 2
  | .dsiTeEdge _ _ => true
  | .hdmiHotPlug _ _ _ _ _ _ => true
  | .hdmiFrlRetry _ _ _ => true
  | .sdiRxFrame _ _ _ _ _ samples ancillary => ancillary.length ≤ 4096 || ancillary.length ≤ samples.length
  | .sdiRxLocked _ _ payloadId => payloadId < 2 ^ 32
  | .sdiRxLost _ _ => true
  | .referenceEdge _ _ => true
  | .referenceStopTimeout _ _ => true
  | .ptpSyncReceive _ _ _ _ => true
  | .ptpAnnounceReceive _ _ _ grandmaster steps _ _ _ => grandmaster < 2 ^ 64 && steps < 65536
  | .ptpReferenceTimeout _ _ _ => true
  | .ltcWordReceive _ word _ => word < 2 ^ 64
  | .ltcWordSend _ => true
  | .tdStepApply _ _ => true
  | .timeAnchor _ _ => true
  | .holdoverExtended _ _ => true
  | .launchFire _ id => id < 1024
  | .mediaPacketLaunch _ _ => true
  | .rtpPacketReceive _ _ _ seq stamp _ _ => seq < 65536 && stamp < 2 ^ 32
  | .flowClose _ _ => true
  | .flowPathLost _ _ _ => true
  | .ethernetLinkChange _ _ _ _ => true
  | .sapFsEdge _ _ _ _ => true
  | .sapFsMeasure _ _ _ => true
  | .stackTempReport _ _ _ => true
  | .refreshDue _ _ _ => true
  | .correctedError _ _ => true
  | .uncorrectableError _ line _ _ => line < 72 * 2 ^ 24
  | .migrationChunkCopy _ _ => true
  | .poolPageMove _ => true
  | .engineAccessFault _ _ _ dva handle => dva < 2 ^ 48 && handle < 2 ^ 32
  | .pailUnmap _ handle => handle < 2 ^ 32
  | .pailImportListRead _ handle _ _ => handle < 2 ^ 32
  | .pailZeroingStep _ => true
  | .dmaBurstComplete _ _ _ _ => true
  | .dmaLevelPoll _ _ _ => true
  | .magPowerEnable _ => true
  | .magazineMount _ _ => true
  | .magazineRemoval _ => true
  | .nandOperationComplete _ _ => true
  | .recordForm _ _ => true
  | .partialAcreProgram _ => true
  | .journalPageProgram _ => true
  | .mapCheckpoint _ => true
  | .clipDirectoryUpdate _ _ => true
  | .churnStep _ _ _ => true
  | .scrubStep _ _ _ => true
  | .laneRecentrePass _ _ _ => true
  | .telemetrySample _ _ => true
  | .drillPatrol _ _ _ => true
  | .gleanerEvaluate _ needs => needs.length ≤ 6
  | .eventRingCopy _ => true
  | .failover _ trigger _ => 1 ≤ trigger && trigger ≤ 5
  | .yokeLaneDisagree _ _ => true
  | .thermalTrip _ _ => true
  | .pmbAlert _ statusWord _ _ => statusWord < 65536
  | .fwSlotEraseDone _ _ => true
  | .unknownOpcodePacket op p => op < 65536 && p.wellFormed
  | .sqTailWrite _ _ value => value < 2 ^ 32
  | .resetNLow _ _ => true
  | .vaonOutOfRange _ => true
  | .standbyComplexFault _ reason => reason < 256
  | .syncTriggerPulse _ _ _ => true
  | .fwSlotCheckDone _ _ => true
  | .arpNdpIcmpReceive _ _ _ => true

end Sys2Proof
end

