-- ==== Sys2Proof/Safety.lean ====
section
/-! DEFINITION. The terms in which statements speak of the machine: a state with another module, a module that is awake, a packet
that passes the acceptance order (R54, Table 3.2), a command that meets its checks, and a module that a thermal trip has stopped. -/

namespace Sys2Proof.Machine

/-- The state with another module and the same queue. -/
def State.set (s : State) (d : Dev) : State := { s with dev := d }

/-- At the instant `t` the module is `d`, and no thermal trip stops its engines. -/
structure Awake (s : State) (t : Nat) (d : Dev) : Prop where
  /-- The module with its clock at the instant. -/
  at_ : s.dev.clock t = d
  /-- THERMAL_TRIP is not asserted. -/
  running : d.faults.thermalTrip = false

/-! ## A packet that is taken -/

/-- The path of a packet takes it: its ring runs, has a free request slot and a free reply slot and its slot can be read, its port and its
source's address pass the UDP transport (R79, R360) and it is whole and sound, or the SPI target has room for its reply. -/
def pathTakes (p : Packet) (d : Dev) : Bool := match p.endpoint with
  | .ring i => d.bar0.rings.length == 16 && (d.ring i).runs && (d.ring i).replyRoom && !p.hostFailed && decide (p.endpoint ∈ d.ctl.turns)
    && ((d.ring i).sqTail.toNat + 1) % (d.ring i).slots != (d.ring i).sqHead.toNat
  | .udp port addr _ => bit d.udp.ports port && udpPasses d.udp addr && p.frag.isNone && p.toPort == d.udp.udpPort && !p.checksumBad
  | .spi => decide (d.spi.replies.length < 8) && decide (p.endpoint ∈ d.ctl.turns)

/-- A packet is taken in the step of its arrival: its path takes it, the controller takes packets and none waits, and the path gives the
length its header names. -/
def arrivalTaken (p : Packet) (d : Dev) : Bool := pathTakes p d && takes d && waitingPackets d == 0 && p.len == 24 + p.paramLength

/-- The turns once a packet's endpoint was served (R61): a ring or the SPI target goes behind the others, a UDP endpoint leaves. -/
def turnsAfter (p : Packet) (l : List Endpoint) : List Endpoint := match p.endpoint with
  | .udp .. => l.erase p.endpoint
  | _ => l.erase p.endpoint ++ [p.endpoint]

/-- A ring's pointers go past the packet's slot. -/
def slotPassed (p : Packet) (d : Dev) : Dev := match p.endpoint with
  | .ring i => d.onRing i fun r => { r with sqTail := BitVec.ofNat 32 ((r.sqTail.toNat + 1) % r.slots)
                                            sqHead := BitVec.ofNat 32 ((r.sqHead.toNat + 1) % r.slots) }
  | _ => d

/-- The module as intake meets a packet: what the host wrote before is in its memory, the packet's slot is passed, and intake goes on
with the next endpoint. -/
def pathTaken (p : Packet) (d : Dev) : Dev := (slotPassed p (hostWrites p.host d)).onCtl fun x => { x with turns := turnsAfter p x.turns }

/-- The module after steps 1 and 2: a packet with RETRY is counted (R51). -/
def takenFrom (p : Packet) (d : Dev) : Dev := if bit p.flags 1 then count 0 3 1 (pathTaken p d) else pathTaken p d

/-- The request as it reaches intake, at an instant. -/
def asTaken (op : Nat) (p : Packet) (t : Nat) : Request := { op, pkt := { p with host := [], time := t } }

/-- The session of a packet passes steps 5 to 7 of Table 3.2: it is open on this endpoint with this generation, its lease has
not passed, the sequence number is new and in the window, and fewer than 64 requests are outstanding. -/
def sessionTakes (x : Session) (p : Packet) (d : Dev) : Bool :=
  p.session == sessionId (sessionIndex p.session) x.gen && decide (x.endpoint = p.endpoint) && decide (d.now ≤ x.deadline)
    && decide (-1024 < seqDistance p.seq x.h) && decide (seqDistance p.seq x.h ≤ 1024)
    && (x.recs.find? fun r => r.seq = p.seq).isNone && decide ((x.recs.countP fun r => !r.done) < 64)

/-- The module with a packet accepted in its session: the lease renewed, the sequence number entered, and the session's counter
of accepted requests one higher. -/
def acceptedIn (x : Session) (p : Packet) (d : Dev) : Dev :=
  let i := sessionIndex p.session
  let y := { x with deadline := d.now + x.leaseMs * 1000000 }
  count (sessionObj i) 0 1 (d.onCtl fun c => { c with sessions := mapSet (mapSet c.sessions i y) i (acceptSeq p.seq y) })

/-- A Kievo command whose packet passes steps 1 to 7 of Table 3.2 in the step of its arrival: the request, and the module that the
command meets. -/
def accepted (c : Instr) (s : State) : Option (Request × Dev) := match c.kievo with
  | none => none
  | some (op, p) =>
    let d := s.dev.clock p.time
    let e := takenFrom p d
    if !arrivalTaken p d || p.magic != 0xB7E5 || decide (p.paramLength > 4080) || p.crc != packetCrc op p || p.version != 1 then none
    else if p.session = noSession then
      if op = 0x0001 || op = 0x0010 then some (asTaken op p d.now, e) else none
    else match mapGet e.ctl.sessions (sessionIndex p.session) with
      | none => none
      | some x => if sessionTakes x p e then some (asTaken op p d.now, acceptedIn x p e) else none

/-- The host writes that a request to start a recording waits for: those to its reels that are not durable yet (R486). -/
def writesBefore (q : Request) (d : Dev) : List StagedWrite := d.nvme.staged.filter fun w => w.nsid ∈ startsOn d q

/-- A Kievo command whose packet is accepted in the step of its arrival, with no host write to wait for. -/
def taken (c : Instr) (s : State) : Option (Request × Dev) := (accepted c s).filter fun x => (writesBefore x.1 x.2).isEmpty

/-! ## A command that meets its checks -/

/-- A dry run (R45). -/
def isDryRun (q : Request) : Bool := q.op == 0x0201 && bit (u16 (packetBody q.pkt) 2) 0

/-- The admission that an immediate admission request asks for: what the load would be, and the verdict (R44); none where an output
or a raw ring would be too shallow. -/
def admission (c : Ctx) (sp : CmdSpec) (d : Dev) : Option (Dev × Nat) :=
  let trial := sp.settle c (baseDev d)
  if !depthsOk (baseDev d) trial then none
  else match admitTest (baseDev d) trial false .change with
    | .refuse _ => none
    | .step v => if v ≤ d.fabric.admStep then some (trial, v) else none

/-- The module once an admission passed at the admission step in force: where the load rises, the drills that it assumes are noted (R512). -/
def admitted (trial d : Dev) (kind : AdmitKind := .change) : Dev := settleAdmission kind (baseDev d) trial d

/-- An immediate command passes every step of Table 3.2: the request, and the module that its effect meets. -/
def immediate (c : Instr) (s : State) (sp : CmdSpec) : Option (Request × Dev) := match taken c s with
  | none => none
  | some (q, d) =>
    let x := contextOf d q
    if (refusal d x q sp).isSome || sp.stageable (packetBody q.pkt) || isDryRun q || (stateRefusal d x sp).isSome then none
    else if sp.raises then (admission x sp d).map fun e => (q, admitted e.1 d)
    else some (q, d)

/-- The module after an immediate command that left `d'` and answered `r` with a good status: its objects are the sender's (R73),
their versions have moved (R92), POOL's demand is up to date, and the reply is recorded and sent. -/
def carried (q : Request) (sp : CmdSpec) (d d' : Dev) (r : Rsp) : Dev :=
  finish q false r (syncPool (claimTargets (sessionIndex q.pkt.session) sp (sp.targets d (packetBody q.pkt)) d'))

/-- An immediate command, where it passes its checks and `cond` holds, leaves the module that `eff` gives, with that answer. -/
def RunsWhere (mk : Packet → Instr) (sp : CmdSpec) (cond : Ctx → Dev → Prop) (eff : Ctx → Dev → Dev × Rsp) : Prop :=
  ∀ (p : Packet) (s : State) (q : Request) (d : Dev), immediate (mk p) s sp = some (q, d) → cond (contextOf d q) d →
    exec (mk p) s = .next (s.set (carried q sp d (eff (contextOf d q) d).1 (eff (contextOf d q) d).2))

/-- An immediate command runs wherever it passes its checks. -/
def Runs (mk : Packet → Instr) (sp : CmdSpec) (eff : Ctx → Dev → Dev × Rsp) : Prop := RunsWhere mk sp (fun _ _ => True) eff

/-- An immediate command that only answers: wherever it passes its checks, nothing but its reply changes. -/
def Answers (mk : Packet → Instr) (sp : CmdSpec) (reply : Ctx → Dev → List Byte) : Prop := Runs mk sp fun c d => (d, .ok (reply c d))

/-- A stageable command of an open transaction with room passes every step of Table 3.2: the request, the module and the
transaction. -/
def stages (c : Instr) (s : State) (sp : CmdSpec) : Option (Request × Dev × Txn) := match taken c s with
  | none => none
  | some (q, d) => match openTxn d (sessionIndex q.pkt.session) q.pkt.txn with
    | none => none
    | some t =>
      if q.pkt.txn ≠ 0 && (refusal d (contextOf d q) q sp).isNone && sp.stageable (packetBody q.pkt) && !isDryRun q
        && decide (t.bytes + (24 + (packetBody q.pkt).length) ≤ 65536)
      then some (q, d, t) else none

/-- The staged form of a request (R90). -/
def asStaged (q : Request) : Staged := { op := q.op, seq := q.pkt.seq, params := packetBody q.pkt }

/-- The transaction with a command staged (R90, R92, R110): the command at the end, its bytes, the versions of objects it changes for
the first time, the objects that its session owns now, and its idle timer started again. -/
def withStaged (q : Request) (sp : CmdSpec) (d : Dev) (t : Txn) : Txn :=
  let b := packetBody q.pkt
  { t with staged := t.staged ++ [asStaged q], bytes := t.bytes + (24 + b.length)
           versions := (sp.targets d b).foldl (fun m k => if (mapGet m k).isSome then m else mapSet m k (keyVersion d k)) t.versions
           owned := (t.owned ++ (sp.targets d b).filter fun k => keyOwner d k = some (sessionIndex q.pkt.session)).dedup
           idleDeadline := d.now + t.idleNs }

/-- A stageable command outside a transaction (R93) that passes every step of Table 3.2 and every check of Table 4.4 with
nothing timed: none of its targets has a timeline, it writes no sensor, and its load fits the admission step at which VCORE
stands. The request, the module, and what the load would be. -/
def atOnce (c : Instr) (s : State) (sp : CmdSpec) : Option (Request × Dev × Dev) := match taken c s with
  | none => none
  | some (q, d) =>
    let b := packetBody q.pkt
    let txn := (takeTxn d).1
    if q.pkt.txn = 0 && (refusal d (contextOf d q) q sp).isNone && sp.stageable b && !isDryRun q && decide (txnCount d < 32)
      && (commitOf d txn).isNone && q.op ≠ 0x0307 && (sp.targets d b).all (fun k => keyTimeline d k = .untimed)
    then match checkStaged q.pkt.session txn [] d (baseDev d) (asStaged q) with
      | .error _ => none
      | .ok x => match admitTest (baseDev d) x (wantsNoRaise [asStaged q]) (admitKind [asStaged q]) with
        | .refuse _ => none
        | .step v => if v ≤ d.fabric.admStep then some (q, d, x) else none
    else none

/-- The transaction of one command (R93). -/
def oneCommand (q : Request) (d : Dev) : CommitRequest :=
  { txn := (takeTxn d).1, cmds := [asStaged q], bytes := 24 + (packetBody q.pkt).length, ctx := contextOf d q }

/-- The module after a transaction of one command whose parts apply at once: the commit is entered and its part applies (R98, R99), and
the transaction's number is used up. -/
def committed (q : Request) (d trial : Dev) : Dev :=
  (passCommit (oneCommand q d) none (admitted trial d (admitKind [asStaged q]))).1.onCtl fun x => { x with nextTxn := (takeTxn d).2.ctl.nextTxn }

/-- The answer of such a command: its own parameters, then those of Table 4.5, and its transaction. REEL_RECORD_STOP waits for its
clip (R467). -/
def commitAnswer (q : Request) (sp : CmdSpec) (d trial : Dev) : Rsp :=
  { status := if q.op = 0x1006 then 2 else 0
    params := sp.own (contextOf d q) (baseDev (committed q d trial)) ++ commitParams d.ctl.nextEpoch 0 0 ++ le 4 (takeTxn d).1 }

/-- A stageable command: outside a transaction and with nothing timed it commits at once, and the effect that its commit applies is
`eff`, whoever commits it and when. -/
structure Settles (mk : Packet → Instr) (sp : CmdSpec) (eff : Ctx → Dev → Dev) : Prop where
  /-- The command outside a transaction runs. -/
  commits : ∀ (p : Packet) (s : State) (q : Request) (d x : Dev), atOnce (mk p) s sp = some (q, d, x) →
    exec (mk p) s = .next (s.set (finish q false (commitAnswer q sp d x) (committed q d x)))
  /-- What a commit applies of it. -/
  applies : ∀ (sid txn seq : Nat) (b : List Byte) (d : Dev), sp.stageable b = true →
    settleStaged sid txn d { op := sp.op, seq, params := b } = eff { session := sessionIndex sid, sid, op := sp.op, seq, txn, b, time := d.now } d

/-! ## A row of the outside world -/

/-- A row that an engine tells: at any instant at which no thermal trip stands and `cond` holds it leaves the module `eff` gives. -/
def Happens (mk : Nat → Instr) (cond : Dev → Prop) (eff : Dev → Dev) : Prop :=
  ∀ (s : State) (t : Nat) (d : Dev), Awake s t d → cond d → exec (mk t) s = .next (s.set (eff d))

/-- A row that takes effect after a thermal trip too. -/
def HappensAlways (mk : Nat → Instr) (cond : Dev → Prop) (eff : Dev → Dev) : Prop :=
  ∀ (s : State) (t : Nat), cond (s.dev.clock t) → exec (mk t) s = .next (s.set (eff (s.dev.clock t)))

/-! ## After a thermal trip -/

/-- A thermal trip has stopped the module: THERMAL_TRIP is asserted and the module is fatal with cause 4 (R515, R569). -/
def Tripped (d : Dev) : Prop := d.faults.thermalTrip = true ∧ d.faults.fatalCause = 4

/-- A row that ends a thermal trip: RESET_N, or a power-on reset (R515, R569). -/
def endsTrip : Instr → Bool
  | .powerOnReset .. | .coldReset .. | .resetNLow .. | .vaonOutOfRange .. => true
  | _ => false

/-- Two modules agree in everything that engines and commands change: control state, counters of frames aside. -/
structure SameEngines (d e : Dev) : Prop where
  ctl : e.ctl = d.ctl
  gleaner : e.gleaner = d.gleaner
  fabric : e.fabric = d.fabric
  furrows : e.furrows = d.furrows
  streams : e.streams = d.streams
  codecs : e.codecs = d.codecs
  display : e.display = d.display
  time : e.time = d.time
  net : e.net = d.net
  audio : e.audio = d.audio
  hbm : e.hbm = d.hbm
  dma : e.dma = d.dma
  mag : e.mag = d.mag

/-! ## The queue -/

/-- Every command that waits is well formed. -/
def State.queueOk (s : State) : Bool := s.pending.all Instr.wellFormed

end Sys2Proof.Machine
end

