-- ==== Sys2Proof/Certificates/Slice0/Obligations.lean ====
section
/-! DEFINITION. The statements about the model. Each `def` is one; OBLIGATIONS.json lists them with the rules they rest on. -/

open Sys2Proof Sys2Proof.Machine

/-! ## The machine as a whole -/

/-- A step carries out the command at the front of the queue on the state that has the rest of the queue (log 1). -/
def Obligations.StepRunsFrontCommand : Prop :=
  ∀ (s : State) (c : Instr) (rest : List Instr), s.pending = c :: rest → step s = exec c { s with pending := rest }

/-- With no command waiting a step changes nothing, the model's choice of log 1; and a command leaves the queue as it is, which is the form
asked of a block. -/
def Obligations.CommandsLeaveQueue : Prop :=
  (∀ s : State, s.pending = [] → step s = .next s) ∧ ∀ (c : Instr) (s : State), ∃ d : Dev, exec c s = .next (s.set d)

/-- At reset (R75, Table 3.8; R179, R227, R334, R356, R391, R394, R450, R533) BAR0 holds the values of its table, its rings are disabled, no session or
transaction is open, rasters, SDI inputs and audio ports stand as their chapters say, and ranks 47, 95, 143 and 191 are fallow. -/
def Obligations.ResetLeavesManualValues : Prop :=
  let d := State.reset.dev
  State.reset.pending = [] ∧
  (bar0Read d 0x00 = 0x918000A1 ∧ bar0Read d 0x04 = 0 ∧ bar0Read d 0x08 = 0x10 ∧ bar0Read d 0x10 = 0 ∧ bar0Read d 0x14 = 0x0007FFFF
    ∧ bar0Read d 0x20 = 0 ∧ bar0Read d 0x24 = 0 ∧ bar0Read d 0x28 = 0 ∧ bar0Read d 0x2C = 0 ∧ bar0Read d 0x30 = 0) ∧
  (∀ i < 16, ∀ k < 11, bar0Read d (0x1000 + 64 * i + 4 * k) = 0) ∧
  d.ctl.sessions = [] ∧ d.ctl.txns = [] ∧ d.ctl.nextEpoch = 1 ∧ d.ctl.nextTxn = 1 ∧
  (∀ n < 24, (d.stream n).settings.raw = ({} : RawSet) ∧ (d.stream n).settings.motion.enable = false
    ∧ (d.stream n).settings.branches.all (fun b => !b.enable) = true ∧ (d.stream n).settings.stats.enable = false) ∧
  d.codecs.encoders = [] ∧ d.codecs.decoders = [] ∧ d.pails.table = [] ∧
  (∀ c < 64, (d.channel c).state = .idle ∧ (d.channel c).weight = 1 ∧ (d.channel c).rateMbps = 0 ∧ (d.channel c).cls = 3) ∧
  d.mag.state = .absent ∧ d.mag.powerOn = false ∧ d.events.records = []

/-- After reset every raster is stopped with every plane disabled, no output, a cut of 16, fill 0, checking and reduced refresh off and in no
group, and SDI inputs are disabled with hold_frames 2 (R334). -/
def Obligations.RastersAfterReset : Prop :=
  (∀ i < 8, let r := State.reset.dev.raster i
    r.running = false ∧ r.planes.all (fun p => p.mode == 0) = true ∧ r.outputs = [] ∧ r.cut = 16 ∧ r.fill = 0 ∧ r.crcOn = false
      ∧ r.refresh = false ∧ r.group = none) ∧
  ∀ i < 4, (tabGet State.reset.dev.display.sdiIn i).enabled = false ∧ (tabGet State.reset.dev.display.sdiIn i).holdFrames = 2

/-- After reset every audio port is disabled with format 0, target mode, two 32-bit slots, 24 sample bits, 48 kHz, TD5, AUTO_RESTART and latency
2, and every SCG, ASRC, group and embedder is off (R391). -/
def Obligations.AudioAfterReset : Prop :=
  (∀ p < 16, let x := State.reset.dev.port p
    x.state = .disabled ∧ x.config.format = 0 ∧ x.config.clockMode = 1 ∧ x.config.slots = 2 ∧ x.config.slotWidth = 32 ∧ x.config.sampleBits = 24
      ∧ rateHz x.config.rate = 48000 ∧ x.config.domain = 5 ∧ x.config.autoRestart = true ∧ x.config.latency = 2 ∧ x.asrc.enable = false) ∧
  State.reset.dev.audio.scgs.all (fun g => !g.enable) = true ∧ State.reset.dev.audio.groups.all (fun g => g.members == 0) = true
    ∧ State.reset.dev.audio.embeds = []

/-- At reset ranks 47, 95, 143 and 191, stack-ID level 2 of pseudo-channels 15 and 31 on each stack, are fallow and serve no slot; the other 188 are in service and assigned to slots 0 to 187 in
ascending order (R394). -/
def Obligations.RanksAfterReset : Prop :=
  (∀ i < 192, (tabGet State.reset.dev.hbm.ranks i).state = if i = 47 ∨ i = 95 ∨ i = 143 ∨ i = 191 then .fallow else .inService) ∧
  State.reset.dev.hbm.slots = ((List.range 192).filter fun i => !(i == 47 || i == 95 || i == 143 || i == 191)) ∧ State.reset.dev.hbm.slots.length = 188 ∧
  ∀ s < 2, ∀ pc < 32, ∀ sid < 3, (tabGet State.reset.dev.hbm.ranks (96 * s + 3 * pc + sid)).state = .fallow ↔ sid = 2 ∧ (pc = 15 ∨ pc = 31)

/-! ## Packets -/

/-- The check values that the manual gives: CRC-32C of "123456789" and of a packet's bytes with its crc field zero (R52). -/
def Obligations.PacketCrcIsCastagnoli : Prop :=
  crc32c ((List.range 9).map fun k => byte (0x31 + k)) = 0xE3069283 ∧
  ∀ (op : Nat) (p : Packet), packetCrc op p =
    crc32c (headerBytes p.flags op p.session p.seq p.txn p.paramLength p.reserved 0 p.magic p.version ++ packetBody p)

/-- A packet that arrives on a path that takes it, while the controller takes packets and none waits, goes through intake in the same step;
one that arrives before command-ready leaves nothing but what its host wrote (R61, R76, R79, R82, R543). -/
def Obligations.ArrivingPacketReachesIntake : Prop :=
  (∀ (c : Instr) (s : State) (op : Nat) (p : Packet), c.kievo = some (op, p) → arrivalTaken p (s.dev.clock p.time) = true →
    exec c s = .next (s.set (intake (asTaken op p p.time) (pathTaken p (s.dev.clock p.time))))) ∧
  ∀ (c : Instr) (s : State) (op : Nat) (p : Packet), c.kievo = some (op, p) → s.dev.boot.ready = false →
    exec c s = .next (s.set (hostWrites p.host (s.dev.clock p.time)))

/-- Table 3.2, steps 1 to 5 (R54, R64): a short packet or one without the magic number is discarded and counted; a wrong length, CRC or
version is answered with its status; without a session only OPEN_SESSION and QUERY_DEVICE run, and a packet of a session that is neither open nor a
tombstone is answered NO_SESSION. -/
def Obligations.AcceptanceOrder : Prop :=
  ∀ (q : Request) (d : Dev),
    let p := q.pkt
    let a := q.at_ d.now
    let e := if bit p.flags 1 then count 0 3 1 d else d
    let framed := 24 ≤ p.len ∧ p.magic = 0xB7E5
    let fits := framed ∧ p.paramLength ≤ 4080 ∧ p.paramLength + 24 = p.len
    let whole := fits ∧ p.crc = packetCrc q.op p
    (¬framed → intake q d = count 0 0 1 d) ∧
    (framed → ¬fits → intake q d = answer a (.badLength 0xFFFF) e) ∧
    (fits → ¬whole → intake q d = answer a { status := 0x0101 } e) ∧
    (whole → p.version ≠ 1 → intake q d = answer a { status := 0x0106, detail := 1 } e) ∧
    (whole → p.version = 1 → p.session = noSession → q.op = 0x0001 ∨ q.op = 0x0010 → intake q d = execute a false e) ∧
    (whole → p.version = 1 → p.session = noSession → ¬(q.op = 0x0001 ∨ q.op = 0x0010) → intake q d = answer a { status := 0x0201 } e) ∧
    (whole → p.version = 1 → p.session ≠ noSession → mapGet e.ctl.sessions (sessionIndex p.session) = none →
      mapGet e.ctl.tombs (sessionIndex p.session) = none → intake q d = answer a { status := 0x0201 } e)

/-- Only OPEN_SESSION and QUERY_DEVICE may carry session 0xFFFF, without sequence checks; any other opcode with it is refused with
NO_SESSION (R64). -/
def Obligations.SessionlessOpcodes : Prop :=
  ∀ (q : Request) (d : Dev), q.pkt.len = 24 + q.pkt.paramLength → q.pkt.magic = 0xB7E5 → bit q.pkt.flags 1 = false → q.pkt.paramLength ≤ 4080 →
    q.pkt.crc = packetCrc q.op q.pkt → q.pkt.version = 1 → q.pkt.session = 0xFFFF →
    intake q d = if q.op = 0x0001 ∨ q.op = 0x0010 then execute (q.at_ d.now) false d else answer (q.at_ d.now) { status := 0x0201 } d

/-- The sequence window (R57 to R59): with the lease renewed, a number out of the window is answered with h, a number that was accepted
before is never executed again, but answered DUPLICATE once its reply exists, and any other number within the window is accepted. -/
def Obligations.DuplicatesNeverRunAgain : Prop :=
  ∀ (i : Nat) (x : Session) (q : Request) (d : Dev),
    let w := seqDistance q.pkt.seq x.h
    (w > 1024 ∨ w ≤ -1024 → acceptIn i x q d = answer q { status := 0x0104, params := le 4 x.h } (count (sessionObj i) 2 1 d)) ∧
    (¬(w > 1024 ∨ w ≤ -1024) → ∀ r : SeqRec, (x.recs.find? fun r => r.seq = q.pkt.seq) = some r →
      acceptIn i x q d = if r.done then answer q { status := 0x0105, detail := r.status
                                                   params := le 2 r.detail ++ le 2 (boolNat r.cached.isNone) ++ r.cached.getD [] } (count (sessionObj i) 1 1 d)
        else count (sessionObj i) 1 1 d) ∧
    (¬(w > 1024 ∨ w ≤ -1024) → (x.recs.find? fun r => r.seq = q.pkt.seq) = none → (x.recs.countP fun r => !r.done) < 64 →
      acceptIn i x q d = execute q false (count (sessionObj i) 0 1
        (d.onCtl fun c => { c with sessions := mapSet c.sessions i (acceptSeq q.pkt.seq x) })))

/-- With 64 requests outstanding a new one is refused with BUSY, detail 1, and is not recorded: nothing but the answer, so the host may send it
again with the same sequence number (R60). -/
def Obligations.OutstandingRequestsAreBounded : Prop :=
  ∀ (i : Nat) (x : Session) (q : Request) (d : Dev), ¬(seqDistance q.pkt.seq x.h > 1024 ∨ seqDistance q.pkt.seq x.h ≤ -1024) →
    (x.recs.find? fun r => r.seq = q.pkt.seq) = none → 64 ≤ (x.recs.countP fun r => !r.done) → acceptIn i x q d = answer q (.busy 1) d

/-- A packet that passes steps 1 to 7 is executed in the step of its arrival, on the module with the lease renewed and the sequence number
entered (R54); a request that starts a recording first waits for the host writes to its reel that are not durable yet (R486); and an opcode outside
Table 3.13 is refused with UNKNOWN_OPCODE (R85), recorded and answered. -/
def Obligations.AcceptedPacketIsExecuted : Prop :=
  (∀ (c : Instr) (s : State) (q : Request) (d : Dev), accepted c s = some (q, d) → writesBefore q d = [] →
    exec c s = .next (s.set (executeNow q false d))) ∧
  (∀ (c : Instr) (s : State) (q : Request) (d : Dev), accepted c s = some (q, d) → writesBefore q d ≠ [] →
    exec c s = .next (s.set (d.onMag fun m => { m with startWait := some (q, false, (writesBefore q d).map (·.order)) }))) ∧
  ∀ (op : Nat) (p : Packet) (s : State) (q : Request) (d : Dev), taken (.unknownOpcodePacket op p) s = some (q, d) → commandSpec op = none →
    exec (.unknownOpcodePacket op p) s = .next (s.set (finish q false { status := 0x0103 } d))

/-- A command refused at any of steps 9 to 13 has no effect: the module is left as the refusal's reply leaves it, whatever the command (R55). -/
def Obligations.RefusedCommandHasNoEffect : Prop :=
  ∀ (c : Instr) (s : State) (q : Request) (d : Dev) (sp : CmdSpec) (r : Rsp), taken c s = some (q, d) → commandSpec q.op = some sp →
    refusal d (contextOf d q) q sp = some r → exec c s = .next (s.set (finish q false r d))

/-- An immediate command that passes its checks and whose effect answers with a good status is carried out: its effect, the ownership and the
versions of its objects (R73, R92), and its reply. -/
def Obligations.ImmediateCommandIsCarriedOut : Prop :=
  ∀ (c : Instr) (s : State) (q : Request) (d d' : Dev) (sp : CmdSpec) (r : Rsp), immediate c s sp = some (q, d) → commandSpec q.op = some sp →
    sp.act (contextOf d q) d = (d', some r) → r.good = true → exec c s = .next (s.set (carried q sp d d' r))

/-- A stageable command of an open transaction with room for it is recorded at the transaction's end and answered DONE_DEFERRED, and
nothing else changes; one that would take the transaction beyond 65,536 bytes is refused with TXN_TOO_LARGE, detail 1, and not staged (R90). -/
def Obligations.StagedCommandsWait : Prop :=
  (∀ (c : Instr) (s : State) (q : Request) (d : Dev) (t : Txn) (sp : CmdSpec), stages c s sp = some (q, d, t) → commandSpec q.op = some sp →
    exec c s = .next (s.set (finish q false .deferred
      (d.onCtl fun x => { x with txns := mapSet x.txns q.pkt.txn (withStaged q sp d t) })))) ∧
  ∀ (c : Instr) (s : State) (q : Request) (d : Dev) (t : Txn) (sp : CmdSpec), taken c s = some (q, d) → commandSpec q.op = some sp →
    openTxn d (sessionIndex q.pkt.session) q.pkt.txn = some t → q.pkt.txn ≠ 0 → refusal d (contextOf d q) q sp = none →
    sp.stageable (packetBody q.pkt) = true → isDryRun q = false → t.bytes + (24 + (packetBody q.pkt).length) > 65536 →
    exec c s = .next (s.set (finish q false { status := 0x0305, detail := 1 } d))

/-- A stageable command outside a transaction is a transaction of one command (R93): where its commit passes Table 4.4 the answer has the
command's own parameters, those of Table 4.5 and the transaction's number, which is used up; where its commit is refused, the reply is that of
the check. -/
def Obligations.OneCommandTransactions : Prop :=
  ∀ (c : Instr) (s : State) (q : Request) (d t : Dev) (sp : CmdSpec) (r : Rsp), taken c s = some (q, d) → commandSpec q.op = some sp →
    q.pkt.txn = 0 → refusal d (contextOf d q) q sp = none → sp.stageable (packetBody q.pkt) = true → isDryRun q = false → txnCount d < 32 →
    tryCommit true (oneCommand q d) d = (t, some r) →
    let u := if r.good then t.onCtl fun x => { x with nextTxn := (takeTxn d).2.ctl.nextTxn } else t
    exec c s = .next (s.set (finish q false
      (if r.good then { r with status := if q.op = 0x1006 then 0x0002 else r.status
                               params := sp.own (contextOf d q) (baseDev u) ++ r.params ++ le 4 (takeTxn d).1 } else r) u))

/-- At most 32 transactions are open at once: a TXN_BEGIN, or a stageable command outside a transaction, beyond that is refused with
TXN_TOO_LARGE, detail 2 (R89). -/
def Obligations.TransactionsAreBounded : Prop :=
  (∀ (p : Packet) (s : State) (q : Request) (d : Dev), taken (.txnBegin p) s = some (q, d) → refusal d (contextOf d q) q specTxnBegin = none →
    32 ≤ txnCount d → exec (.txnBegin p) s = .next (s.set (finish q false { status := 0x0305, detail := 2 } d))) ∧
  ∀ (c : Instr) (s : State) (q : Request) (d : Dev) (sp : CmdSpec), taken c s = some (q, d) → commandSpec q.op = some sp → q.pkt.txn = 0 →
    refusal d (contextOf d q) q sp = none → sp.stageable (packetBody q.pkt) = true → isDryRun q = false → 32 ≤ txnCount d →
    exec c s = .next (s.set (finish q false { status := 0x0305, detail := 2 } d))

/-! ## What each command does

`Runs mk sp eff` says that the command completes wherever it passes its checks, and names the module that its effect leaves and its
answer; `carried` adds what every command does to its objects and its reply. `Settles` says the same of a stageable command: it commits,
and what a commit applies of it is the effect named. -/

/-- OPEN_SESSION (R66, R67): it opens the session of the lowest free index with the lease asked for, or answers DUPLICATE with the original reply
where the nonce and the endpoint match an open session. CLOSE_SESSION (R69), KEEPALIVE (R68), SESSION_LIST (R572) and QUERY_DEVICE. -/
def Obligations.SessionCommands : Prop :=
  (∀ i : Nat, RunsWhere .openSession specOpenSession (fun c d => sameNonce d c.endpoint (u64 c.b 0) = none ∧ newSessionIndex d = some i) fun c d =>
    let gen := nextGeneration d i
    let lease := if u32 c.b 8 = 0 then 2000 else u32 c.b 8
    let params := le 2 (sessionId i gen) ++ le 2 0 ++ le 4 lease ++ le 4 c.seq ++ le 2 4080 ++ le 2 64
    let s : Session := { gen, endpoint := c.endpoint, nonce := u64 c.b 0, leaseMs := lease, policy := u16 c.b 12, name := slice c.b 16 16
                         deadline := d.now + lease * 1000000, h := c.seq, recs := [{ seq := c.seq, done := true }], openParams := params
                         cursor := d.events.next }
    (raise 0x0080 0 (sessionObj i) (le 2 (sessionId i gen) ++ endpointBytes c.endpoint)
      ((clearCounters (sessionObj i) d).onCtl fun x =>
        { x with sessions := mapSet x.sessions i s, tombs := mapDel x.tombs i, generations := mapSet x.generations i gen }), .ok params)) ∧
  (∀ (p : Packet) (s : State) (q : Request) (d : Dev) (x : Session), immediate (.openSession p) s specOpenSession = some (q, d) →
    sameNonce d q.pkt.endpoint (u64 (packetBody q.pkt) 0) = some x →
    exec (.openSession p) s = .next (s.set (finish q false { status := 0x0105, params := le 2 0 ++ le 2 0 ++ x.openParams } d))) ∧
  Runs .closeSession specCloseSession (fun c d => (closeSession c.session 0 (u16 c.b 0) d, .ok)) ∧
  Answers .keepalive specKeepalive (fun c d => le 4 (((mapGet d.ctl.sessions c.session).map (leaseLeft d)).getD 0)) ∧
  Answers .sessionList specSessionList (fun c d =>
    let l := (d.ctl.sessions.filter fun e => e.1 ≥ u16 c.b 0).take 128
    le 2 l.length ++ le 2 0 ++ l.flatMap fun e =>
      le 2 (sessionId e.1 e.2.gen) ++ endpointBytes e.2.endpoint ++ le 4 (leaseLeft d e.2) ++ (e.2.name ++ List.replicate 16 0).take 16) ∧
  Answers .queryDevice specQueryDevice (fun _ d =>
    le 2 0x9180 ++ le 2 0x00A1 ++ le 4 d.boot.runningImage.version ++ le 1 (activeComplex d) ++ le 1 (standbyCode d) ++ le 2 d.ctl.sessions.length
      ++ le 8 d.boot.serial)

/-- OBJ_CLAIM (R74) claims every listed object or none; OBJ_RELEASE (R572) leaves every listed object unowned or none; OBJ_QUERY_OWNER answers
each object's owner (R418). -/
def Obligations.OwnershipCommands : Prop :=
  let busyFor := fun (c : Ctx) (d : Dev) => (indexed (claimList c.b)).findSome? fun e => (otherOwner d c.session e.2).map fun w => (e.1, w)
  let foreign := fun (c : Ctx) (d : Dev) => (indexed (claimList c.b)).findSome? fun e =>
    ((objKeys d e.2).find? fun k => keyOwner d k ≠ some c.session).map fun k => (e.1, keyOwner d k)
  let force := fun (c : Ctx) (d : Dev) => bit (u16 c.b 2) 0 && keyOwner d 0 = some c.session
  RunsWhere .objClaim specObjClaim (fun c d => force c d = true ∨ busyFor c d = none)
    (fun c d => (((claimList c.b).flatMap (objKeys d)).foldl (fun d k => setOwner k (some c.session) d) d, .ok)) ∧
  (∀ (p : Packet) (s : State) (q : Request) (d : Dev) (i w : Nat), immediate (.objClaim p) s specObjClaim = some (q, d) →
    force (contextOf d q) d = false → busyFor (contextOf d q) d = some (i, w) →
    exec (.objClaim p) s = .next (s.set (finish q false { status := 0x0601, detail := sessionObj w, params := le 2 i } d))) ∧
  RunsWhere .objRelease specObjRelease (fun c d => foreign c d = none)
    (fun c d => (((claimList c.b).flatMap (objKeys d)).foldl (fun d k => setOwner k none d) d, .ok)) ∧
  (∀ (p : Packet) (s : State) (q : Request) (d : Dev) (i : Nat) (w : Option Nat), immediate (.objRelease p) s specObjRelease = some (q, d) →
    foreign (contextOf d q) d = some (i, w) →
    exec (.objRelease p) s = .next (s.set (finish q false { Rsp.notOwner w with params := le 2 i } d))) ∧
  Answers .objQueryOwner specObjQueryOwner (fun c d => (claimList c.b).flatMap fun o => le 2 (ownerObj (objOwner d o)))

/-- TXN_BEGIN opens a transaction under the next number with its idle timer (R88, R110); TXN_COMMIT commits the staged set (R99) and TXN_ABORT
ends it (R110); TXN_STATUS and TXN_EPOCH_QUERY answer (R107, R109). -/
def Obligations.TransactionCommands : Prop :=
  Runs .txnBegin specTxnBegin (fun c d =>
    let idle := (if u32 c.b 0 = 0 then 10000 else u32 c.b 0) * 1000000
    ((takeTxn d).2.onCtl fun x =>
      { x with txns := mapSet x.txns (takeTxn d).1 { session := c.session, idleNs := idle, idleDeadline := d.now + idle } },
     .ok (le 4 (takeTxn d).1 ++ le 4 65536))) ∧
  (∀ (t : Dev) (r : Rsp), r.good = true → RunsWhere .txnCommit specTxnCommit (fun c d => commitTxn c d = (t, some r)) fun _ _ => (t, r)) ∧
  RunsWhere .txnAbort specTxnAbort (fun c d => (openTxn d c.session (u32 c.b 0)).isSome = true) (fun c d => (abortTxn (u32 c.b 0) none d, .ok)) ∧
  (∀ x : ClosedTxn, RunsWhere .txnStatus specTxnStatus (fun c d => txnReport d c.session (u32 c.b 0) = some x) fun _ d => (d, .ok x.report)) ∧
  (∀ e : EpochRecord, RunsWhere .txnEpochQuery specTxnEpochQuery (fun c d => (d.ctl.epochs.find? fun e => e.epoch = u32 c.b 0) = some e) fun _ d =>
    (d, .ok (le 1 e.state.code ++ le 1 0 ++ le 2 e.anchor ++ le 4 e.txn ++ le 8 e.effective
      ++ fullTimeBytes { seconds := e.sofSeconds, ns := e.sofNs } ++ le 2 e.parts.length ++ e.parts.flatMap fun p => le 2 (keyObj p.1) ++ le 8 p.2)))

/-- STREAM_ADMIT admits the stream with its periods (R44) and STREAM_RELEASE releases an admitted one (R47), through commits; a STREAM_ADMIT with
DRY_RUN changes nothing but its reply (R574); STREAM_QUERY, ADMIT_QUERY and PACE_QUERY answer (R46, R47). -/
def Obligations.StreamCommands : Prop :=
  Settles .streamAdmit specStreamAdmit (fun c d => d.onStream (objIndex (u16 c.b 0)) fun s =>
    { s with admission := .admitted, minPeriod := u32 c.b 4, maxPeriod := u32 c.b 8 }) ∧
  (∀ (p : Packet) (s : State) (q : Request) (d : Dev), taken (.streamAdmit p) s = some (q, d) → refusal d (contextOf d q) q specStreamAdmit = none →
    bit (u16 (packetBody q.pkt) 2) 0 = true → exec (.streamAdmit p) s = .next (s.set (finish q false (dryRun (contextOf d q) d) d))) ∧
  Settles .streamRelease specStreamRelease (fun c d =>
    let n := objIndex (u16 c.b 0)
    if (d.stream n).admission = .admitted then
      let d := d.onStream n fun s => { s with admission := .released }
      settleReleased n (match furrowOf d n with
        | some (i, _) => stopFurrow i 0 d
        | none => d)
    else d) ∧
  Answers .streamQuery specStreamQuery (fun c d =>
    let n := objIndex (u16 c.b 0)
    let s := d.stream n
    let source := if n < 16 then (match furrowOf d n with
        | some (i, _) => 0x1000 + i
        | none => 0)
      else (match s.decoder with
        | some i => 0x6000 + i
        | none => 0)
    let state := match s.admission with
      | .out => 0
      | .admitted => 1
      | .released => 2
    le 1 state ++ le 1 (boolNat (n ≥ 16)) ++ le 2 source ++ le 4 s.minPeriod ++ le 4 s.maxPeriod ++ le 4 s.boundEpoch ++ le 8 s.frame
      ++ (streamFigures d n).flatMap (le 4)) ∧
  Answers .admitQuery specAdmitQuery (fun _ d =>
    let l := loadOf d
    let k := d.fabric.admStep
    le 2 d.fabric.cmdStep ++ le 2 (lowestStep d l) ++ (List.range 10).flatMap fun i =>
      let x := if i = 7 then worstLatency d l k else l.demand (i + 1)
      le 4 (rep32 x) ++ le 4 (rep32 (capacity d l (i + 1) k))) ∧
  Answers .paceQuery specPaceQuery (fun _ d =>
    let k := kOf d.fabric.cmdStep
    le 2 d.fabric.cmdStep ++ le 2 d.fabric.vout ++ leInt 2 (hottest d) ++ le 2 (boolNat d.fabric.lapse.isNone)
      ++ d.fabric.fields.flatMap fun f => le 2 (min 65535 (f.pacer * 1000 / k)))

/-- The furrow commands (R115, R116, R124, R127, R145, R149 to R154): configuration, lane maps, sync codes, training, ganging, start and stop, and
FURROW_STATUS, whose reading empties the edge FIFO. -/
def Obligations.FurrowCommands : Prop :=
  Runs .furrowConfig specFurrowConfig (fun c d => (furrowConfigSettle c d, .ok)) ∧
  Runs .furrowLaneMap specFurrowLaneMap (fun c d => (d.onFurrow (objIndex (u16 c.b 0)) fun f =>
    { f with maps := tabMod f.maps (u8 c.b 2) fun _ => readMap c.b, mapInUse := if u8 c.b 2 = 0 then 0 else f.mapInUse }, .ok)) ∧
  Runs .furrowSyncCodes specFurrowSyncCodes (fun c d => (d.onFurrow (objIndex (u16 c.b 0)) fun f =>
    { f with sync := { preamble := u16s c.b 4 3, codes := (List.range 4).map fun k => (u16 c.b (12 + 4 * k), u16 c.b (14 + 4 * k))
                       training := u16 c.b 28 } }, .ok)) ∧
  Runs .furrowTrain specFurrowTrain (fun c d =>
    let i := objIndex (u16 c.b 0)
    if u8 c.b 2 = 1 then (d.onFurrow i fun f => { f with recentreBy := f.recentreBy ++ [c.pending] }, .pending)
    else (d.onFurrow i fun f => { f with state := .training, trainedBy := some c.pending, lanes := f.lanes.map fun l => { l with locked := false } }, .pending)) ∧
  Runs .furrowGang specFurrowGang (fun c d =>
    let g : Bool := u8 c.b 2 = 1
    let i := objIndex (u16 c.b 0)
    ((d.onFurrow i fun f => { f with ganged := g }).onFurrow (i + 1) fun f => { f with ganged := g }, .ok)) ∧
  Runs .furrowStatus specFurrowStatus (fun c d =>
    let i := objIndex (u16 c.b 0)
    let f := d.furrow i
    let record := if f.lastRecord.number = 0 then List.replicate 128 0 else f.lastRecord.bytes
    let edges := (f.edges.flatMap fun e => le 1 e.pin ++ le 1 e.edge ++ le 2 0 ++ le 4 e.stamp) ++ List.replicate 128 0
    (d.onFurrow i fun f => { f with edges := [] },
     .ok (le 1 f.state.code ++ le 1 (boolNat f.ganged) ++ le 1 f.mapInUse ++ le 1 0 ++ le 16 (laneMask f (·.locked))
       ++ le 16 (laneMask f (·.failed)) ++ f.lanes.flatMap (fun l => le 1 (min 255 l.eye)) ++ record ++ le 2 f.edges.length ++ le 2 0 ++ edges.take 128))) ∧
  (∀ x : FurrowConfig, RunsWhere .furrowStart specFurrowStart (fun c d => (d.furrow (objIndex (u16 c.b 0))).config = some x) fun c d =>
    (if (d.furrow (objIndex (u16 c.b 0))).runs then d else startFurrow (objIndex (u16 c.b 0)) x d, .ok)) ∧
  Runs .furrowStop specFurrowStop (fun c d => (stopFurrow (objIndex (u16 c.b 0)) (u8 c.b 2) d, .ok))

/-- Sensor control (R143, R144, R146, R152, R573): a profile empties the register cache; MCLK answers its frequency; a register read waits for its bus
transfer, in its reply or with PENDING where the transfer is long; SYNC_PIN_SET sets a pin's function or starts a pulse; SENSOR_REG_WRITE outside a
transaction commits the writes of its group. -/
def Obligations.SensorCommands : Prop :=
  Runs .sensorProfileLoad specSensorProfileLoad (fun c d =>
    let p := readProfile c.b
    (d.onFurrow (objIndex (u16 c.b 0)) fun f =>
      { f with profile := some p, cache := [], busFrames := if p.busKind = 1 then [setDasa p] else f.busFrames }, .ok)) ∧
  Runs .sensorMclkSet specSensorMclkSet (fun c d =>
    (d.onFurrow (objIndex (u16 c.b 0)) fun f => { f with mclk := { enabled := u8 c.b 2 = 1, source := u8 c.b 3, milliHz := mclkMilliHz (u32 c.b 4) } },
     .ok (le 8 (mclkMilliHz (u32 c.b 4))))) ∧
  (∀ (p : Packet) (s : State) (q : Request) (d : Dev) (x : Profile), immediate (.sensorRegRead p) s specSensorRegRead = some (q, d) →
    let c := contextOf d q
    let i := objIndex (u16 c.b 0)
    let waits : Bool := readTime x (u8 c.b 2 = 1) (u8 c.b 3) ≤ 2000000
    let t := d.onFurrow i fun f => { f with reading := some { request := c.request, waits, length := u8 c.b 3, reg := u16 c.b 4 } }
    (d.furrow i).profile = some x →
    exec (.sensorRegRead p) s = .next (s.set (if waits then beginRead i t else carried q specSensorRegRead d (beginRead i t) .pending))) ∧
  Settles .syncPinSet specSyncPinSet (fun c d => d.onFurrow (objIndex (u16 c.b 0)) fun f =>
    { f with pins := tabMod f.pins (u8 c.b 2) fun p =>
        if u8 c.b 3 = 7 then { p with pulsePolarity := u8 c.b 4, pulseUntil := some (d.now + u32 c.b 16) }
        else { p with function := u8 c.b 3, polarity := u8 c.b 4, pulsePolarity := u8 c.b 4, periodNs := u32 c.b 8, phaseNs := u32 c.b 12
                      widthNs := u32 c.b 16, pulseUntil := none, strobeUntil := none } }) ∧
  (∀ (p : Packet) (s : State) (q : Request) (d t : Dev) (r : Rsp), taken (.sensorRegWrite p) s = some (q, d) → q.pkt.txn = 0 →
    refusal d (contextOf d q) q specSensorRegWrite = none → txnCount d < 32 → tryCommit true (oneCommand q d) d = (t, some r) → r.good = true →
    exec (.sensorRegWrite p) s = .next (s.set (finish q false { r with params := r.params ++ le 4 (takeTxn d).1 }
      (t.onCtl fun x => { x with nextTxn := (takeTxn d).2.ctl.nextTxn }))))

/-- The raw stage's settings and tables (R160 to R172, R174 to R181): a set changes the stream's settings when its commit applies, a load fills a
slot from a pail at once, and RAW_QUERY answers the set bound to the latest frame. -/
def Obligations.RawStageCommands : Prop :=
  let raw := fun (f : Ctx → RawSet → RawSet) (c : Ctx) (d : Dev) => d.onSettings c.stream fun x => { x with raw := f c x.raw }
  let tables := fun (f : Ctx → Dev → RawTables → RawTables) (c : Ctx) (d : Dev) =>
    ((d.onStream c.stream fun s => { s with tables := f c d s.tables }), Rsp.ok)
  Settles .rawBlackSet specRawBlackSet (raw fun c x => { x with
    black := tabMod x.black (u8 c.b 2) fun _ => five c.b 4
    white := tabMod x.white (u8 c.b 2) fun _ => some (five c.b 24) }) ∧
  Settles .rawWbSet specRawWbSet (raw fun c x => { x with wb := five c.b 4 }) ∧
  Settles .rawNoiseModelSet specRawNoiseModelSet (raw fun c x => { x with noiseSlot := u8 c.b 3 }) ∧
  Runs .rawNoiseModelSet specRawNoiseModelSet (tables fun c _ t => { t with noise := tabMod t.noise (u8 c.b 3) fun m =>
    { a := tabMod m.a (u8 c.b 4) fun _ => five c.b 8, b := tabMod m.b (u8 c.b 4) fun _ => five c.b 28 } }) ∧
  Settles .rawDefectLoad specRawDefectLoad (raw fun c x => { x with defectSlot := u8 c.b 3, dynThresh := u16 c.b 16, dynAlarm := u16 c.b 18 }) ∧
  Runs .rawDefectLoad specRawDefectLoad (tables fun c d t =>
    { t with defects := tabMod t.defects (u8 c.b 3) fun _ => (defectTable d c.b).map readDefect }) ∧
  Settles .rawFpnLoad specRawFpnLoad (raw fun c x => { x with fpnSlot := u8 c.b 3 }) ∧
  Runs .rawFpnLoad specRawFpnLoad (tables fun c d t =>
    let s := imagePlanes d c.stream
    { t with fpn := tabMod t.fpn (u8 c.b 3) fun _ =>
        readFpn (pailRead d (u32 c.b 4) (u32 c.b 8) (s.2.2 * fpnPlane (u8 c.b 12) s.1 s.2.1)) (u8 c.b 12) s.1 s.2.1 s.2.2 }) ∧
  Settles .rawSnrSet specRawSnrSet (raw fun c x =>
    { x with snr := { enable := bit (u8 c.b 2) 0, radius := u8 c.b 3, strength := u16 c.b 4, centre := u8 c.b 6, lut := u8s c.b 8 16 } }) ∧
  Settles .rawTnrSet specRawTnrSet (raw fun c x =>
    { x with tnr := { enable := bit (u8 c.b 2) 0, reset := bit (u8 c.b 2) 1, kMin := u16 c.b 4, tLo := u16 c.b 6, tHi := u16 c.b 8, maxDisp := u16 c.b 10 } }) ∧
  Settles .rawDualGainSet specRawDualGainSet (raw fun c x =>
    { x with dual := { hgPlane := u8 c.b 2, ratio := u32 c.b 4, kneeLo := u32 c.b 8, kneeHi := u32 c.b 12 } }) ∧
  Settles .rawShadingLoad specRawShadingLoad (raw fun c x => { x with shadingA := u8 c.b 3, shadingB := u8 c.b 4, blend := u16 c.b 6 }) ∧
  Runs .rawShadingLoad specRawShadingLoad (tables fun c d t =>
    let size := u16 c.b 16 * u16 c.b 18 * 10
    let l := pailRead d (u32 c.b 8) (u32 c.b 12) size
    { t with shading := tabMod t.shading (u8 c.b 3) fun _ =>
        { gridW := u16 c.b 16, gridH := u16 c.b 18, nodes := (List.range (size / 10)).map fun i => u16s l (10 * i) 5 } }) ∧
  Answers .rawQuery specRawQuery (fun c d =>
    let s := d.stream c.stream
    let r := s.bound.raw
    le 4 s.boundEpoch ++ le 8 s.boundFrame ++ le 1 (boolNat r.snr.enable + 2 * boolNat r.tnr.enable + 4 * boolNat (r.dynThresh ≠ 0)) ++ le 1 r.noiseSlot
      ++ le 1 r.defectSlot ++ le 1 r.fpnSlot ++ le 1 r.shadingA ++ le 1 r.shadingB ++ le 2 r.blend ++ le 4 s.boundDynDefects
      ++ le 4 (s.tables.defects.getD r.defectSlot []).length ++ le 4 (counterOf d (u16 c.b 0) 0) ++ le 4 (counterOf d (u16 c.b 0) 2))

/-- The colour pipeline and its branches (R203 to R226): each set changes the stream's or the branch's settings when its commit applies, LUT loads fill
a slot at once or select one, and BRANCH_QUERY answers. -/
def Obligations.ColourCommands : Prop :=
  Settles .demosaicSet specDemosaicSet (fun c => onColour c.stream fun x => { x with method := u8 c.b 2, highlight := u8 c.b 3 }) ∧
  Settles .colourSpaceSet specColourSpaceSet (fun c => onColour c.stream fun x =>
    if c.stream < 16 then { x with working := u8 c.b 2 }
    else { x with working := u8 c.b 2, inTransfer := u8 c.b 3, inPrimaries := u8 c.b 4, inYcc := u8 c.b 5, inRange := u8 c.b 6, inChroma := u8 c.b 7
                  inScale := u32 c.b 8 }) ∧
  Settles .matrixSet specMatrixSet (fun c d =>
    let m : Matrix := { coeffs := u32s c.b 4 12, offset := u32s c.b 52 3, builtin := u8 c.b 3 }
    match u8 c.b 2 with
    | 0 => onColour c.stream (fun x => { x with camera := m }) d
    | 1 => onBranch (u16 c.b 0) (fun x => { x with m1 := m }) d
    | _ => onBranch (u16 c.b 0) (fun x => { x with m2 := m }) d) ∧
  Settles .cdlSet specCdlSet (fun c => onBranch (u16 c.b 0) fun x =>
    { x with cdl := { enable := bit (u8 c.b 2) 0, clamp := bit (u8 c.b 2) 1, space := u8 c.b 3, slope := u32s c.b 4 3, offset := u32s c.b 16 3
                      power := u32s c.b 28 3, sat := u32 c.b 40 } }) ∧
  Settles .transferSet specTransferSet (fun c => onBranch (u16 c.b 0) fun x => { x with transfer := u8 c.b 2, scale := u32 c.b 4 }) ∧
  Settles .lut1dLoad specLut1dLoad (fun c => onBranch (u16 c.b 0) fun x =>
    if u8 c.b 4 = 0 then { x with pre := lutSlot (u8 c.b 3) } else { x with post := lutSlot (u8 c.b 3) }) ∧
  Runs .lut1dLoad specLut1dLoad (fun c d =>
    let size := 16384 * u8 c.b 5
    let l := pailRead d (u32 c.b 8) (u32 c.b 12) size
    (d.onStream c.stream fun s => { s with luts := { s.luts with lut1 := tabMod s.luts.lut1 (u8 c.b 3) fun _ =>
      { channels := u8 c.b 5, dmin := u32 c.b 16, dmax := u32 c.b 20, entries := u32s l 0 (size / 4) } } }, .ok)) ∧
  Settles .lut3dLoad specLut3dLoad (fun c => onBranch (u16 c.b 0) fun x => { x with lut3 := lutSlot (u8 c.b 3) }) ∧
  Runs .lut3dLoad specLut3dLoad (fun c d =>
    let l := u16s (pailRead d (u32 c.b 4) (u32 c.b 8) lut3Bytes) 0 (lut3Bytes / 2)
    (d.onStream c.stream fun s => { s with luts := { s.luts with lut3 := tabMod s.luts.lut3 (u8 c.b 3) fun _ => l } }, .ok)) ∧
  Settles .branchConfig specBranchConfig (fun c d =>
    let o := u16 c.b 0
    let old := branchSet d o
    let new := readBranch c.b old
    if [old.format, old.outW, old.outH, old.depth, old.pail] = [new.format, new.outW, new.outH, new.depth, new.pail] then onBranch o (fun _ => new) d
    else onRingOf o (OutRing.replace old.pail) (onBranch o (fun _ => new) d)) ∧
  Settles .branchScalerSet specBranchScalerSet (fun c => onBranch (u16 c.b 0) fun x =>
    { x with kernelH := u8 c.b 2, kernelV := u8 c.b 3
             coeffs := if scalerLength c.b = 8 then [] else (List.range 512).map fun k => i16 c.b (8 + 2 * k) }) ∧
  Settles .branchEnable specBranchEnable (fun c d =>
    let o := u16 c.b 0
    let on : Bool := u8 c.b 2 = 1
    if on then setCounter o 0 0 (setCounter o 1 0 (onBranch o (fun x => { x with enable := on }) d)) else onBranch o (fun x => { x with enable := on }) d) ∧
  Answers .branchQuery specBranchQuery (fun c d =>
    let o := u16 c.b 0
    let x := branchSet d o
    let r := ringOf d o
    let dec := match srcSize d (branchOf o).1 with
      | some (w, h) => let q := x.crop w h; (decimation q.2.2.1 x.outW, decimation q.2.2.2 x.outH)
      | none => (1, 1)
    le 1 (boolNat x.enable) ++ le 1 x.cls ++ le 1 x.format ++ le 1 0 ++ le 2 x.outW ++ le 2 x.outH ++ le 1 dec.1 ++ le 1 dec.2 ++ le 1 x.transfer
      ++ le 1 (x.lut3.getD 0xFF) ++ le 1 (x.pre.getD 0xFF) ++ le 1 (x.post.getD 0xFF) ++ le 2 0 ++ le 4 r.lastEpoch ++ le 8 r.lastFrame
      ++ le 4 (counterOf d o 0) ++ le 4 (counterOf d o 1))

/-- Statistics, taps and the motion field (R197, R234, R236, R242 to R246). -/
def Obligations.StatisticsAndMotionCommands : Prop :=
  Settles .statsConfig specStatsConfig statsSettle ∧
  Settles .statsZonesSet specStatsZonesSet (fun c => onStats c.stream fun x =>
    { x with zoneX := u16 c.b 4, zoneY := u16 c.b 6, zoneW := u16 c.b 8, zoneH := u16 c.b 10 }) ∧
  Settles .tapConfig specTapConfig (fun c d =>
    let n := c.stream
    let p := u8 c.b 2
    let old := tapSet d n p
    let new := readTap c.b old
    if old.format = new.format && old.depth = new.depth && old.pail = new.pail && tapSlotOf d n p old = tapSlotOf d n p new then onTap n p (fun _ => new) d
    else onRingOf (tapRef n p) (OutRing.replace old.pail) (onTap n p (fun _ => new) d)) ∧
  Settles .tapEnable specTapEnable (fun c d =>
    let t := onTap c.stream (u8 c.b 2) (fun t => { t with enable := u8 c.b 3 = 1 }) d
    if u8 c.b 3 = 1 then onRingOf (tapRef c.stream (u8 c.b 2)) (fun r => { r with skips := 0 }) t else t) ∧
  Answers .statsQuery specStatsQuery (fun c d =>
    let s := d.stream c.stream
    let t := s.settings
    le 1 (boolNat t.stats.enable + 2 * boolNat t.stats.notify) ++ le 1 t.stats.cls
      ++ le 1 (sumOf (fun e => if e.2.enable then 2 ^ e.1 else 0) (indexed t.taps)) ++ le 1 0 ++ le 8 s.statsRing.lastFrame ++ le 4 s.statsRing.lastEpoch
      ++ le 4 (counterOf d (u16 c.b 0) 8) ++ s.tapRings.flatMap fun r => le 4 (min r.skips (2 ^ 32 - 1))) ∧
  Settles .motionConfig specMotionConfig (fun c => onMotion c.stream fun x => { x with enable := bit (u8 c.b 2) 0, weights := u16s c.b 4 5 }) ∧
  Settles .motionSearchSet specMotionSearchSet (fun c => onMotion c.stream fun x =>
    { x with range3 := u8 c.b 2, refine := u8 c.b 3, lambda := u16 c.b 4, sadReject := u16 c.b 6, temporal := bit (u8 c.b 8) 0
             spatial := bit (u8 c.b 8) 1 }) ∧
  Settles .motionExport specMotionExport (fun c d =>
    let old := (d.stream c.stream).settings.motion
    let t := onMotion c.stream (fun x => { x with exportOn := bit (u8 c.b 2) 0, exportDepth := u8 c.b 3, exportPail := u32 c.b 4 }) d
    if old.exportPail = u32 c.b 4 && old.exportDepth = u8 c.b 3 then t else t.onStream c.stream fun s => { s with exportNext := 0 }) ∧
  Answers .motionQuery specMotionQuery (fun c d =>
    fieldHeader c.stream (d.stream c.stream).lastComplete ++ le 4 (counterOf d (u16 c.b 0) 6) ++ le 4 (counterOf d (u16 c.b 0) 7))

/-- Encoder sessions (R250, R267, R273 to R291): ENC_OPEN takes the lowest free session of its codec and gives it to the sender, ENC_CLOSE ends one after
its frames in progress or at once, the settings change at commits, and ENC_QUERY answers. -/
def Obligations.EncoderCommands : Prop :=
  (∀ i : Nat, RunsWhere .encOpen specEncOpen (fun c d =>
      (if u8 c.b 0 = 0 then List.range 64 else (List.range 32).map (64 + ·)).find? (encoderFree d) = some i) fun c d =>
    (giveOwner (0x5000 + i) c.session (clearCounters (0x5000 + i)
      (d.onCodecs fun x => { x with encoders := mapSet x.encoders i (freshEncoder (u8 c.b 0)) })), .ok (le 2 (0x5000 + i) ++ le 2 0))) ∧
  Runs .encClose specEncClose (fun c d =>
    let i := objIndex (u16 c.b 0)
    let d := if u8 c.b 2 = 1 then (c.encoder d).frames.foldl (fun d f => dropEncFrame i f.number d) d else d
    let t := settleClosing i (dropOwner (u16 c.b 0) (d.onEncoder i fun e => { e with closing := true }))
    (match encoderStream (c.encoder t) with
      | some n => settleReleased n t
      | none => t, .ok)) ∧
  Settles .encXsConfig specEncXsConfig xsSettle ∧
  Settles .encConfig specEncConfig encSettle ∧
  Settles .encRcSet specEncRcSet rcSettle ∧
  Settles .encForceIrap specEncForceIrap (fun c d => d.onEncoder (objIndex (u16 c.b 0)) fun e => { e with forceIdr := e.codec ≠ 0 }) ∧
  Settles .encBind specEncBind (fun c d => d.onEncoder (objIndex (u16 c.b 0)) fun e =>
    let l := e.consumers.filter (· ≠ u16 c.b 2)
    { e with consumers := if u8 c.b 4 = 1 then l ++ [u16 c.b 2] else l }) ∧
  Answers .encQuery specEncQuery (fun c d =>
    let e := c.encoder d
    le 1 e.codec ++ le 1 e.cls ++ le 1 (if !e.configured then 0 else if e.frames.isEmpty then 1 else 2) ++ le 1 e.consumers.length
      ++ le 2 (if e.codec = 0 then e.xs.source else e.enc.source) ++ le 2 0 ++ le 8 e.ring.lastFrame ++ le 4 e.ring.lastEpoch
      ++ (List.range 6).flatMap (fun k => le 4 (counterOf d (u16 c.b 0) k)) ++ le 4 e.level)

/-- Decoder sessions (R297, R307, R309): DEC_OPEN opens the lowest free session for the sender, DEC_SUBMIT copies a unit into the input queue, DEC_FLUSH
drains or discards, DEC_CLOSE ends, DEC_BIND binds at its commit, and DEC_QUERY answers. -/
def Obligations.DecoderCommands : Prop :=
  (∀ i : Nat, RunsWhere .decOpen specDecOpen (fun _ d => newDecoder d = some i) fun c d =>
    (giveOwner (0x6000 + i) c.session (clearCounters (0x6000 + i) (d.onCodecs fun x => { x with decoders := mapSet x.decoders i (readDecoder c.b) })),
     .ok (le 2 (0x6000 + i) ++ le 2 0))) ∧
  Runs .decClose specDecClose (fun c d =>
    let i := objIndex (u16 c.b 0)
    let e := dropOwner (u16 c.b 0) (d.onDecoder i fun q => { q with closing := true })
    (settleDecoder i (settleDrain i (if u8 c.b 2 = 1 then dropUnits i e else e)), .ok)) ∧
  Runs .decSubmit specDecSubmit (fun c d =>
    let i := objIndex (u16 c.b 0)
    let u : DecUnit := { bytes := u32 c.b 12, ptsSeconds := u48 c.b 16, ptsNs := u32 c.b 24, discontinuity := bit (u16 c.b 2) 0
                         endOfStream := bit (u16 c.b 2) 1, data := pailRead d (u32 c.b 4) (u32 c.b 8) (u32 c.b 12) }
    let q := (mapGet (submitUnit i u d).codecs.decoders i).getD {}
    (submitUnit i u d, .ok (le 2 q.queue.length ++ le 4 (q.inKib * 1024 - q.inUse)))) ∧
  Runs .decFlush specDecFlush (fun c d =>
    let i := objIndex (u16 c.b 0)
    let d := if u8 c.b 2 = 1 then d.onDecoder i fun q => { q with
        queue := [], good := none, pictures := (q.pictures.filter (·.slot.isSome)).map fun x => { x with reference := false } } else d
    let q := (mapGet d.codecs.decoders i).getD {}
    if q.queue.isEmpty && q.decoding.isNone then (d, .ok) else (d.onDecoder i fun q => { q with draining := some c.pending }, .pending)) ∧
  Settles .decBind specDecBind decBindSettle ∧
  Answers .decQuery specDecQuery (fun c d =>
    let q := c.decoder d
    le 1 q.codec ++ le 1 q.cls ++ le 1 (if q.draining.isSome then 2 else if q.decoding.isSome then 1 else 0) ++ le 1 q.consumers.length
      ++ le 2 q.queue.length ++ le 2 0 ++ le 8 q.ring.lastFrame ++ leInt 4 q.lastGood ++ (List.range 8).flatMap fun k => le 4 (counterOf d (u16 c.b 0) k))

/-- Rasters and SDI inputs (R311 to R333): timing with the cut it raises (R322), outputs, groups and checks change a raster at once; planes, reduced
refresh and fill change the shadow set at commits; RASTER_START and RASTER_STOP; RASTER_QUERY answers. -/
def Obligations.RasterCommands : Prop :=
  Runs .rasterTimingSet specRasterTimingSet (fun c d =>
    let t := readTiming c.b
    let cut := max (c.raster d).cut (minCut t)
    (d.onRaster (objIndex (u16 c.b 0)) fun r => { r with timing := t, cut }, .ok (le 2 cut ++ le 2 0))) ∧
  Runs .rasterCommitCutSet specRasterCommitCutSet (fun c d => (d.onRaster (objIndex (u16 c.b 0)) fun r => { r with cut := u16 c.b 2 }, .ok)) ∧
  Settles .rasterPlaneSet specRasterPlaneSet (fun c d => d.onRaster (objIndex (u16 c.b 0)) fun r =>
    let r := { r with planes := tabMod r.planes (u8 c.b 2) fun _ => readPlane c.b, changed := true }
    { r with lineCheck := if r.running then recheckPlanes d r else [] }) ∧
  Runs .rasterOutputSet specRasterOutputSet (fun c d =>
    let o := readOutput c.b
    (d.onRaster (objIndex (u16 c.b 0)) fun r =>
      let l := r.outputs.filter fun x => x.output ≠ o.output
      { r with outputs := if u8 c.b 3 = 1 then (l.filter fun x => x.output < o.output) ++ o :: (l.filter fun x => x.output > o.output) else l }, .ok)) ∧
  Runs .rasterGroupSet specRasterGroupSet (fun c d =>
    let g := u8 c.b 0
    let m := if u8 c.b 1 = 0 then 0 else u16 c.b 2
    let join := fun (e : Nat × Raster) =>
      if bit m e.1 then { e.2 with group := some g } else if e.2.group = some g then { e.2 with group := none } else e.2
    (d.onDisplay fun p => { p with groups := tabMod p.groups g fun _ => { kind := u8 c.b 1, members := m }
                                   rasters := (indexed p.rasters).map join }, .ok)) ∧
  Runs .rasterCrcSet specRasterCrcSet (fun c d => (d.onRaster (objIndex (u16 c.b 0)) fun r => { r with crcOn := u8 c.b 2 = 1 }, .ok)) ∧
  Settles .rasterRefreshSet specRasterRefreshSet (fun c d => d.onRaster (objIndex (u16 c.b 0)) fun r =>
    { r with refresh := u8 c.b 2 = 1, nUnchanged := u8 c.b 3, refreshK := 0, unchangedRun := 0, changed := true }) ∧
  Settles .rasterUnderrunSet specRasterUnderrunSet (fun c d => d.onRaster (objIndex (u16 c.b 0)) fun r => { r with fill := u8 c.b 2, changed := true }) ∧
  Runs .sdiRxConfig specSdiRxConfig (fun c d => (d.onDisplay fun p => { p with sdiIn := tabMod p.sdiIn (u8 c.b 0) fun s =>
      let on : Bool := u8 c.b 1 = 1
      let same : Bool := s.enabled && on && s.pail = u32 c.b 4 && s.depth = u8 c.b 2
      { s with enabled := on, locked := s.locked && on, depth := u8 c.b 2, domain := u8 c.b 3, pail := u32 c.b 4, holdFrames := u16 c.b 8
               ring := if same then s.ring else s.ring.replace (if s.enabled then s.pail else 0) } }, .ok)) ∧
  Answers .rasterQuery specRasterQuery (fun c d =>
    let r := c.raster d
    let o := u16 c.b 0
    le 1 (boolNat r.running) ++ le 1 (r.group.getD 0xFF) ++ le 1 r.refreshK ++ le 1 0 ++ le 8 (counterOf d o 8) ++ le 4 r.latchEpoch
      ++ leInt 4 r.gridError ++ (List.range 8).flatMap (fun k => le 4 (counterOf d o k)) ++ r.outputs.flatMap fun x => x.units.flatMap fun u =>
        le 1 u ++ le 3 0 ++ le 4 (mapGetD x.checks u {}).composited ++ le 4 (mapGetD x.checks u {}).loopback) ∧
  Runs .rasterStart specRasterStart (fun c d =>
    ((rasterPeers d (objIndex (u16 c.b 0))).foldl (beginRaster (firstStart d (c.raster d) c.time)) d,
     .ok (fullTimeBytes (fullTime (firstStart d (c.raster d) c.time))))) ∧
  Runs .rasterStop specRasterStop (fun c d =>
    ((rasterPeers d (objIndex (u16 c.b 0))).foldl (fun (d : Dev) i =>
      if !(d.raster i).running then d
      else if u8 c.b 2 = 1 || (d.raster i).frame = 0 then haltRaster i d
      else d.onRaster i fun r => { r with stopping := true }) d, .ok))

/-- Time domains and launches (R340, R344, R346, R348, R350, R351, R353, R355). -/
def Obligations.TimeCommands : Prop :=
  Runs .tdConfig specTdConfig (fun c d => (tdConfigAct c d, .ok)) ∧
  Answers .tdQuery specTdQuery (fun c d =>
    let td := c.td
    let dm := d.domain td
    let p : Ptp := if td ≤ 3 then tabGet d.time.ptp td else {}
    let th := if dm.state.held then (d.now - dm.heldSince) / 1000000 else 0
    let words := (d.time.ltc.words.flatMap fun w => le 8 w.bits ++ le 4 w.stamp) ++ List.replicate 192 0
    le 1 dm.state.code ++ le 1 (refsValid d td) ++ le 2 0 ++ fullTimeBytes (fullTime (domainNow d td)) ++ leInt 4 dm.rate ++ leInt 4 dm.error ++ le 4 th
      ++ le 8 p.grandmaster ++ le 2 p.steps ++ leInt 2 p.utcOffset ++ le 1 (boolNat p.leap61 + 2 * boolNat p.leap59 + 4 * boolNat p.utcValid)
      ++ le 1 p.activePort ++ (List.range 4).flatMap (fun k => le 4 (counterOf d (domainObj td) k)) ++ le 4 (pendingPeriod d td)
      ++ (if td = 4 then words.take 192 else [])) ∧
  Runs .ptpConfig specPtpConfig (fun c d => (d.onTime fun t => { t with ptp := tabMod t.ptp c.td fun _ =>
    { configured := true, profile := u8 c.b 2, domain := u8 c.b 3, portA := u8 c.b 4, portB := u8 c.b 5, ipv6 := bit (u8 c.b 6) 0
      hybrid := bit (u8 c.b 6) 1, announceTimeout := u8 c.b 7, lockNs := u32 c.b 8, activePort := u8 c.b 4 } }, .ok)) ∧
  Runs .genlockConfig specGenlockConfig (fun c d => ((d.onTime fun t => { t with genlock :=
    { configured := true, hPolarity := u8 c.b 0, fPolarity := u8 c.b 1, fEvery := u8 c.b 2, bandwidth := u8 c.b 3, lines := u32 c.b 4
      rateNum := u32 c.b 8, rateDen := u32 c.b 12, fOffsetNs := i32 c.b 16 } }).onDomain 4 fun dm =>
        { dm with rateNum := u32 c.b 8, rateDen := u32 c.b 12 }, .ok)) ∧
  Settles .ltcConfig specLtcConfig (fun c d => d.onTime fun t =>
    { t with ltc := if u8 c.b 0 = 0 then { t.ltc with input := readLtc c.b, ref := {}, lastFrame := none } else { t.ltc with output := readLtc c.b } }) ∧
  Settles .tdRateCommit specTdRateCommit (fun c d => match acceptRate d with
    | none => d
    | some (num, den) =>
      if u8 c.b 2 = 1 && (d.domain 4).state = .ratePending then
        let clean := fun (r : RefInput) => { r with changed := false, lost := false, goodRun := 0, intervals := [], lastValid := r.lastEdge }
        let g := { d.time.genlock with rateNum := num, rateDen := den, inputH := clean d.time.genlock.inputH, inputF := clean d.time.genlock.inputF }
        setDomain 4 .acquiring 0 ((d.onTime fun t => { t with genlock := g }).onDomain 4 fun dm =>
          { dm with rateNum := num, rateDen := den, commitStep := true, phaseRun := 0 })
      else d) ∧
  Runs .timeAnchorConfig specTimeAnchorConfig (fun c d =>
    let pps := u8 c.b 3
    let free := fun (dm : Domain) => if pps ≠ 0 && dm.pps = pps then { dm with pps := 0 } else dm
    ((d.onTime fun t => { t with domains := t.domains.map free }).onDomain c.td fun dm =>
      { dm with anchorOn := u8 c.b 2 = 1, pps, ppsWidth := u32 c.b 4 }, .ok)) ∧
  (∀ i : Nat, RunsWhere .launchSchedule specLaunchSchedule (fun c d => u8 c.b 2 ≠ 0xF ∧ freeLaunchId d = some i) fun c d =>
    let l := readLaunch i c
    let t := d.onTime fun t => { t with launches := t.launches ++ [l] }
    (if l.time < domainNow t l.domain + 100000 then fireLaunch false t l else t, .ok (le 2 i ++ le 2 0))) ∧
  (∀ l : Launch, RunsWhere .launchSchedule specLaunchSchedule (fun c d =>
      u8 c.b 2 = 0xF ∧ (d.time.launches.find? fun l => l.id = u16 c.b 4) = some l) fun _ d =>
    (launchMissed l 2 (d.onTime fun t => { t with launches := t.launches.filter fun x => x.id ≠ l.id }), .ok (le 2 l.id ++ le 2 0)))

/-- Ethernet ports, flows and the UDP transport's filter (R358 to R370). -/
def Obligations.NetworkCommands : Prop :=
  Runs .macConfig specMacConfig (fun c d =>
    let p := u8 c.b 0
    let drop : Bool := (tabGet d.net.ports p).link && (tabGet d.net.ports p).speed ≠ u8 c.b 1
    let t := d.onNet fun n => { n with ports := tabMod n.ports p fun x =>
      { x with speed := u8 c.b 1, fec := u8 c.b 2, mtu := u16 c.b 4, vlan := u16 c.b 6, ipv4 := beAt c.b 8 4, ipv4Prefix := u8 c.b 12
               ipv6Prefix := u8 c.b 13, ipv6 := beAt c.b 16 16, gateway := beAt c.b 32 4, link := x.link && !drop } }
    (if drop then linkState p false (u8 c.b 1) t else t, .ok)) ∧
  (∀ k : Nat, RunsWhere .flowSendCreate specFlowSendCreate (fun _ d => newFlow d 0 = some k) fun c d =>
    (giveOwner (0x8000 + k) c.session (clearCounters (0x8000 + k) (d.onNet fun n => { n with flows := mapSet n.flows k { config := readFlow c.b } })),
     .ok (le 2 (0x8000 + k) ++ le 2 0))) ∧
  (∀ k : Nat, RunsWhere .flowRecvCreate specFlowRecvCreate (fun _ d => newFlow d 64 = some k) fun c d =>
    (giveOwner (0x8000 + k) c.session (clearCounters (0x8000 + k) (d.onNet fun n => { n with flows := mapSet n.flows k { config := readFlow c.b } })),
     .ok (le 2 (0x8000 + k) ++ le 2 0))) ∧
  Runs .flowDelete specFlowDelete (fun c d => (deleteFlow (flowKey (u16 c.b 0)) d, .ok)) ∧
  Settles .flowBind specFlowBind (fun c d => (dropSending (flowKey (u16 c.b 0)) d).onFlow (flowKey (u16 c.b 0)) fun f =>
    { f with bindKind := u8 c.b 2, bindInput := u8 c.b 3, bindObject := u16 c.b 4, bindPail := u32 c.b 8, bound := true }) ∧
  Settles .flowStart specFlowStart (fun c d => startFlow (flowKey (u16 c.b 0)) d) ∧
  Settles .flowStop specFlowStop (fun c d => stopFlow (flowKey (u16 c.b 0)) (u8 c.b 2) d) ∧
  Answers .flowQuery specFlowQuery (fun c d =>
    le 1 (boolNat (c.flow d).running) ++ le 3 0 ++ le 4 (c.flow d).extSeq ++ (List.range 8).flatMap fun k => le 4 (counterOf d (u16 c.b 0) k)) ∧
  Runs .udpControlSet specUdpControlSet (fun c d =>
    (d.onUdp fun u => { u with ports := u8 c.b 0, udpPort := u16 c.b 2, filterAddr := beAt c.b 4 16, filterPrefix := u8 c.b 20 }, .ok))

/-- Serial audio ports and sample clocks (R374 to R387). -/
def Obligations.AudioCommands : Prop :=
  Runs .sapConfig specSapConfig (fun c d => (sapConfigAct c d, .ok)) ∧
  Settles .sapSlotMap specSapSlotMap (fun c d => d.onPort c.portIx fun p =>
    { p with pendingMap := some ((List.range (u8 c.b 2)).foldl (fun m i => m.set (u8 c.b (4 + 2 * i)) (u8 c.b (5 + 2 * i)))
        (p.pendingMap.getD p.slotMap)) }) ∧
  Runs .sapGroupSet specSapGroupSet (fun c d =>
    let g := u8 c.b 0
    let m := u16 c.b 2
    let join := fun (e : Nat × AudioPort) =>
      if bit m e.1 then { e.2 with group := some g } else if e.2.group = some g then { e.2 with group := none } else e.2
    (d.onAudio fun a => { a with groups := tabMod a.groups g fun _ => { leader := u8 c.b 1, members := m }, ports := (indexed a.ports).map join }, .ok)) ∧
  Runs .sapClockSet specSapClockSet (fun c d =>
    (d.onAudio fun a => { a with scgs := tabMod a.scgs (u8 c.b 0) fun _ =>
        { enable := u8 c.b 1 = 1, source := u8 c.b 2, rate := u8 c.b 3, mclk := u16 c.b 4 } },
     .ok (le 8 (if u8 c.b 1 = 1 then dividerMilliHz (u16 c.b 4 * rateHz (u8 c.b 3)) else 0)))) ∧
  Runs .asrcConfig specAsrcConfig (fun c d =>
    let t := d.onPort c.portIx fun x => { x with asrc := { x.asrc with enable := u8 c.b 2 = 1, bandwidth := u8 c.b 3, outRate := u8 c.b 4 } }
    (setAsrc c.portIx (boolNat (u8 c.b 2 = 1)) (nominalRatio (t.port c.portIx).config (u8 c.b 4)) t, .ok)) ∧
  Settles .audioEmbedSet specAudioEmbedSet (fun c d =>
    let e : Embed := { output := u8 c.b 0, link := u8 c.b 1, port := objIndex (u16 c.b 4), first := u8 c.b 6, count := u8 c.b 7, sdiFirst := u8 c.b 8
                       delayUs := u32 c.b 12 }
    d.onAudio fun a =>
      let l := a.embeds.filter fun x => !(x.output = e.output && x.link = e.link && x.port = e.port && x.sdiFirst = e.sdiFirst)
      { a with embeds := if u8 c.b 2 = 1 then l ++ [e] else l }) ∧
  Runs .sapRestart specSapRestart (fun c d => (d.onPort c.portIx fun x =>
    if x.state = .running then { x with state := .restarting, restartReason := 1, flushed := false, zeroed := 0 } else x, .ok)) ∧
  Answers .sapQuery specSapQuery (fun c d =>
    let p := d.port c.portIx
    le 1 p.state.code ++ le 1 (p.group.getD 0xFF) ++ le 1 p.asrc.state ++ le 1 0 ++ le 4 p.measuredMilliHz ++ leInt 4 p.offsetPpb
      ++ le 8 p.sampleIndex ++ le 4 p.edgeStamp ++ le 4 p.asrc.ratio ++ (List.range 5).flatMap fun k => le 4 (counterOf d (u16 c.b 0) k))

/-- Pails (R416 to R430): PAIL_ALLOC and PAIL_IMPORT_HOST make a pail of the lowest free index and pages and answer its handle, an import of
more than 4,096 pages waits for its page list, PAIL_FREE retires the handle and answers its references, PAIL_QUERY and PAIL_MAP answer. -/
def Obligations.PailCommands : Prop :=
  (∀ (i : Nat) (l : List Nat), RunsWhere .pailAlloc specPailAlloc (fun c d => newPailIndex d = some i ∧
      allocPages d (roundUp (u64 c.b 0) (if bit (u16 c.b 8) 0 then 0x200000 else 0x10000)) (bit (u16 c.b 8) 0) = some l) fun c d =>
    let large := bit (u16 c.b 8) 0
    let t := makePail i c.session { large, size := roundUp (u64 c.b 0) (if large then 0x200000 else 0x10000), pages := l } d
    (t, .ok (pailReply t i))) ∧
  (∀ i : Nat, RunsWhere .pailImportHost specPailImportHost (fun _ d => newPailIndex d = some i) fun c d =>
    let f := u16 c.b 16
    let p : Pail := { host := true, size := u64 c.b 0, readOnly := bit f 0, noSnoop := bit f 1, relaxed := bit f 2, writable := !bit f 0 }
    if u64 c.b 0 / 65536 ≤ 4096 then
      let t := makePail i c.session { p with pages := pageList d (u64 c.b 8) (u64 c.b 0 / 65536) } d
      (t, .ok (pailReply t i))
    else
      let t := makePail i c.session { p with importing := some (c.pending, u64 c.b 8) } d
      (t, .pending (pailReply t i))) ∧
  Runs .pailFree specPailFree (fun c d =>
    let h := u32 c.b 0
    (freePail (h % 2 ^ 24) d, .ok (le 1 (boolNat (pailRefs d h ≠ 0)) ++ le 3 0 ++ le 4 (pailRefs d h)))) ∧
  Answers .pailQuery specPailQuery (fun c d => if u32 c.b 0 = 0 then pailDeviceQuery d else pailHandleQuery d (u32 c.b 0)) ∧
  Answers .pailMap specPailMap (fun c d =>
    let p := ((mappedPail d (u32 c.b 0)).getD (0, {})).2
    let off := u64 c.b 4
    let entry := (pageEntry d (p.dva + off)).getD 0
    le 8 (p.dva + off) ++ le 8 (entryAddr entry + off % p.pageSize) ++ le 1 (boolNat p.large) ++ le 1 (boolNat (bit entry 3)) ++ le 2 0)

/-- DMA channels (R436 to R450): configuration at a commit with progress back to 0 (R445), a sheaf queued with the references it takes, pause, resume,
abort and query; a pause and an abort that flush writes to the host answer PENDING and complete (R446). -/
def Obligations.DmaCommands : Prop :=
  Settles .dmaChannelConfig specDmaChannelConfig (fun c d => d.onChannel c.chan fun h =>
    { h with cls := u8 c.b 2, weight := u8 c.b 3, rateMbps := u32 c.b 4, levelMode := u8 c.b 8, watch := u32 c.b 12, watchOff := u32 c.b 16
             progressPail := u32 c.b 20, progressOff := u32 c.b 24, startMark := u32 c.b 28, stopMark := u32 c.b 32, window := u32 c.b 36, progress := 0
             tokens := 65536, tokensDst := 65536, tokensAt := d.now, credit := 0 }) ∧
  Runs .dmaSheafSubmit specDmaSheafSubmit (fun c d =>
    let h := d.channel c.chan
    let s : Sheaf := { number := h.nextSheaf, cookie := u32 c.b 20, first := u32 c.b 16, descriptors := (sheafBlocks d c.b).map readDescriptor
                       pails := sheafPails d c.b }
    let start : Bool := h.state = .idle
    let t := assignMovers (d.onChannel c.chan fun h =>
      { h with sheaves := h.sheaves ++ [s], nextSheaf := h.nextSheaf % 65535 + 1, state := if start then .running else h.state
               pos := if h.sheaves.isEmpty then { descriptor := s.first } else h.pos })
    if u16 c.b 2 > 512 then (completeCmd c.pending .ok t, .pending) else (t, .ok (le 2 s.number ++ le 2 h.sheaves.length))) ∧
  Runs .dmaPause specDmaPause (fun c d =>
    let e := drainChannel c.chan d
    let t := pauseChannel c.chan e
    let reply := slice (channelBytes t c.chan) 8 20
    if (e.channel c.chan).wroteHost then (completeCmd c.pending .ok t, .pending reply) else (t, .ok reply)) ∧
  Runs .dmaResume specDmaResume (fun c d => (resumeChannel c.chan (u8 c.b 2) d, .ok)) ∧
  Runs .dmaAbort specDmaAbort (fun c d =>
    let e := drainChannel c.chan d
    let t := abortChannel c.chan (u8 c.b 2) e
    let reply := le 2 t.2 ++ le 2 0
    if (e.channel c.chan).wroteHost then (completeCmd c.pending .ok t.1, .pending reply) else (t.1, .ok reply)) ∧
  Answers .dmaQuery specDmaQuery (fun c d => channelBytes d c.chan)

/-- The magazine's commands (R452, R458, R464 to R477): queries answer, a format and an eject wait for the media, a reel is created in the lowest free
extents and given to its creator, deleted or exposed, and recordings start and stop at commits. -/
def Obligations.MagazineCommands : Prop :=
  Answers .magQuery specMagQuery (fun _ d =>
    let m := d.mag
    let p : Pack := if magUsable d then m.pack else { dies := [] }
    let erases := (p.blocks.filter fun e => !e.2.retired).map fun e => e.2.erases
    le 1 m.state.code ++ le 1 (boolNat m.worn + 2 * boolNat m.freeLow) ++ le 1 (fewestDies p) ++ le 1 0 ++ le 2 (sumOf id p.dies) ++ le 2 p.reels.length
      ++ le 8 p.rawBytes ++ le 8 p.exported ++ le 8 p.map.length ++ le 2 (freeShare p) ++ le 2 0 ++ le 4 (nandCapacity d) ++ le 4 (rep32 (loadOf d).dem.nand)
      ++ le 4 p.retired ++ le 4 (maxOf id erases)
      ++ le 4 (if p.blocks.length < sumOf id p.dies * p.blocksPerDie then 0 else erases.foldl min (maxOf id erases)) ++ le 16 p.uuid) ∧
  Runs .magFormat specMagFormat (fun c d => (d.onMag fun m => { m with format := some c.pending }, .pending)) ∧
  Runs .magEject specMagEject (fun c d =>
    let t := d.onMag fun m => { m with state := if m.state = .mounted then .ejecting else m.state, eject := some c.pending }
    if t.mag.state = .ejecting then (settleMag ((t.mag.recordings.map (·.reel)).foldl (fun d n => stopRecording n 0 2 0 none d) t), .pending)
    else (completeCmd c.pending .ok (t.onMag fun m => { m with state := .absent, powerOn := false, eject := none }), .pending)) ∧
  (∀ (n : Nat) (e : List (Nat × Nat)), RunsWhere .reelCreate specReelCreate (fun c d =>
      d.mag.state = .mounted ∧ d.mag.pack.formatted = true ∧ d.mag.format = none ∧ freeNsid d = some n ∧ allocAcres d.mag.pack (u64 c.b 0 / 64) = some e) fun c d =>
    (giveOwner (reelObj n) c.session (createReel n (u64 c.b 0) (u32 c.b 8) e (slice c.b 16 32) d),
     .ok (le 2 (reelObj n) ++ le 2 0 ++ le 4 0 ++ le 8 (dataLbaOf (u32 c.b 8))))) ∧
  Runs .reelDelete specReelDelete (fun c d => (settleMag (deleteReel 0 c.nsid d), .ok)) ∧
  Settles .reelRecordStart specReelRecordStart (fun c d => startRecording c.nsid c.session (readTracks c.b) (slice c.b 4 32) none d) ∧
  Settles .reelRecordStop specReelRecordStop (fun c d => settleMag (stopRecording c.nsid (u8 c.b 2) 0 c.txn
    (if d.ctl.commits.any fun x => x.txn = c.txn && x.op = 0x1006 then some c.pending else none) d)) ∧
  Answers .clipQuery specClipQuery (fun c d =>
    let clip := ((reelOf d c.nsid).bind fun r => r.clips.find? fun x => x.clip = u32 c.b 4).getD {}
    clip.bytes ++ le 8 (match recordingOf d c.nsid with
      | some r => if r.clip = clip.clip then r.durable else clip.records
      | none => clip.records)) ∧
  Runs .reelExpose specReelExpose (fun c d => (setExposure c.nsid (u8 c.b 2) 0 d, .ok))

/-- Faults and frame memory (R413, R414, R503, R512 to R516): the queries answer, FAILOVER_FORCE pauses the module with its own reply in the journal,
to be sent by the standby complex, and RANK_RETIRE sets a threshold or takes a rank out of service. -/
def Obligations.FaultAndRankCommands : Prop :=
  Answers .faultQuery specFaultQuery (fun _ d =>
    let f := d.faults
    le 1 (activeComplex d) ++ le 1 (standbyCode d) ++ le 1 (fencedLanes d) ++ le 1 f.lastBootCause ++ le 4 f.failovers ++ le 1 f.lastTrigger ++ le 3 0
      ++ le 4 f.lastPauseUs ++ le 2 f.replayed ++ le 2 (d.fabric.drills.filter fun x => x.lost).length ++ le 4 f.repairs ++ le 4 (counterOf d 0 10)) ∧
  (∀ (p : Packet) (s : State) (q : Request) (d : Dev), immediate (.failoverForce p) s specFailoverForce = some (q, d) →
    let c := contextOf d q
    let r : Request := { op := c.op, pkt := { time := c.time, endpoint := c.endpoint, session := c.sid, seq := c.seq, params := c.b } }
    exec (.failoverForce p) s = .next (s.set (pauseControl
      (d.onFaults fun f => { f with groups := f.groups ++ [{ request := r, reply := some { op := c.op, session := c.sid, seq := c.seq } }] })))) ∧
  (∃ age : Nat → Nat, (∀ k, age k ≤ 10) ∧ Runs .yokeStatus specYokeStatus (fun _ d =>
    ((takeFree d).2, .ok ((d.faults.lanes.flatMap fun l => le 1 (boolNat l.fenced) ++ le 1 0 ++ le 2 l.disagreements) ++ le 4 (age d.free)
      ++ le 4 d.faults.lockstepMismatches ++ le 4 d.faults.standbyVersion ++ le 1 d.faults.stickyCause ++ le 3 0)))) ∧
  Answers .drillQuery specDrillQuery (fun _ d => (List.range 12).flatMap fun f =>
    le 1 (workingDrills d f) ++ le 1 0 ++ le 2 (tabGet d.fabric.fields f).admitted
      ++ le 4 (sumOf (fun p => if (tabGet d.fabric.drills (32 * f + p)).lost then 2 ^ p else 0) (List.range 32))) ∧
  Answers .faultLogRead specFaultLogRead (fun c d =>
    let log := d.faults.log.reverse
    let got := (if u32 c.b 0 = 0 then log else log.dropWhile fun r => r.seq ≠ u32 c.b 0).take (u16 c.b 4)
    le 2 got.length ++ le 2 0 ++ le 4 ((log.head?.map (·.seq)).getD 0) ++ le 4 ((log.getLast?.map (·.seq)).getD 0) ++ got.flatMap FaultRecord.bytes) ∧
  Answers .rankQuery specRankQuery (fun _ d =>
    let h := d.hbm
    let entry := fun (e : Nat × Rank) => le 1 e.2.state.code ++ le 1 0 ++ le 2 ((slotOf d e.1).getD 0xFFFF) ++ le 2 (counterOf d (rankObj e.1) 0)
      ++ le 2 e.2.threshold ++ le 2 (counterOf d (rankObj e.1) 1) ++ le 2 (counterOf d (rankObj e.1) 2) ++ le 2 (counterOf d (rankObj e.1) 3) ++ le 2 0
    (h.stackStates.flatMap (fun s => leInt 2 s.temp) ++ h.stackStates.flatMap (fun s => le 1 s.multiple) ++ le 1 (fallowRanks d).length
      ++ le 1 (match h.migration with
        | some m => m.source
        | none => 0xFF) ++ le 4 (match h.migration with
        | some m => m.bits
        | none => 0) ++ le 2 (regionMib * h.regions) ++ le 1 (h.scrubLine * 100 / scrubSteps) ++ le 1 0) ++ (indexed h.ranks).flatMap entry) ∧
  Runs .rankRetire specRankRetire (fun c d =>
    if u8 c.b 2 = 1 then (d.onRank (objIndex (u16 c.b 0)) fun r => { r with threshold := u16 c.b 4, raised := false }, .ok)
    else (leaveService (objIndex (u16 c.b 0)) (some c.pending) d, .pending))

/-- Events, telemetry, counters and the gleaner (R522 to R533): EVENT_READ moves the session's cursor past what it answers, COUNTER_READ_CLEAR answers
the values before it clears, both after HBM traffic is counted in device counter 5 (Table 23.3), and the other reads change nothing. -/
def Obligations.LongRunCommands : Prop :=
  Runs .eventRingSet specEventRingSet (fun c d => (d.onEvents fun e => { e with ringFilter := filterAt c.b 0 4, coalesceUs := u16 c.b 2 }, .ok)) ∧
  (∀ x : Session, RunsWhere .eventFilterSet specEventFilterSet (fun c d => mapGet d.ctl.sessions c.session = some x) fun c d =>
    ((d.onCtl fun y => { y with sessions := mapSet y.sessions c.session { x with filter := filterAt c.b 0 4 } }).onEvents fun e =>
      { e with int0Holder := if bit (u8 c.b 1) 0 then some c.session else if e.int0Holder = some c.session then none else e.int0Holder }, .ok)) ∧
  (∀ x : Session, RunsWhere .eventRead specEventRead (fun c d => mapGet d.ctl.sessions c.session = some x) fun c d =>
    let start := max x.cursor (((oldestEvent d.events).map (·.index)).getD d.events.next)
    let got := readEvents x.filter (u16 c.b 0) ((d.events.records.takeWhile fun r => r.index ≥ start).reverse) start
    (d.onCtl fun y => { y with sessions := mapSet y.sessions c.session { x with cursor := got.2 } },
     .ok (le 2 got.1.length ++ le 2 0 ++ le 4 (min (2 ^ 32 - 1) (start - x.cursor)) ++ got.1.flatMap EventRec.bytes))) ∧
  Answers .telemetryRead specTelemetryRead (fun c d =>
    let all := d.gleaner.samples.reverse
    let got := (if u32 c.b 0 = 0xFFFFFFFF then all.drop (all.length - 1) else all.dropWhile fun s => s.index ≠ u32 c.b 0).take (u8 c.b 4)
    le 2 got.length ++ le 2 0 ++ le 4 ((all.head?.map (·.index)).getD 0) ++ got.flatMap TelemetrySample.bytes) ∧
  Answers .gleanQuery specGleanQuery (fun _ d => le 2 6 ++ le 2 0 ++ (List.range 6).flatMap fun t =>
    let x := tabGet d.gleaner.tasks t
    le 1 t ++ le 1 (boolNat x.behind) ++ le 2 x.share ++ le 2 (taskProgress d t) ++ le 2 0 ++ leInt 4 (taskMs d t) ++ le 4 x.chunks) ∧
  Runs .counterRead specCounterRead (fun c d => (countTraffic d c.b, .ok (counterReply (countTraffic d c.b) c.b))) ∧
  Runs .counterReadClear specCounterReadClear (fun c d =>
    let t := countTraffic d c.b
    ((List.range (u8 c.b 3)).foldl (fun d i => clearCounter ((counterObject t c.b).getD 0) (u8 c.b 2 + i) d) t, .ok (counterReply t c.b)))

/-- Firmware and resets (R547 to R550): an update marks its slot unbootable, takes data and is checked, FW_ACTIVATE prefers the updated slot under
TRIAL and schedules a warm reset, DEVICE_RESET schedules a reset, and FW_INFO answers. ROLLBACK_COMMIT with ADVANCE blows counter bits, none of which
fails, until the counter equals the running image's index; where that index is below the counter, the counter stays; the answer is OK with the
counter, and TRIAL ends. -/
def Obligations.FirmwareCommands : Prop :=
  Answers .fwInfo specFwInfo (fun _ d =>
    let b := d.boot
    le 1 b.running ++ le 1 b.mode ++ le 1 b.resetKind ++ le 1 (boolNat b.directory.trial) ++ le 4 b.runningImage.version ++ le 1 b.runningImage.rollback
      ++ le 1 b.fuseRollback ++ le 1 b.directory.trialCount ++ le 1 0 ++ ((List.range 2).flatMap fun i =>
        let s := tabGet b.slots i
        le 1 (boolNat s.bootable) ++ le 1 s.result ++ le 2 0 ++ le 4 s.image.version ++ le 1 s.image.rollback ++ le 3 0) ++ le 4 b.bootMs) ∧
  Runs .fwUpdateBegin specFwUpdateBegin (fun c d =>
    let i := updateSlot d.boot
    ((d.onSlot i fun _ => { bootable := false, result := 1 }).onBoot fun b =>
      { b with update := some { slot := i, length := u32 c.b 0, erasing := some c.pending } }, .pending (le 1 i ++ le 3 0))) ∧
  (∀ u : FwUpdate, RunsWhere .fwUpdateData specFwUpdateData (fun _ d => d.boot.update = some u) fun c d =>
    (d.onSlot u.slot fun s => { s with bytes := (u32 c.b 0, c.b.drop 8) :: s.bytes }, .ok)) ∧
  Runs .fwUpdateEnd specFwUpdateEnd (fun c d =>
    (d.onBoot fun b => { b with update := b.update.map fun u => { u with checking := some c.pending } }, .pending)) ∧
  Runs .fwActivate specFwActivate (fun _ d =>
    let t := orderMagazine d
    (scheduleReset 2 (t.onBoot fun b => b.putDirectory { b.directory with preferred := updateSlot t.boot, trial := true, trialCount := 0 }.write), .ok)) ∧
  Runs .deviceReset specDeviceReset (fun c d => (if u8 c.b 2 = 0 then scheduleReset 2 (orderMagazine d) else scheduleReset 1 d, .ok)) ∧
  let trialOver := fun b : Boot => if b.directory.trial then b.putDirectory { b.directory with trial := false, trialCount := 0 }.write else b
  RunsWhere .rollbackCommit specRollbackCommit
    (fun c d => bit (u8 c.b 0) 0 = true ∧ ∀ k ∈ d.boot.fuses.weakBits, k < d.boot.fuseRollback ∨ d.boot.runningImage.rollback ≤ k)
    (fun _ d => (d.onBoot fun b => { trialOver b with fuseRollback := max b.fuseRollback b.runningImage.rollback },
      .ok (le 1 (max d.boot.fuseRollback d.boot.runningImage.rollback) ++ le 3 0))) ∧
  RunsWhere .rollbackCommit specRollbackCommit (fun c _ => bit (u8 c.b 0) 0 = false)
    (fun _ d => (d.onBoot trialOver, .ok (le 1 d.boot.fuseRollback ++ le 3 0)))

/-! ## Rows of the outside world

`Happens mk cond eff`: at any instant at which no thermal trip stands and `cond` holds, the row leaves exactly the module that `eff` gives;
`HappensAlways` holds during a thermal trip too. -/

/-- The SPI target and its boot ROM commands (R82, R83, R545): a packet's first 24 bytes are its header and the rest its parameters, a packet
shorter than a header or cut short by its select sets overrun and is counted, a reply is clocked out after a dummy byte and its length and leaves its FIFO once
it is read whole, a read of the status word clears overrun; BOOT_STATUS clocks the boot ROM's state out, BOOT_WRITE places data in boot memory, and BOOT_GO runs
an image that passes its checks and states the result of one that does not. -/
def Obligations.SpiRows : Prop :=
  let taken := fun (n : Nat) (d : Dev) => clockOut (List.replicate n 0xFF) d
  (∀ bs : List Byte, HappensAlways (fun t => .writePacket t bs) (fun d => d.boot.ready = true ∧ bs.length < 24) (fun d =>
    count 0 2 1 ((taken bs.length d).onSpi fun x => { x with overrun := true }))) ∧
  (∀ bs : List Byte, HappensAlways (fun t => .writePacket t bs) (fun d => d.boot.ready = true ∧ 24 ≤ bs.length) (fun d =>
    let q := slotRequest bs
    spiArrives { q with pkt := { q.pkt with len := bs.length, time := d.now, endpoint := .spi, params := bs.drop 24 } } (taken bs.length d))) ∧
  (∀ (n : Nat) (r : List Byte) (l : List (List Byte)), HappensAlways (fun t => .readReply t n)
    (fun d => d.boot.ready = true ∧ d.spi.replies = r :: l ∧ r.length ≤ n) (fun d =>
      drainAll (flushSpi (d.onSpi fun x => { x with replies := l, out := [0xFF] ++ le 2 r.length ++ (r ++ List.replicate n 0xFF).take n })))) ∧
  (∀ (n : Nat) (r : List Byte) (l : List (List Byte)), HappensAlways (fun t => .readReply t n)
    (fun d => d.boot.ready = true ∧ d.spi.replies = r :: l ∧ n < r.length) (fun d =>
      d.onSpi fun x => { x with out := [0xFF] ++ le 2 r.length ++ (r ++ List.replicate n 0xFF).take n })) ∧
  HappensAlways .readStatus (fun d => d.boot.ready = true) (fun d => d.onSpi fun x => { x with overrun := false, out := [0xFF, byte (spiStatus d)] }) ∧
  HappensAlways .spiCsTimeout (fun d => d.boot.ready = true) (fun d => count 0 2 1 (d.onSpi fun x => { x with overrun := true })) ∧
  HappensAlways .bootStatus (fun d => romRuns d = true) (fun d => d.onSpi fun x =>
    { x with out := [0xFF] ++ (le 1 d.boot.rom.state ++ le 1 d.boot.rom.result ++ le 2 0 ++ le 4 d.boot.rom.received) }) ∧
  (∀ (off : Nat) (data : List Byte), HappensAlways (fun t => .bootWrite t off data)
    (fun d => romRuns d = true ∧ fatal d = false ∧ (d.boot.rom.state = 1 ∨ d.boot.rom.state = 4)
      ∧ off % 4 = 0 ∧ off < 0x1800000 ∧ within data.length 4 4096 = true ∧ data.length % 4 = 0)
    (fun d => d.onBoot fun b => { b with rom := { state := 1, result := 0
                                                  received := (if b.rom.state = 4 then 0 else b.rom.received) + data.length
                                                  written := (off, data) :: b.rom.written } })) ∧
  (∀ (n : Nat) (im : ImageIn),
    let image := fun d : Dev => imageOf ((List.range 4096).map fun a => pieceByte d.boot.rom.written (byte (Config.freeNat d.free a)) a) (min n 0x1800000) im
    let runs := fun d : Dev => romRuns d = true ∧ fatal d = false ∧ (d.boot.rom.state = 1 ∨ d.boot.rom.state = 4)
    HappensAlways (fun t => .bootGo t n im) (fun d => runs d ∧ verifyImage d.boot (image d) = 0) (fun d =>
      let e := (takeFree d).2
      logPast e (commandReady { slot := 2, image := image d, directory := d.boot.directory } d.boot.disabledChannels (d.faults.standby ≠ .failed) e)) ∧
    HappensAlways (fun t => .bootGo t n im) (fun d => runs d ∧ verifyImage d.boot (image d) ≠ 0) (fun d =>
      (takeFree d).2.onBoot fun b => { b with rom := { b.rom with state := 4, result := verifyImage d.boot (image d) } }))

/-- BAR0 (R75 to R79, R530): where BAR0 answers, INT_STATUS clears the bits written as 1, a disabled ring that is enabled starts with its pointers at 0,
or stops with error 3 where its size or a base is not allowed, a pointer beyond a running ring's size stops it with error 1, SQ_TAIL posts the requests
from SQ_HEAD on and CQ_HEAD frees replies for those that wait, EV_HEAD frees event records, INT_MASK and the event ring's registers take what is written, and the rest of BAR0's first
64 bytes is read-only. Where BAR0 does not answer, a write is lost. -/
def Obligations.Bar0Rows : Prop :=
  (∀ v : Nat, HappensAlways (fun t => .intStatusWrite t v) (fun d => bar0Answers d = true) (fun d =>
    d.onBar0 fun b => { b with intStatus := b.intStatus &&& ~~~ BitVec.ofNat 32 v })) ∧
  (∀ (i : Fin 16) (v : Nat),
    let turned := fun d : Dev => d.onRing i fun r =>
      { r with ctrl := 1, sqTail := 0, sqHead := 0, cqTail := 0, cqHead := 0, status := 0, posted := [], waiting := [] }
    let sound := fun r : Ring => (within (bits r.size.toNat 3 0) 2 10 && r.sqBaseLo.toNat % 4096 == 0 && r.cqBaseLo.toNat % 4096 == 0) = true
    HappensAlways (fun t => .ringCtrlWrite t i v) (fun d => bar0Answers d = true ∧ bit v 0 = false) (fun d => d.onRing i fun r => { r with ctrl := 0 }) ∧
    HappensAlways (fun t => .ringCtrlWrite t i v) (fun d => bar0Answers d = true ∧ d.bar0.rings.length = 16 ∧ bit v 0 = true
      ∧ bit (d.ring i).ctrl.toNat 0 = false ∧ sound (d.ring i)) turned ∧
    HappensAlways (fun t => .ringCtrlWrite t i v) (fun d => bar0Answers d = true ∧ d.bar0.rings.length = 16 ∧ bit v 0 = true
      ∧ bit (d.ring i).ctrl.toNat 0 = false ∧ ¬sound (d.ring i)) (fun d => stopRing i 3 (turned d)) ∧
    HappensAlways (fun t => .ringCtrlWrite t i v) (fun d => bar0Answers d = true ∧ bit v 0 = true ∧ bit (d.ring i).ctrl.toNat 0 = true)
      (fun d => d.onRing i fun r => { r with ctrl := 1 }) ∧
    let head := fun d : Dev => d.onRing i fun r => { r with cqHead := BitVec.ofNat 32 v }
    let tail := fun d : Dev => d.onRing i fun r => { r with sqTail := BitVec.ofNat 32 v }
    let runs := fun d : Dev => bar0Answers d = true ∧ (d.ring i).runs = true
    HappensAlways (fun t => .cqHeadWrite t i v) (fun d => runs d ∧ v < (d.ring i).slots) (fun d => drainAll (flushRing i (head d))) ∧
    HappensAlways (fun t => .cqHeadWrite t i v) (fun d => runs d ∧ (d.ring i).slots ≤ v) (fun d => stopRing i 1 (head d)) ∧
    HappensAlways (fun t => .cqHeadWrite t i v) (fun d => bar0Answers d = true ∧ (d.ring i).runs = false) head ∧
    HappensAlways (fun t => .sqTailWrite t i v) (fun d => runs d ∧ v < (d.ring i).slots) (fun d =>
      let head := (d.ring i).sqHead.toNat
      let known := (d.ring i).posted.length
      let n := (v + (d.ring i).slots - head) % (d.ring i).slots
      drainAll (d.onRing i fun r =>
        { r with sqTail := BitVec.ofNat 32 v
                 posted := (d.ring i).posted.take n ++ (List.range (n - known)).map fun j => readSlot d i ((head + known + j) % (d.ring i).slots) })) ∧
    HappensAlways (fun t => .sqTailWrite t i v) (fun d => runs d ∧ (d.ring i).slots ≤ v) (fun d => stopRing i 1 (tail d)) ∧
    HappensAlways (fun t => .sqTailWrite t i v) (fun d => bar0Answers d = true ∧ (d.ring i).runs = false) tail ∧
    HappensAlways (fun t => .sqTailWrite t i v) (fun d => bar0Answers d = false) id) ∧
  (∀ v : Nat, HappensAlways (fun t => .evHeadWrite t v) (fun d => bar0Answers d = true) (fun d =>
    ringCopy (d.onBar0 fun b => { b with evHead := BitVec.ofNat 32 v }))) ∧
  (∀ off v : Nat, HappensAlways (fun t => .bar0RegisterWrite t off v) (fun d => bar0Answers d = true ∧ off < 0x30) (fun d =>
    if off = 0x10 then d.onBar0 fun b => { b with intStatus := b.intStatus &&& ~~~ BitVec.ofNat 32 v }
    else if off = 0x14 then d.onBar0 fun b => { b with intMask := BitVec.ofNat 32 v }
    else if off = 0x20 then d.onBar0 fun b => { b with evBaseLo := BitVec.ofNat 32 v }
    else if off = 0x24 then d.onBar0 fun b => { b with evBaseHi := BitVec.ofNat 32 v }
    else if off = 0x28 then d.onBar0 fun b => { b with evSize := BitVec.ofNat 32 (v % 32) } else d) ∧
    HappensAlways (fun t => .bar0RegisterWrite t off v) (fun d => bar0Answers d = false) id) ∧
  (∀ v : Nat, HappensAlways (fun t => .intStatusWrite t v) (fun d => bar0Answers d = false) id)

/-- Admin commands complete (R479 to R485, R490, R492): in a module that is command-ready, not fatal and not in a fail-over pause each admin command is executed
in its own step, on the conditions named here alone: queues are created and deleted, logs, identification and features are answered, a waiting
command is aborted, an event request waits or takes the event that waits, a reel is made, deleted, attached or detached, and any other opcode
completes with Invalid Command Opcode. -/
def Obligations.NvmeAdminRows : Prop :=
  let admin := fun (s : State) (t : Nat) (d : Dev) => Awake s t d ∧ d.boot.ready = true ∧ fatal d = false ∧ d.faults.paused = false
  ∀ (s : State) (t : Nat) (d : Dev) (cid : Nat), admin s t d →
  (∀ qid size cq prio : Nat, 1 ≤ qid → qid ≤ 64 → mapGet d.nvme.sqs qid = none → mapGet d.nvme.cqs cq ≠ none → 2 ≤ size → size ≤ 4096 → prio ≤ 3 →
    exec (.createIoSq t cid qid size cq prio) s
      = .next (s.set (nvmeComplete 0 cid nvmeOk (d.onNvme fun n => { n with sqs := mapSet n.sqs qid { cq, prio, size } })))) ∧
  (∀ qid size : Nat, 1 ≤ qid → qid ≤ 64 → mapGet d.nvme.cqs qid = none → 2 ≤ size → size ≤ 4096 →
    exec (.createIoCq t cid qid size) s = .next (s.set (nvmeComplete 0 cid nvmeOk (d.onNvme fun n => { n with cqs := mapSet n.cqs qid size })))) ∧
  (∀ qid : Nat, mapGet d.nvme.sqs qid ≠ none →
    exec (.deleteIoSq t cid qid) s = .next (s.set (nvmeComplete 0 cid nvmeOk (d.onNvme fun n =>
      { n with sqs := mapDel n.sqs qid, flushes := n.flushes.filter fun f => f.sqid ≠ qid, blocked := n.blocked.filter fun e => e.1 ≠ qid
               staged := n.staged.map fun w => if w.sqid = qid then { w with orphan := !w.acked } else w })))) ∧
  (∀ qid : Nat, mapGet d.nvme.cqs qid ≠ none → (∀ e ∈ d.nvme.sqs, e.2.cq ≠ qid) →
    exec (.deleteIoCq t cid qid) s = .next (s.set (nvmeComplete 0 cid nvmeOk (d.onNvme fun n => { n with cqs := mapDel n.cqs qid })))) ∧
  (∀ (nsid bytes : Nat) (rae : Bool),
    exec (.getLogPage t cid 0x01 nsid bytes rae) s = .next (s.set (nvmeComplete 0 cid nvmeOk d (data := (errorPage d).take bytes))) ∧
    exec (.getLogPage t cid 0x04 nsid bytes rae) s = .next (s.set (nvmeComplete 0 cid nvmeOk
      (if rae then d else d.onNvme fun n => { n with changed := [] }) (data := (nsidList d.nvme.changed).take bytes))) ∧
    exec (.getLogPage t cid 0xC0 nsid bytes rae) s = .next (s.set (nvmeComplete 0 cid nvmeOk
      (if rae then d else d.onNvme fun n =>
        { n with errors := (n.errors.take ((bytes - 16) / 32)).filter (fun e => !e.reportedFlush) ++ n.errors.drop ((bytes - 16) / 32), errorsLost := 0 })
      (data := (le 4 d.nvme.errors.length ++ le 4 d.nvme.errorsLost ++ le 8 0 ++ d.nvme.errors.flatMap DeferredError.bytes).take bytes))) ∧
    exec (.getLogPage t cid 0xC1 nsid bytes rae) s = .next (s.set (nvmeComplete 0 cid nvmeOk d
      (data := (le 4 d.nvme.unrecovered.length ++ le 4 d.nvme.unrecoveredLost ++ le 8 0
        ++ d.nvme.unrecovered.flatMap fun e => le 4 e.1 ++ le 4 0 ++ le 8 e.2).take bytes)))) ∧
  (∀ nsid : Nat,
    exec (.identify t cid 0x01 nsid) s = .next (s.set (nvmeComplete 0 cid nvmeOk (takeFree d).2 (data := identifyController d.free))) ∧
    exec (.identify t cid 0x02 nsid) s
      = .next (s.set (nvmeComplete 0 cid nvmeOk (takeFree d).2 (data := nsidList (nsidsAbove (takeFree d).2 nsid (· ≠ 0))))) ∧
    exec (.identify t cid 0x10 nsid) s
      = .next (s.set (nvmeComplete 0 cid nvmeOk (takeFree d).2 (data := nsidList (nsidsAbove (takeFree d).2 nsid fun _ => true)))) ∧
    ∀ r : Reel, reelOf d nsid = some r →
      exec (.identify t cid 0x00 nsid) s = .next (s.set (nvmeComplete 0 cid nvmeOk (takeFree d).2
        (data := if modeOf d r = 0 then List.replicate 4096 0 else identifyNamespace d.free (modeOf d r) r))) ∧
      exec (.identify t cid 0x11 nsid) s = .next (s.set (nvmeComplete 0 cid nvmeOk (takeFree d).2 (data := identifyNamespace d.free (modeOf d r) r)))) ∧
  (∀ target : Nat, target ∈ d.nvme.aers →
    exec (.abort t cid 0 target) s = .next (s.set (nvmeComplete 0 cid nvmeOk
      (nvmeComplete 0 target { sc := 7 } (d.onNvme fun n => { n with aers := n.aers.filter (· ≠ target) }))))) ∧
  (∀ sqid target : Nat, ¬(sqid = 0 ∧ target ∈ d.nvme.aers) →
    exec (.abort t cid sqid target) s = .next (s.set (
      if ∃ f ∈ d.nvme.flushes, f.sqid = sqid ∧ f.cid = target then
        nvmeComplete 0 cid nvmeOk (nvmeComplete sqid target { sc := 7 } (d.onNvme fun n =>
          { n with flushes := n.flushes.filter fun f => !(f.sqid == sqid && f.cid == target) }))
      else nvmeComplete 0 cid nvmeOk d (dw0 := 1)))) ∧
  (∀ fid v : Nat, fid ∈ featureIds →
    exec (.setFeatures t cid fid v) s = .next (s.set (if fid = 7 then nvmeComplete 0 cid nvmeOk d (dw0 := 0x3F003F)
      else nvmeComplete 0 cid nvmeOk (d.onNvme fun n => { n with features := mapSet n.features fid (v % 2 ^ 32) }))) ∧
    exec (.getFeatures t cid fid) s = .next (s.set (nvmeComplete 0 cid nvmeOk d (dw0 := if fid = 7 then 0x3F003F else mapGetD d.nvme.features fid 0)))) ∧
  (d.nvme.aers.length < 4 → d.nvme.aerPending = [] →
    exec (.asynchronousEventRequest t cid) s = .next (s.set (d.onNvme fun n => { n with aers := n.aers ++ [cid] }))) ∧
  (∀ (a b c : Nat) (l : List (Nat × Nat × Nat)), d.nvme.aers.length < 4 → d.nvme.aerPending = (a, b, c) :: l →
    exec (.asynchronousEventRequest t cid) s = .next (s.set (nvmeEvent a b c (d.onNvme fun n => { n with aers := n.aers ++ [cid], aerPending := l })))) ∧
  (∀ (n nsze : Nat) (e : List (Nat × Nat)), nsze % 64 = 0 → nsze ≠ 0 → d.mag.state = .mounted → d.mag.pack.formatted = true → freeNsid d = some n →
    allocAcres d.mag.pack (nsze / 64) = some e →
    exec (.namespaceManagementCreate t cid nsze nsze 0) s = .next (s.set (nvmeComplete 0 cid nvmeOk (createReel n nsze 1024 e [] d) (dw0 := n)))) ∧
  (∀ (nsid : Nat) (r : Reel), reelOf d nsid = some r →
    (recordingOf d nsid = none →
      exec (.namespaceManagementDelete t cid nsid) s = .next (s.set (nvmeComplete 0 cid nvmeOk (settleMag (deleteReel 1 nsid d))))) ∧
    (modeOf d r = 0 → exec (.namespaceAttachmentAttach t cid nsid) s = .next (s.set (nvmeComplete 0 cid nvmeOk (setExposure nsid 2 1 d)))) ∧
    (modeOf d r ≠ 0 → exec (.namespaceAttachmentDetach t cid nsid) s = .next (s.set (nvmeComplete 0 cid nvmeOk (setExposure nsid 0 1 d))))) ∧
  exec (.invalidCommandOpcode t 0 cid) s = .next (s.set (nvmeComplete 0 cid (.generic 1) d))

/-- I/O commands complete (R480 to R482, R486, R487, R490, R492, R494), and the controller is disabled: a command that can be fetched from a queue that exists runs in its own
step, on the conditions named here alone. A Read answers its blocks, a Write, Write Zeroes and Dataset Management stage what they change, a Flush waits for
what was acknowledged before it, and CONTROLLER_DISABLE deletes every I/O queue and leaves staged writes to become durable. -/
def Obligations.NvmeIoRows : Prop :=
  ∀ (s : State) (t : Nat) (d : Dev), Awake s t d →
  (∀ (sqid cid nsid slba nlb : Nat) (r : Reel),
    let fetched := mapGet d.nvme.sqs sqid ≠ none ∧ ∀ e ∈ d.nvme.blocked, e.1 ≠ sqid
    let accepts := fun (last n : Nat) (w : Bool) => ioRefusal d nsid last n w = none ∧ nsid ∉ d.nvme.latched ∧ reelOf d nsid = some r
    let e := takeTurn sqid d
    fetched →
    (accepts slba nlb false → (∀ e ∈ d.nvme.unrecovered, ¬(e.1 = nsid ∧ slba ≤ e.2 ∧ e.2 < slba + nlb)) →
      exec (.read t sqid cid nsid slba nlb) s
        = .next (s.set (nvmeComplete sqid cid nvmeOk (count (reelObj nsid) 4 nlb (passDies r slba nlb e)) (data := readBlocks e r slba nlb)))) ∧
    (∀ (data : List Byte) (fua : Bool), accepts slba nlb true → bufferRoom d (.write nsid slba nlb data fua) = true →
      exec (.write t sqid cid nsid slba nlb data fua) s = .next (s.set (
        let x := stageBlocks 1 r slba ((data ++ List.replicate (nlb * blockBytes) 0).take (nlb * blockBytes)) e
        stageHost sqid cid nsid slba nlb fua x.2 (count (reelObj nsid) 5 nlb x.1)))) ∧
    (accepts slba nlb true →
      exec (.writeZeroes t sqid cid nsid slba nlb) s = .next (s.set (
        let x := deallocBlocks nsid r slba nlb e
        stageHost sqid cid nsid slba nlb false x.2 x.1))) ∧
    (accepts 0 0 false → nsid ≠ 0xFFFFFFFF →
      exec (.flush t sqid cid nsid) s = .next (s.set (settleMag (e.onNvme fun n => { n with
        flushes := n.flushes ++ [{ sqid, cid, nsid, writes := (n.staged.filter fun w => flushes nsid w.nsid && w.acked).map (·.order) }] })))) ∧
    (∀ l : List (Nat × Nat), accepts (maxOf (fun e => e.1 + e.2) l) 0 true →
      exec (.datasetManagement t sqid cid nsid l true) s = .next (s.set (settleMag (placeFull (nvmeComplete sqid cid nvmeOk
        (l.foldl (fun d e => (deallocBlocks nsid r e.1 e.2 d).1) e)))))) ∧
    (sqid ≠ 0 → exec (.invalidCommandOpcode t sqid cid) s = .next (s.set (nvmeComplete sqid cid (.generic 1) e)))) ∧
  exec (.controllerDisable t) s = .next (s.set (d.onNvme fun n =>
    { n with cqs := [], sqs := [], flushes := [], aers := [], aerPending := [], features := ({} : Nvme).features, held := [], blocked := [], turn := {}
             staged := n.staged.map fun w => { w with orphan := !w.acked } }))

/-- Where an NVMe command is refused, and where it waits (R480, R481, R485 to R487): the statuses of queues that exist already or not at all, of unsupported
features and CNS values, and of a fifth event request; in a fail-over pause a command waits, and before command-ready or after a
fatal condition it is not executed. An I/O command to a namespace that does not take it is answered with its status, and a Write for which the staging
buffer has no room is not fetched. -/
def Obligations.NvmeRefusals : Prop :=
  (∀ (s : State) (t : Nat) (d : Dev) (cid : Nat), Awake s t d → d.boot.ready = true → fatal d = false → d.faults.paused = false →
    let answers := fun (c : Instr) (st : NvmeStatus) => exec c s = .next (s.set (nvmeComplete 0 cid st d))
    (∀ qid size cq prio : Nat,
      (qid < 1 ∨ 64 < qid ∨ mapGet d.nvme.sqs qid ≠ none → answers (.createIoSq t cid qid size cq prio) { sct := 1, sc := 1, dnr := true }) ∧
      (1 ≤ qid → qid ≤ 64 → mapGet d.nvme.sqs qid = none → mapGet d.nvme.cqs cq = none →
        answers (.createIoSq t cid qid size cq prio) { sct := 1, sc := 0, dnr := true }) ∧
      (1 ≤ qid → qid ≤ 64 → mapGet d.nvme.sqs qid = none → mapGet d.nvme.cqs cq ≠ none → (size < 2 ∨ 4096 < size) →
        answers (.createIoSq t cid qid size cq prio) { sct := 1, sc := 2, dnr := true }) ∧
      (qid < 1 ∨ 64 < qid ∨ mapGet d.nvme.cqs qid ≠ none → answers (.createIoCq t cid qid size) { sct := 1, sc := 1, dnr := true })) ∧
    (∀ qid : Nat,
      (mapGet d.nvme.sqs qid = none → answers (.deleteIoSq t cid qid) { sct := 1, sc := 1, dnr := true }) ∧
      (mapGet d.nvme.cqs qid = none → answers (.deleteIoCq t cid qid) { sct := 1, sc := 1, dnr := true }) ∧
      (mapGet d.nvme.cqs qid ≠ none → (∃ e ∈ d.nvme.sqs, e.2.cq = qid) → answers (.deleteIoCq t cid qid) { sct := 1, sc := 0x0C, dnr := true })) ∧
    (∀ fid v : Nat, fid ∉ featureIds → answers (.setFeatures t cid fid v) invalidField ∧ answers (.getFeatures t cid fid) invalidField) ∧
    (∀ cns nsid : Nat, cns ∉ [0x00, 0x01, 0x02, 0x03, 0x10, 0x11, 0x12] →
      exec (.identify t cid cns nsid) s = .next (s.set (nvmeComplete 0 cid invalidField (takeFree d).2))) ∧
    (4 ≤ d.nvme.aers.length → answers (.asynchronousEventRequest t cid) { sct := 1, sc := 5, dnr := true }) ∧
    (∀ nsid : Nat, reelOf d nsid = none →
      answers (.namespaceManagementDelete t cid nsid) invalidNamespace ∧ answers (.namespaceAttachmentAttach t cid nsid) invalidNamespace
        ∧ answers (.namespaceAttachmentDetach t cid nsid) invalidNamespace)) ∧
  (∀ (s : State) (t : Nat) (d : Dev) (cid qid : Nat), Awake s t d →
    (d.boot.ready = false ∨ fatal d = true →
      exec (.deleteIoSq t cid qid) s = .next (s.set d) ∧ exec (.deleteIoCq t cid qid) s = .next (s.set d)) ∧
    (d.boot.ready = true → fatal d = false → d.faults.paused = true →
      exec (.deleteIoSq t cid qid) s = .next (s.set (d.onNvme fun n => { n with held := n.held ++ [(cid, .deleteSq qid)] })) ∧
      exec (.deleteIoCq t cid qid) s = .next (s.set (d.onNvme fun n => { n with held := n.held ++ [(cid, .deleteCq qid)] })))) ∧
  ∀ (s : State) (t : Nat) (d : Dev) (sqid cid nsid slba nlb : Nat) (st : NvmeStatus), Awake s t d → mapGet d.nvme.sqs sqid ≠ none →
    (∀ e ∈ d.nvme.blocked, e.1 ≠ sqid) →
    (ioRefusal d nsid slba nlb false = some st →
      exec (.read t sqid cid nsid slba nlb) s = .next (s.set (nvmeComplete sqid cid st (takeTurn sqid d)))) ∧
    (ioRefusal d nsid slba nlb true = some st →
      exec (.writeZeroes t sqid cid nsid slba nlb) s = .next (s.set (nvmeComplete sqid cid st (takeTurn sqid d)))) ∧
    ∀ (data : List Byte) (fua : Bool),
      (bufferRoom d (.write nsid slba nlb data fua) = true → ioRefusal d nsid slba nlb true = some st →
        exec (.write t sqid cid nsid slba nlb data fua) s = .next (s.set (nvmeComplete sqid cid st (takeTurn sqid d)))) ∧
      (bufferRoom d (.write nsid slba nlb data fua) = false →
        exec (.write t sqid cid nsid slba nlb data fua) s
          = .next (s.set (d.onNvme fun n => { n with blocked := n.blocked ++ [(sqid, cid, .write nsid slba nlb data fua)] })))

/-- Resets complete (R515, R536, R543, R547, R569): whatever the module did, a power-on and a cold reset reset everything that no reset keeps and boot as the boot
pins say, with TD5 started anew; a warm reset boots in the mode it had, unless a thermal trip stands; RESET_N held for 10 µs, and VAON leaving its range, reset
the module and hold it; a reset of the PCIe endpoint clears function 0's registers but DEV_STATUS and, unless only function 0 is reset, function 1's queues. -/
def Obligations.ResetRows : Prop :=
  ∀ (s : State) (t : Nat),
  let d := s.dev.clock t
  let started := fun (kind : Nat) (b : BootInputs) =>
    ((resetDev kind (d.onBoot fun x => { x with vaon := true })).onBoot fun x => { x with mode := bootMode b.bootMode }).onDomain 5
      fun x => { x with base := 0, anchor := d.now }
  (∀ b : BootInputs, exec (.powerOnReset t b) s = .next (s.set (bootFrom b (started 0 b)))) ∧
  (∀ b : BootInputs, exec (.coldReset t b) s = .next (s.set (bootFrom b (started 1 b)))) ∧
  (∀ b : BootInputs, d.faults.thermalTrip = false →
    exec (.warmReset t b) s = .next (s.set (bootFrom b (resetDev 2 (d.onBoot fun x => { x with vaon := true }))))) ∧
  (∀ ns : Nat, 10000 ≤ ns → exec (.resetNLow t ns) s = .next (s.set ((resetDev 1 d).onBoot fun b => { b with resetHeld := true, vaon := true }))) ∧
  (∀ ns : Nat, ns < 10000 → exec (.resetNLow t ns) s = .next (s.set d)) ∧
  exec (.vaonOutOfRange t) s = .next (s.set ((resetDev 0 d).onBoot fun b => { b with resetHeld := true, vaon := false })) ∧
  (∀ kind : Nat, 2 ≤ kind → exec (.pcieEndpointReset t kind) s = .next (s.set (d.onBar0 fun b => { devStatus := b.devStatus }))) ∧
  (∀ kind : Nat, kind < 2 → within d.faults.fatalCause 1 3 = false →
    exec (.pcieEndpointReset t kind) s = .next (s.set ((controllerDisable d).onBar0 fun b => { devStatus := b.devStatus }))) ∧
  ∀ kind : Nat, kind < 2 → within d.faults.fatalCause 1 3 = true →
    exec (.pcieEndpointReset t kind) s = .next (s.set
      (((controllerDisable d).onBar0 fun b => { devStatus := b.devStatus }).onBoot fun b => { b with pendingReset := some (2, d.now) }))

/-- Leases, closed sessions, idle transactions and datagram reassembly (R68, R69, R70, R80, R110): what each does when its time has come, and that it does nothing
before. -/
def Obligations.TimerRows : Prop :=
  (∀ (i : Nat) (x : Session),
    let free := fun d : Dev => (∀ r, d.fabric.raise = some r → r.session ≠ i) ∧ ∀ w, d.mag.startWait = some w → sessionIndex w.1.pkt.session ≠ i
    Happens (fun t => .leaseExpiry t i) (fun d => mapGet d.ctl.sessions i = some x ∧ x.deadline < d.now ∧ firmwareRuns d = true ∧ free d)
      (fun d => drainAll (closeSession i 1 x.policy d)) ∧
    Happens (fun t => .leaseExpiry t i) (fun d => mapGet d.ctl.sessions i = some x ∧ d.now ≤ x.deadline) id) ∧
  (∀ (i : Nat) (x : Tombstone),
    Happens (fun t => .tombstoneExpiry t i) (fun d => mapGet d.ctl.tombs i = some x ∧ x.closedAt + tombNs ≤ d.now)
      (fun d => d.onCtl fun c => { c with tombs := mapDel c.tombs i }) ∧
    Happens (fun t => .tombstoneExpiry t i) (fun d => mapGet d.ctl.tombs i = some x ∧ d.now < x.closedAt + tombNs) id) ∧
  (∀ (n : Nat) (x : Txn),
    Happens (fun t => .txnIdleTimeout t n) (fun d => mapGet d.ctl.txns n = some x ∧ x.idleDeadline ≤ d.now ∧ d.faults.paused = false) (abortTxn n (some 0)) ∧
    Happens (fun t => .txnIdleTimeout t n) (fun d => mapGet d.ctl.txns n = some x ∧ d.now < x.idleDeadline) id) ∧
  Happens .fragmentReassemblyTimeout (fun _ => True) (fun d =>
    let late := fun r : Reassembly => decide (r.started + 20000000 ≤ d.now)
    count 0 1 (d.udp.reassemblies.countP fun r => late r && !r.dead) (d.onUdp fun u => { u with reassemblies := u.reassemblies.filter fun r => !late r }))

/-- VCORE (R19, R25, R26, R37, R561): a reading of the pacers raises or lowers the step, a confirmed raise makes the step the admission step and lets the
command that waited run, one that is not confirmed in 5 ms is taken back and the command refused with its denial, READ_VOUT and PMB_ALERT_N are judged
against the guarantee, and a guarantee that has held for 100 ms again is restored with its event. -/
def Obligations.VcoreRows : Prop :=
  (∀ l : List Nat, Happens (fun t => .pacerReading t l) (fun d => firmwareRuns d = true) (fun d =>
    let speeds := (List.range 12).map fun f => l.getD f 0
    let x := (indexed speeds).foldl (fun r e => readPacer e.1 e.2 r) (false, d)
    lowerStep (releaseExtra speeds (if x.1 then takeExtra x.2 else x.2)))) ∧
  (∀ (v : Nat) (l : List Nat) (x : PendingRaise),
    Happens (fun t => .vcoreConfirmed t v l) (fun d => firmwareRuns d = true ∧ d.fabric.raise = some x ∧ confirms x.commanded x.step v l = true)
      (fun d => drainAll (execute x.request x.replay (d.onFabric fun f => { f with admStep := x.step, raise := none, vout := v, extraGoodSince := none }))) ∧
    Happens (fun t => .vcoreConfirmed t v l) (fun d => firmwareRuns d = true ∧ d.fabric.raise = none) (stepConfirmed v l) ∧
    Happens .vcoreConfirmTimeout (fun d => firmwareRuns d = true ∧ d.fabric.raise = some x ∧ x.started + 5000000 ≤ d.now) (fun d =>
      let why := (denial 11 4 x.step 0 x.step d.fabric.admStep).rsp
      let r := if x.request.op = 0x0101 then commitRefusal false [] none why else why
      let back := if d.fabric.extra then min 900 (d.fabric.admStep + 10) else d.fabric.admStep
      drainAll (finish x.request x.replay r (reopenTxn x.request r ((commandStep back 0 d).onFabric fun f => { f with raise := none }))))) ∧
  Happens .vcoreConfirmTimeout (fun d => firmwareRuns d = true ∧ d.fabric.raise = none) stepReverted ∧
  (∀ (v : Nat) (tj a b : Int), Happens (fun t => .readVoutPoll t v tj [a, b]) (fun d => firmwareRuns d = true) (fun d =>
    judgeGuarantee (d.onFabric fun f => { f with vout := v, tj, stackTj := [a, b] }))) ∧
  (∀ (when_ : Nat) (ns since : Nat), Happens .guaranteeRestored
    (fun d => firmwareRuns d = true ∧ d.fabric.lapse = some (when_, ns) ∧ d.fabric.goodSince = some since ∧ since + 100000000 ≤ d.now) (fun d =>
      raise 0x0283 0 0 (le 4 (min 4294967295 ((since - when_) / 1000))) (d.onFabric fun f => { f with lapse := none, goodSince := none }))) ∧
  (∀ word v i : Nat, Happens (fun t => .pmbAlert t word v i) (fun d => firmwareRuns d = true ∧ ∀ t, d.boot.vregEvent = some t → t + 1000000000 ≤ d.now) (fun d =>
    judgeGuarantee (raise 0x1283 3 0 (le 2 word ++ le 2 v ++ le 2 i ++ le 2 0)
      ((d.onBoot fun b => { b with vregUv := vregFaults word, iout := i, vregEvent := some d.now }).onFabric fun f => { f with vout := v }))) ∧
    ∀ last : Nat, Happens (fun t => .pmbAlert t word v i) (fun d => firmwareRuns d = true ∧ d.boot.vregEvent = some last ∧ d.now < last + 1000000000) (fun d =>
      judgeGuarantee ((d.onBoot fun b => { b with vregUv := vregFaults word, iout := i }).onFabric fun f => { f with vout := v })))

/-- Furrows (R116, R118 to R120, R124, R126, R130 to R139): a start of frame that a furrow recognises, by the codes that more than half of its lanes
present or by the first source's Frame Start; the rows of a frame and those beyond its height; its delivery, fill and timeout, a silent furrow,
the end of training, and the recentring of its lanes. -/
def Obligations.FurrowRows : Prop :=
  (∀ (i : Fin 16) (c : FurrowConfig) (l : List SyncIn),
    let on := fun d : Dev => (d.furrow i).config = some c ∧ (d.furrow i).runs = true
    Happens (fun t => .furrowSof t i l) (fun d => on d ∧ c.mode = 1 ∧ (tabGet l 0).frameStart = true)
      (fun d => recogniseSof i c ((indexed (d.furrow i).activeMap).all fun e => (tabGet l e.1).frameStart) d) ∧
    let shown := fun d : Dev => (indexed (d.furrow i).activeMap).map fun e => (d.furrow i).sync.shown c.depthBits (tabGet l e.1).words
    Happens (fun t => .furrowSof t i l) (fun d => on d ∧ c.mode ≠ 1 ∧ (d.furrow i).activeMap.length < 2 * (shown d).count (.code 0)) (fun d =>
      let errors := (count (0x1000 + i) 0 ((shown d).length - (shown d).count (.code 0)) d).onFurrow i fun f =>
        { f with lanes := (indexed (d.furrow i).activeMap).foldl (fun x e => tabMod x e.2.source (Lane.sync (tabGet (shown d) e.1 = .code 0))) f.lanes }
      recogniseSof i c ((shown d).all fun x => x = .code 0) (detectFailures i c errors))) ∧
  (∀ (i : Fin 16) (c : FurrowConfig) (row : RowIn),
    let on := fun d : Dev => (d.furrow i).config = some c ∧ (d.furrow i).runs = true
    let noted := noteRow i c row
    let begun := fun d : Dev => (noted d).onFurrow i fun f =>
      { f with lineNo := f.lineNo + 1, lastRow := some (noted d).now
               rowsOver := f.rowsOver || rowEndsFrame (d.furrow i) c row || decide (c.height ≤ f.lineNo + 1) }
    let row' := fun t => Instr.furrowRowEnd t i row
    Happens row' (fun d => on d ∧ rowBegins (d.furrow i) c row = false) noted ∧
    Happens row' (fun d => on d ∧ rowBegins (d.furrow i) c row = true ∧ ((begun d).furrow i).current = none) begun ∧
    ∀ fr : FrameInProgress,
      let open' := fun d : Dev => on d ∧ rowBegins (d.furrow i) c row = true ∧ ((begun d).furrow i).current = some fr
      Happens row' (fun d => open' d ∧ c.height ≤ fr.rows) (fun d =>
        let d' := (count (0x1000 + i) 5 1 (begun d)).onFurrow i fun f => { f with current := some { fr with discarded := fr.discarded + 1 } }
        if rowEndsFrame (d.furrow i) c row then endReception i c false d' else d') ∧
      Happens row' (fun d => open' d ∧ fr.rows < c.height ∧ row.overflow = true ∧ (begun d).fabric.lapse.isSome = true)
        (fun d => overflowRow i c fr (begun d)) ∧
      Happens row' (fun d => open' d ∧ fr.rows < c.height ∧ (row.overflow = false ∨ (begun d).fabric.lapse = none))
        (fun d => writeRow i c fr row (rowEndsFrame (d.furrow i) c row) (begun d))) ∧
  (∀ (i : Fin 16) (c : FurrowConfig) (fr : FrameInProgress) (when_ : Nat), Happens (fun t => .frameTimeout t i)
    (fun d => (d.furrow i).config = some c ∧ (d.furrow i).current = some fr ∧ (d.furrow i).lastSof = some when_ ∧ (d.furrow i).runs = true
      ∧ 3 * (d.stream c.stream).maxPeriod ≤ 2 * (d.now - when_)) (endReception i c true)) ∧
  (∀ (i : Fin 16) (c : FurrowConfig) (fr : FrameInProgress) (row when_ : Nat), Happens (fun t => .fillLands t i)
    (fun d => (d.furrow i).config = some c ∧ (d.furrow i).ending.find? (fun x => x.fillAt.isSome) = some fr ∧ fr.fillFrom = some row ∧ fr.fillAt = some when_
      ∧ when_ + fillTime c (c.height - row) ≤ d.now) (landFill i c fr row)) ∧
  (∀ (i : Fin 16) (c : FurrowConfig) (fr : FrameInProgress), Happens (fun t => .frameDeliver t i)
    (fun d => (d.furrow i).config = some c ∧ (d.furrow i).ending.head? = some fr ∧ fr.fillAt = none) (deliver i c fr)) ∧
  (∀ (i : Fin 16) (c : FurrowConfig) (sof : Nat), Happens (fun t => .furrowSilent t i)
    (fun d => (d.furrow i).config = some c ∧ (d.furrow i).lastSof = some sof ∧ (d.furrow i).runs = true ∧ (d.furrow i).silent = false
      ∧ (d.furrow i).current = none ∧ (d.furrow i).ending = [] ∧ 3 * (d.stream c.stream).maxPeriod ≤ 2 * (d.now - max sof ((d.furrow i).lastEnd.getD 0))) (fun d =>
      raise 0x0385 2 (0x2000 + c.stream) (le 2 (0x2000 + c.stream) ++ le 4 (min 4294967295 ((d.now - sof) / 1000)))
        (d.onFurrow i fun f => { f with silent := true }) (td := c.domain) (frame := (d.stream c.stream).frame))) ∧
  (∀ (i : Fin 16) (found : List TrainIn) (eyes : List Nat) (c : FurrowConfig),
    Happens (fun t => .furrowTrainDone t i found eyes) (fun d => (d.furrow i).state = .training ∧ (d.furrow i).config = some c) (fun d =>
      let f := d.furrow i
      let lock := fun j : Nat => let x := tabGet found j; if c.mode = 1 then x.ready else
        decide (30 * 64 ≤ 100 * tabGet eyes j) && decide (1024 ≤ x.run) && decide (x.skew ≤ 3)
          && (List.range c.depthBits).any fun k => rotate c.depthBits (x.word % 2 ^ c.depthBits) k = wordOf c.depthBits f.sync.training
      trainOver i f.trainedBy.toList (d.onFurrow i fun f => { f with
        state := .stopped, trainedBy := none
        lanes := (indexed (mappedLanes f)).foldl (fun l e => tabMod l e.2 fun y =>
          { y with locked := lock e.1, failed := y.failed && !lock e.1, eye := min 255 (tabGet eyes e.1), sampling := 0 }) f.lanes }))) ∧
  (∀ (i : Fin 16) (c : FurrowConfig) (moves : List (Option Int)),
    let on := fun d : Dev => (d.furrow i).config = some c ∧ c.mode = 0 ∧ (d.furrow i).runs = true
    let settled := fun d : Dev => (d.furrow i).rowsOver = true ∧ ∀ e : Nat, (d.furrow i).lastRow = some e → e + 2000 ≤ d.now
    let room := fun d : Dev => ∀ s e : Nat, (d.furrow i).lastSof = some s → (d.furrow i).lastRow = some e → e + 20000 ≤ s + (d.stream c.stream).minPeriod
    let pass := fun t => Instr.laneRecentrePass t i moves
    Happens pass (fun d => on d ∧ settled d ∧ room d ∧ (d.furrow i).recentreBy = []) (fun d =>
      let lanes := indexed (mappedLanes (d.furrow i))
      let move := fun (l : List Lane) (e : Nat × Nat) => match tabGet moves e.1 with
        | some m => tabMod l e.2 fun x => { x with sampling := x.sampling + max (-2) (min 2 m) }
        | none => l
      (count (0x1000 + i) 6 (lanes.countP fun e => (tabGet moves e.1).isNone) d).onFurrow i fun f =>
        { f with lastRecentre := d.now, recentreBy := [], lanes := lanes.foldl move f.lanes }) ∧
    Happens pass (fun d => on d ∧ settled d ∧ ¬room d) (count (0x1000 + i) 6 1) ∧
    Happens pass (fun d => on d ∧ ¬settled d) id)

/-- Synchronisation pins and the sensor bus (R103 to R105, R143 to R147): an edge of a pin that counts edges is stamped and stored, the oldest leaving when 16
wait, a pulse ends, a trigger pin pulses at its phase of the period, a group's writes start in their window, a transfer that ended moves its group or
its read on, and a group whose window closes unwritten fails its commit. -/
def Obligations.SensorRows : Prop :=
  (∀ (i : Fin 16) (k : Fin 5) (up : Bool), Happens (fun t => .syncPinEdge t i k up)
    (fun d => (tabGet (d.furrow i).pins k).function = (if up then 5 else 6) ∧ (tabGet (d.furrow i).pins k).pulseUntil = none) (fun d =>
      let e : EdgeStamp := { pin := k, edge := if up then 0 else 1, stamp := shortStamp (domainNow d (furrowDomain d i)) }
      if 16 ≤ (d.furrow i).edges.length then (count (0x1000 + i) 7 1 d).onFurrow i fun f => { f with edges := f.edges.drop 1 ++ [e] }
      else d.onFurrow i fun f => { f with edges := f.edges ++ [e] }) ∧
    Happens (fun t => .syncPulseEnd t i k) (fun _ => True) (fun d => d.onFurrow i fun f =>
      { f with pins := tabMod f.pins k fun p => if p.pulseUntil.any fun t => t ≤ d.now then { p with pulseUntil := none } else p }) ∧
    Happens (fun t => .syncTriggerPulse t i k) (fun d =>
      let p := tabGet (d.furrow i).pins k
      p.function = 3 ∧ p.pulseUntil = none ∧ pinPeriod d i p.periodNs ≠ 0 ∧ domainNow d (furrowDomain d i) % pinPeriod d i p.periodNs = p.phaseNs) (fun d =>
      d.onFurrow i fun f => { f with pins := tabMod f.pins k fun p => { p with strobeUntil := some (d.now + p.widthNs) } })) ∧
  (∀ (i : Fin 16) (g : Nat) (c : Commit) (x : GroupWrite), Happens (fun t => .sensorGroupWriteStart t i g)
    (fun d => commitWith d i g (fun _ x => !x.started && x.confirmed < x.writes.length) = some (c, x) ∧ windowOpen d c x = true ∧ startsInTime d x = true ∧ inOrder d c x = true) (fun d =>
      driveBus i (onGroup c.txn i g d.beginWrites d))) ∧
  (∀ (i : Fin 16) (g : Nat) (b : BusResult) (l : List Byte),
    let writes := fun d : Dev => commitWith d i g fun c x => x.started && x.confirmed < x.writes.length && inOrder d c x
    let restores := fun d : Dev => d.ctl.restores.find? fun r => r.furrow = i.val && r.group = g
    let reads := fun d : Dev => (d.furrow i).reading
    (∀ r : Restore, Happens (fun t => .sensorBusTransferDone t i g b l) (fun d => reads d = none ∧ restores d = some r)
      (fun d => beginRead i (restoreStep i g r b l d))) ∧
    (∀ (c : Commit) (x : GroupWrite), Happens (fun t => .sensorBusTransferDone t i g b l) (fun d => reads d = none ∧ restores d = none ∧ writes d = some (c, x))
      (fun d => beginRead i (writeStep i g c x b l d))) ∧
    ∀ x : SensorRead, Happens (fun t => .sensorBusTransferDone t i g b l)
      (fun d => reads d = some x ∧ x.begun = true ∧ (x.waits = true → d.now ≤ x.request.pkt.time + 2000000)) (readStep i x b l)) ∧
  (∀ (i : Fin 16) (g n f : Nat) (c : Commit) (x : GroupWrite) (y : GroupDesc), Happens (fun t => .sensorWriteWindowClose t i g)
    (fun d => commitWith d i g (fun _ x => x.confirmed < x.writes.length && x.closeFrame.isSome) = some (c, x) ∧ timedStream d i = some n
      ∧ groupDesc d i g = some y ∧ x.closeFrame = some f ∧ (windowClose d n y f ≤ (timelineNow d (.stream n) : Int) ∨ f < (d.stream n).frame))
    (failCommit c.txn (3 * 256 + g)))

/-- The engines' jobs (R28, R29, R33, R186, R194, R254, R298, R308, R431, R510, R511): rows of tiles go to the drills when their line has come and their bands are settled,
or with forfeited bands when the wait ends; a drill, a harrow or a tine that finishes writes its result and the next job starts; a drill whose checker
fails is lost; and an engine's access fault is told with the outcome of its engine. -/
def Obligations.JobRows : Prop :=
  (∀ (n : Fin 24) (row t0 w0 h0 : Nat) (w : FrameWork), Happens (fun t => .tileRowRelease t n row)
    (fun d => rowWork d n row = some w ∧ srcSize d n = some (w0, h0) ∧ mapGet w.lineAt row = some t0 ∧ t0 ≤ d.now ∧ bandsSettled (d.stream n) w (w0, h0) row = true)
    (queueRow n w row)) ∧
  (∀ (n : Fin 24) (row t0 k : Nat) (w : FrameWork) (c : FurrowConfig), Happens (fun t => .motionWaitTimeout t n row)
    (fun d => rowWork d n row = some w ∧ furrowOf d n = some (k, c) ∧ mapGet w.lineAt row = some t0
      ∧ (if rowClass d n w = 0 then t0 + 150000 else t0 + (d.stream n).minPeriod) ≤ d.now) (fun d => queueRow n w row (forfeitBands n w c row d))) ∧
  (∀ (n : Fin 24) (row span k : Nat) (c : FurrowConfig) (w : FrameWork) (f : MotionField), Happens (fun t => .motionBandRelease t n row span)
    (fun d => furrowOf d n = some (k, c)
      ∧ (d.stream n).work.find? (fun w => !w.withdrawn && (match fieldOfWork (d.stream n) w with
        | some f => f.bands.getD (bandIndex c.width row span) .written = .waiting
        | none => false)) = some w ∧ fieldOfWork (d.stream n) w = some f ∧ bandReady d n c w f row span = true) (fun d =>
      queueBand { stream := n, frame := w.number, row, span, cls := (bandUrgency d n (c.width, c.height) w row).1
                  deadline := (bandUrgency d n (c.width, c.height) w row).2, laneFill := w.laneFill } (setBand n w (bandIndex c.width row span) .queued d))) ∧
  (∀ (i : Fin 16) (j : BandJob), Happens (fun t => .harrowBandComplete t i) (fun d => d.fabric.harrows.getD i none = some j) (fun d =>
    dispatchHarrows (finishWork j.stream j.frame (noteMiss j.stream j.frame j.cls j.deadline
      (finishBand j (d.onFabric fun f => { f with harrows := f.harrows.set i none })))))) ∧
  (∀ (i : Fin 384) (j : Job) (w : FrameWork) (w0 h0 : Nat),
    let freed := fun d : Dev => count (0xD000 + i) 0 1 (d.onFabric fun f => { f with drills := tabMod f.drills i fun x => { x with job := none } })
    Happens (fun t => .drillJobComplete t i) (fun d => (tabGet d.fabric.drills i).job = some j ∧ workOf (freed d) j.stream j.frame = some w
        ∧ srcSize (freed d) j.stream = some (w0, h0) ∧ w.withdrawn = false) (fun d =>
      let e := runJob w (w0, h0) j (freed d)
      settleJob j (noteLate h0 ((workOf e j.stream j.frame).getD w) j e)) ∧
    Happens (fun t => .drillJobComplete t i) (fun d => (tabGet d.fabric.drills i).job = some j ∧ workOf (freed d) j.stream j.frame = some w
        ∧ srcSize (freed d) j.stream = some (w0, h0) ∧ w.withdrawn = true) (fun d => settleJob j (freed d)) ∧
    Happens (fun t => .drillJobTimeout t i 0) (fun d => (tabGet d.fabric.drills i).lost = false ∧ (tabGet d.fabric.drills i).job = none) (loseDrill i 0 3) ∧
    ∀ cause : Nat, Happens (fun t => .drillJobTimeout t i cause) (fun d => (tabGet d.fabric.drills i).lost = false ∧ (tabGet d.fabric.drills i).job = some j)
      (fun d => abortJob 2 j (loseDrill i (min cause 1) j.cls d))) ∧
  (∀ (n : Fin 96) (k : Nat) (e : Encoder) (f : EncFrame), Happens (fun t => .swathRelease t n k)
    (fun d => mapGet d.codecs.encoders n.val = some e ∧ e.frames.find? (fun f => f.swaths.any fun x => !x.released) = some f
      ∧ f.swaths.findIdx? (fun x => !x.released) = some k ∧ swathReady d n e f k = true
      ∧ ¬(e.codec ≠ 0 ∧ e.enc.cls = 2 ∧ f.enc.liveYield = true ∧ k = 0 ∧ liveTineLate d = true)) (fun d =>
      let a := if f.activity.isEmpty then startFrame n e f d else (f, d)
      let b := startSwath n e.codec k a.1 a.2
      let d2 := onEncFrame n b.1.number (fun _ => b.1) b.2
      (List.range (b.1.segments e.codec)).foldl (fun d x =>
        queueTine { session := 0x5000 + n, frame := b.1.number, swath := k, segment := x, cls := b.1.cls e.codec
                    deadline := swathDeadline d2 e b.1 k, ref := encodeTime e.codec b.1.chroma (b.1.pixels e.codec k x) } d) d2) ∧
    Happens (fun t => .swathRelease t n k)
      (fun d => mapGet d.codecs.encoders n.val = some e ∧ e.frames.find? (fun f => f.swaths.any fun x => !x.released) = some f
        ∧ f.swaths.findIdx? (fun x => !x.released) = some k ∧ swathReady d n e f k = true
        ∧ e.codec ≠ 0 ∧ e.enc.cls = 2 ∧ f.enc.liveYield = true ∧ k = 0 ∧ liveTineLate d = true) (yieldFrame n f)) ∧
  (∀ (i : Fin 64) (j : TineJob) (r : TineResult), Happens (fun t => .tineJobComplete t i r) (fun d => d.codecs.tines.getD i none = some j) (fun d =>
    let e := d.onCodecs fun c => { c with tines := c.tines.set i none }
    dispatchTines (if objType j.session = 5 then encodeDone j r false e else decodeDone j r e))) ∧
  (∀ (n : Fin 8) (i start : Nat) (q : Decoder),
    let m := 16 + n.val
    let sof := fun d : Dev => start + (d.stream m).frame * (d.stream m).minPeriod
    let plays := fun d : Dev => playbackDecoder d m = some (i, q) ∧ playbackStart (d.stream m) q = some start ∧ (d.stream m).admission = .admitted
    Happens (fun t => .playbackSof t n) (fun d => plays d ∧ domainNow d q.domain < sof d) id ∧
    Happens (fun t => .playbackSof t n) (fun d => plays d ∧ sof d ≤ domainNow d q.domain) (fun d =>
      let frame := (d.stream m).frame + 1
      let d1 := applyAtSof m frame (sof d) (d.onStream m fun s => { s with frame, lastSof := some (sof d), playStart := start })
      let d2 := d1.onStream m fun s => { s with inForce := true, bound := s.settings, boundFrame := frame, boundEpoch := s.epoch }
      let x := presentPicture i m (sof d) (recordersAtSof m frame (markLate i (sof d) d2))
      let d3 := match x.1 with
        | some k => holdSlot (0x6000 + i) k (0x2000 + m) x.2
        | none => x.2
      let at1 := d3.now - (domainNow d q.domain - sof d)
      let size := (srcSize d3 m).getD (0, 0)
      let r : FrameRecord :=
        { number := frame, stream := m, epoch := (d3.stream m).epoch, domain := q.domain, sofSeconds := (fullTime (sof d)).seconds
          sofNs := (fullTime (sof d)).ns, rowsReceived := size.2, fillFirst := size.2 }
      let w : FrameWork :=
        { number := frame, src := if x.1.isSome then 0x6000 + i else 0, sof := at1, sofSeconds := r.sofSeconds, sofNs := r.sofNs, epoch := r.epoch
          rowsIn := size.2, lineAt := (List.range (tilesH size.2)).map fun k => (k, at1 + k * 128 * (d.stream m).minPeriod / max 1 size.2)
          delivered := some r, frameEnd := some (at1 + (d.stream m).minPeriod) }
      encDelivered m r (at1 + (d.stream m).minPeriod) (recorderSource m r (beginWork m (x.1.getD 0) w size q.domain [] d3)))) ∧
  ∀ (e : EngineRef) (k : AccessFault) (dva h : Nat), Happens (fun t => .engineAccessFault t e k dva h) (fun _ => True) (fun d =>
    let off := dva - (mappedPail d h).elim 0 fun x => x.2.dva
    match faultNote e k off h d with
    | some n => handleFault e k off h (pailFault n.engine (faultKind k) n.outcome dva h n.cls d)
    | none => match e with
      | .channel _ => handleFault e k off h d
      | _ => d)

/-- Display outputs and inputs (R311 to R333): at a frame's start the raster counts its frame and begins at it or stops, at its cut the commit at the cut
applies, at its latch it takes the planes of its next frame, a late line aborts the frame's rest, a panel's tearing edge is used up, HDMI links and
trains, and an SDI input locks, loses lock, and stores its frames. -/
def Obligations.RasterRows : Prop :=
  (∀ (i : Fin 8) (l : List (Nat × Nat)),
    let checked := fun d : Dev => if (d.raster i).frame = 0 then d else checkFrame i l d
    Happens (fun t => .rasterFrameStart t i l) (fun d => (d.raster i).running = true ∧ (d.raster i).stopping = true ∧ (d.raster i).frame ≠ 0)
      (fun d => haltRaster i (checkFrame i l d)) ∧
    Happens (fun t => .rasterFrameStart t i l) (fun d => (d.raster i).running = true ∧ (d.raster i).stopping = false) (fun d =>
      let f := (d.raster i).frame + 1
      let e := count (0x4000 + i) 8 1 ((setAir i ((d.raster i).air.filter fun a => decide (f ≤ a.frame) || decide (a.frame = (d.raster i).latchedFrame)) (checked d)).onRaster i fun r =>
        { r with frame := f, frameStart := r.startOf f, stretch := 0 })
      if leadsTimeline e i then anchorBegins i e else e) ∧
    Happens (fun t => .rasterFrameStart t i l) (fun d => (d.raster i).running = false) id) ∧
  (∀ i : Fin 8,
    Happens (fun t => .rasterCommitCut t i) (fun d => (d.raster i).running = true ∧ leadsTimeline d i = true) (applyAtCut i) ∧
    Happens (fun t => .rasterCommitCut t i) (fun d => (d.raster i).running = false) id ∧
    Happens (fun t => .rasterLatch t i) (fun d => (d.raster i).running = true) (fun d =>
      let r := d.raster i
      let f := max (r.latchedFrame + 1) r.frame
      let takes := (List.range 4).map (latchPlane d r f)
      let planes := takes.map (·.air)
      let changed := r.changed || decide ((r.air.getLast?.map (·.planes)) ≠ some planes)
      let before := if r.fill = 1 then (match r.air.getLast? with
        | some a => (List.range 4).map fun k => if (tabGet r.planes k).mode = 0 then none else a.planes.getD k none
        | none => List.replicate 4 none) else List.replicate 4 none
      let noTe := fun a : AirFrame => if a.frame = r.latchedFrame then { a with skipped := r.awaitTe.map (0x20 + ·) } else a
      let kept := ((r.air.filter fun a => decide (r.frame ≤ a.frame)).map noTe).map (closeAir d i)
      let told := fun d : Dev => if r.awaitTe.isEmpty then d else count (0x4000 + i) 3 r.awaitTe.length d
      let e := (told (setAir i (kept ++ [{ frame := f, planes, before, transmitted := (refreshStep r changed).1 }]) d)).onRaster i fun x =>
        { x with live := r.planes, shown := takes.map (·.shown), latchedFrame := f, latchEpoch := r.epoch, changed := false
                 refreshK := (refreshStep r changed).2.refreshK, unchangedRun := (refreshStep r changed).2.unchangedRun
                 refreshPhase := (refreshStep r changed).2.refreshPhase, awaitTe := if (refreshStep r changed).1 then tePorts r else [] }
      (indexed takes).foldl (fun d x =>
        if x.2.again && x.2.air.isSome && decide ((tabGet r.planes x.1).sourceKind ≠ 1) then count (0x4000 + i) (4 + x.1) 1 d else d) e)) ∧
  (∀ (i : Fin 8) (line cause : Nat) (k : Fin 4) (a : AirFrame),
    Happens (fun t => .rasterLineDeadline t i line k cause) (fun d => (d.raster i).running = true ∧ line < (d.raster i).timing.vActive ∧ dueAir d (d.raster i) line = some a
        ∧ a.aborted = none ∧ cause < 2 ∧ ∃ p, a.planes.getD k none = some p ∧ p.onLine line = true ∧ (cause = 0 → p.rowsThere d line = false)) (fun d =>
      (rasterPeers d i).foldl (fun d x => if x = i.val then d else abortAir a.frame line 0xFF 3 d x) (abortAir a.frame line k cause d i)) ∧
    ∀ from_ : Nat, Happens (fun t => .rasterLineDeadline t i line k cause) (fun d => (d.raster i).running = true ∧ line < (d.raster i).timing.vActive
        ∧ dueAir d (d.raster i) line = some a ∧ a.aborted = some from_ ∧ from_ ≤ line ∧ (a.before.getD k none).isSome = true) (fun d =>
      onAir i a.frame (fun a => { a with fillLate := some (min line (a.fillLate.getD line)) }) d)) ∧
  (∀ k : Fin 2,
    Happens (fun t => .dsiTeEdge t k) (fun _ => True) (fun d =>
      let used := fun r : Raster => if r.running && decide (k.val ∈ r.awaitTe) then { r with awaitTe := r.awaitTe.filter (· ≠ k.val) } else r
      d.onDisplay fun p => { p with rasters := p.rasters.map used }) ∧
    (∀ (trained : Bool) (rate lanes : Nat), Happens (fun t => .hdmiHotPlug t k true trained rate lanes) (fun d => (tabGet d.display.hdmi k).plugged = false) (fun d =>
      let e := hdmiLink k 1 rate lanes (onHdmi k (fun _ => { plugged := true, rate := rate % 256, lanes := lanes % 256 }) d)
      if frlBound e k then frlTrained k trained true e else e)) ∧
    (∀ (trained : Bool) (rate lanes : Nat), Happens (fun t => .hdmiHotPlug t k false trained rate lanes) (fun d => (tabGet d.display.hdmi k).plugged = true) (fun d =>
      hdmiLink k 0 0 0 (onHdmi k (fun _ => { plugged := false, rate := 0, lanes := 0 }) d))) ∧
    ∀ (trained : Bool) (when_ : Nat), Happens (fun t => .hdmiFrlRetry t k trained) (fun d => (tabGet d.display.hdmi k).plugged = true
      ∧ (tabGet d.display.hdmi k).trained = false ∧ (tabGet d.display.hdmi k).retryAt = some when_ ∧ when_ ≤ d.now ∧ frlBound d k = true) (frlTrained k trained false)) ∧
  (∀ i : Fin 4,
    (∀ id_ : Nat, Happens (fun t => .sdiRxLocked t i id_) (fun d => (tabGet d.display.sdiIn i).enabled = true ∧ (tabGet d.display.sdiIn i).locked = false) (fun d =>
      raise 0x0A84 0 0 (le 1 i ++ le 1 0 ++ le 4 id_) (onSdi i (fun x => { x with locked := true, payloadId := id_ % 2 ^ 32, sinceLock := 0 }) d)
        (td := (tabGet d.display.sdiIn i).domain))) ∧
    Happens (fun t => .sdiRxLost t i) (fun d => (tabGet d.display.sdiIn i).locked = true) (fun d =>
      raise 0x0A85 2 0 (le 1 i ++ le 1 0 ++ le 4 (tabGet d.display.sdiIn i).sinceLock) (onSdi i (fun x => { x with locked := false }) d)
        (td := (tabGet d.display.sdiIn i).domain)) ∧
    ∀ (sav w h : Nat) (px anc : List Byte),
      let seen := fun d : Dev => onSdi i (fun x =>
        { x with width := w, height := h, frames := x.frames + 1, sinceLock := x.sinceLock + 1, ancillary := anc
                 sav := (d.domain x.domain).timeAt (min sav d.now) }) d
      Happens (fun t => .sdiRxFrame t i sav w h px anc) (fun d => (tabGet d.display.sdiIn i).enabled = false ∨ (tabGet d.display.sdiIn i).locked = false) id ∧
      Happens (fun t => .sdiRxFrame t i sav w h px anc) (fun d => (tabGet d.display.sdiIn i).enabled = true ∧ (tabGet d.display.sdiIn i).locked = true
          ∧ (mappedPail (seen d) (tabGet d.display.sdiIn i).pail).elim 0 (·.2.size) < (tabGet d.display.sdiIn i).depth * formatSlot 0x30 w h) seen ∧
      ∀ slot : Nat, Happens (fun t => .sdiRxFrame t i sav w h px anc) (fun d => (tabGet d.display.sdiIn i).enabled = true ∧ (tabGet d.display.sdiIn i).locked = true
          ∧ (tabGet d.display.sdiIn i).depth * formatSlot 0x30 w h ≤ (mappedPail (seen d) (tabGet d.display.sdiIn i).pail).elim 0 (·.2.size)
          ∧ (takeSlot (sdiRef i) (tabGet d.display.sdiIn i).pail (tabGet d.display.sdiIn i).depth (formatSlot 0x30 w h) (seen d)).1 = some slot) (fun d =>
        let x := tabGet d.display.sdiIn i
        let size := formatSlot 0x30 w h
        let e := (sdiRows w h px).foldl (fun d r => pailWrite x.pail (slot * size + r.1) r.2 d) (takeSlot (sdiRef i) x.pail x.depth size (seen d)).2
        let at1 := fullTime ((d.domain x.domain).timeAt (min sav d.now))
        completeSlot (sdiRef i) slot (x.frames + 1) 0 (writeRecord x.pail slot
          { frame := x.frames + 1, format := 0x30, flags := 16 * boolNat (decide (x.ring.skippedBefore ≠ 0)) + 32, domain := x.domain, sofSeconds := at1.seconds
            sofNs := at1.ns, doneStamp := shortStamp (domainNow e x.domain), rowsComplete := h, skippedBefore := x.ring.skippedBefore, width := w, height := h
            payloadId := x.payloadId, input := i } e)))

/-- Time (R337 to R354): edges of the references, PTP's messages and their loss, timecode received and sent, a step of a domain with the launches
around it, a launch that fires, a second's anchor, and a holdover that lasts ten minutes. -/
def Obligations.TimeRows : Prop :=
  (Happens (fun t => .referenceEdge t .genlockH) (fun _ => True) genlockH ∧
    Happens (fun t => .referenceEdge t .genlockF) (fun _ => True) (fun d =>
      if counterOf (genlockF d) (domainObj 4) 3 = counterOf d (domainObj 4) 3 then genlockF d else fireDue true 4 (genlockF d)) ∧
    Happens (fun t => .referenceEdge t .ltcIn) (fun d => d.time.ltc.input.enabled = true) (fun d => (ltcEdge d).1) ∧
    (∀ k, Happens (fun t => .referenceEdge t (.audio k)) (fun _ => True) (portEdge k)) ∧
    Happens (fun t => .referenceStopTimeout t .genlockH) (fun _ => True) (genlockStop true) ∧
    Happens (fun t => .referenceStopTimeout t .genlockF) (fun _ => True) (genlockStop false) ∧
    Happens (fun t => .referenceStopTimeout t .ltcIn) (fun _ => True) ltcStop ∧
    ∀ k, Happens (fun t => .referenceStopTimeout t (.audio k)) (fun _ => True) (portStop k)) ∧
  (∀ (td : Fin 4) (portB : Bool) (off : Int),
    let on := fun d : Dev => (tabGet d.time.ptp td).configured = true ∧ (d.domain td).state ≠ .disabled ∧ ¬(portB = true ∧ (tabGet d.time.ptp td).portB = 0xFF)
    let on' := fun d : Dev => (tabGet d.time.ptp td).configured = true ∧ (d.domain td).state ≠ .disabled
    let run := fun (d : Dev) (n : Nat) => if off.natAbs ≤ (tabGet d.time.ptp td).lockNs then n + 1 else 0
    let heard := fun d : Dev => onPtp td (fun p =>
      if portB then { p with validB := true, lastSyncB := some d.now, goodRunB := run d p.goodRunB }
      else { p with validA := true, lastSyncA := some d.now, goodRun := run d p.goodRun }) d
    let was := fun d : Dev => if portB then (tabGet d.time.ptp td).validB else (tabGet d.time.ptp td).validA
    let back := fun d : Dev => if (if portB then (tabGet d.time.ptp td).lastSyncB else (tabGet d.time.ptp td).lastSyncA).isSome && !was d
      then refState td (ptpInput portB) true (heard d) else heard d
    Happens (fun t => .ptpSyncReceive t td portB off) (fun d => on d ∧ (tabGet d.time.ptp td).isActive portB = false) back ∧
    Happens (fun t => .ptpSyncReceive t td portB off) (fun d => on d ∧ (tabGet d.time.ptp td).isActive portB = true) (fun d =>
      let e := if (d.domain td).state = .holdover then setDomain td .acquiring 2 (back d) else back d
      let e := correctDomain td off (steerDomain td e)
      if 16 ≤ (if portB then (tabGet e.time.ptp td).goodRunB else (tabGet e.time.ptp td).goodRun) ∧ (e.domain td).state = .acquiring
      then setDomain td .locked 3 e else e) ∧
    (∀ (gm steps : Nat) (utc : Int) (flags : Nat),
      Happens (fun t => .ptpAnnounceReceive t td portB gm steps utc flags false) on
        (onPtp td fun p => if portB then { p with gmB := gm } else { p with gmA := gm }) ∧
      Happens (fun t => .ptpAnnounceReceive t td portB gm steps utc flags true)
        (fun d => on d ∧ ((tabGet d.time.ptp td).grandmaster = 0 ∨ (tabGet d.time.ptp td).grandmaster = gm)) (fun d =>
        onPtp td (fun p => { p with grandmaster := gm, steps, utcOffset := utc, leap61 := bit flags 0, leap59 := bit flags 1, utcValid := bit flags 2
                                    activePort := if portB then (tabGet d.time.ptp td).portB else (tabGet d.time.ptp td).portA })
          (onPtp td (fun p => if portB then { p with gmB := gm } else { p with gmA := gm }) d)) ∧
      Happens (fun t => .ptpAnnounceReceive t td portB gm steps utc flags true)
        (fun d => on d ∧ (tabGet d.time.ptp td).grandmaster ≠ 0 ∧ (tabGet d.time.ptp td).grandmaster ≠ gm) (fun d =>
        let port := if portB then (tabGet d.time.ptp td).portB else (tabGet d.time.ptp td).portA
        let e := onPtp td (fun p => { p with grandmaster := gm, steps, utcOffset := utc, leap61 := bit flags 0, leap59 := bit flags 1
                                             utcValid := bit flags 2, activePort := port })
          (onPtp td (fun p => if portB then { p with gmB := gm } else { p with gmA := gm }) d)
        let e := onPtp td (fun p => { p with goodRun := 0, goodRunB := 0 })
          (raise 0x0B84 1 (domainObj td) (le 8 gm ++ le 2 steps ++ le 1 port) e (td := td.val))
        if (e.domain td).state = .locked then setDomain td .acquiring 5 e else e)) ∧
    let lost := fun d : Dev => refState td (ptpInput portB) false
      (onPtp td (fun p => if portB then { p with validB := false, goodRunB := 0 } else { p with validA := false, goodRun := 0 }) d)
    let other := fun d : Dev => (if portB then (tabGet d.time.ptp td).validA = true ∧ 16 ≤ (tabGet d.time.ptp td).goodRun
      else (tabGet d.time.ptp td).validB = true ∧ 16 ≤ (tabGet d.time.ptp td).goodRunB) ∧ (tabGet d.time.ptp td).gmA = (tabGet d.time.ptp td).gmB
    Happens (fun t => .ptpReferenceTimeout t td portB) (fun d => on' d ∧ was d = true ∧ (tabGet d.time.ptp td).isActive portB = false) lost ∧
    Happens (fun t => .ptpReferenceTimeout t td portB) (fun d => on' d ∧ was d = true ∧ (tabGet d.time.ptp td).isActive portB = true ∧ other d) (fun d =>
      onPtp td (fun p => { p with activePort := if portB then (tabGet d.time.ptp td).portA else (tabGet d.time.ptp td).portB }) (lost d)) ∧
    Happens (fun t => .ptpReferenceTimeout t td portB) (fun d => on' d ∧ was d = true ∧ (tabGet d.time.ptp td).isActive portB = true ∧ ¬other d) (fun d =>
      if following ((lost d).domain td).state then setDomain td .holdover 1 (lost d) else lost d)) ∧
  (∀ w : Nat,
    Happens (fun t => .ltcWordReceive t w false) (fun d => d.time.ltc.input.enabled = true) (fun d => count (domainObj d.time.ltc.input.domain) 0 1 d) ∧
    let follows := fun d : Dev => (d.time.ltc.lastFrame.all fun p => decide (ltcLabel d.time.ltc.input.rate w = nextLabel d.time.ltc.input.rate p)) = true
    let noted := fun d : Dev => d.onTime fun t => { t with ltc := { t.ltc with lastFrame := some (ltcLabel d.time.ltc.input.rate w) } }
    Happens (fun t => .ltcWordReceive t w true) (fun d => d.time.ltc.input.enabled = true ∧ ¬follows d)
      (fun d => count (domainObj d.time.ltc.input.domain) 0 1 (noted d)) ∧
    Happens (fun t => .ltcWordReceive t w true) (fun d => d.time.ltc.input.enabled = true ∧ follows d ∧ (ltcEdge (noted d)).2.valid = false)
      (fun d => (ltcEdge (noted d)).1) ∧
    Happens (fun t => .ltcWordReceive t w true) (fun d => d.time.ltc.input.enabled = true ∧ follows d ∧ (ltcEdge (noted d)).2.valid = true) (fun d =>
      let e := (ltcEdge (noted d)).1
      ltcTime w (e.onTime fun t => { t with ltc := { t.ltc with
        words := ({ bits := w, stamp := shortStamp (domainNow e d.time.ltc.input.domain) } :: t.ltc.words).take 16 } }))) ∧
  Happens .ltcWordSend (fun d => d.time.ltc.output.enabled = true ∧ (d.domain d.time.ltc.output.domain).state ≠ .disabled) (fun d =>
    let l := d.time.ltc.output
    let utc := if l.domain ≤ 3 then (tabGet d.time.ptp l.domain).utcOffset else 0
    d.onTime fun t => { t with ltc := { t.ltc with
      lastSent := some d.now
      sent := ltcWord l ((((domainNow d l.domain : Int) - l.offsetNs) + (l.utcOffset - utc) * 1000000000) % 86400000000000).toNat } }) ∧
  (∀ (td : Fin 6) (x : Int) (grid : Bool),
    Happens (fun t => .tdStepApply t td) (fun d => dueStep d td = some (x, grid)) (fun d => fireDue true td (stepNow td x grid (fireDue false td d))) ∧
    Happens (fun t => .tdStepApply t td) (fun d => dueStep d td = none) id) ∧
  (∀ (n : Nat) (l : Launch),
    Happens (fun t => .launchFire t n) (fun d => d.time.launches.find? (fun l => l.id = n) = some l ∧ (d.domain l.domain).state ≠ .disabled)
      (fireDue false l.domain) ∧
    Happens (fun t => .launchFire t n) (fun d => d.time.launches.find? (fun l => l.id = n) = none) id) ∧
  ∀ td : Fin 6,
    Happens (fun t => .timeAnchor t td) (fun d => (d.domain td).state ≠ .disabled) (fun d =>
      let e := if (d.domain td).pps = 0 then d
        else d.onTime fun t => { t with pps := t.pps.set ((d.domain td).pps - 1) (some (d.now + (d.domain td).ppsWidth)) }
      if (d.domain td).anchorOn then anchorEvent td ((domainNow d td + 500000000) / 1000000000 * 1000000000) false e else e) ∧
    Happens (fun t => .timeAnchor t td) (fun d => (d.domain td).state = .disabled) id ∧
    Happens (fun t => .holdoverExtended t td) (fun d => (d.domain td).state.held = true ∧ (d.domain td).extended = false
        ∧ (d.domain td).heldSince + 600000000000 ≤ d.now) (fun d =>
      raise 0x0B85 2 (domainObj td) (le 4 (shortStamp ((d.domain td).timeAt d.now - (d.now - (d.domain td).heldSince))))
        (d.onDomain td fun x => { x with extended := true }) (td := td)) ∧
    Happens (fun t => .holdoverExtended t td) (fun d => (d.domain td).state.held = false) id

/-- Media flows, links and audio ports (R361 to R392): a packet is launched on a running flow, a received packet is stored under the sequence that it extends, a
stream's frame closes at its time, a path silent for 100 ms is lost, a link change is told, a neighbour's request is answered, and an audio port takes
its frame at each edge and measures its clock. -/
def Obligations.NetAndAudioRows : Prop :=
  (∀ (i : Fin 64) (f : Flow), Happens (fun t => .mediaPacketLaunch t i) (fun d => d.flow? i = some f ∧ f.running = true ∧ f.bound = true
      ∧ waitsTurn d i f = false) (fun d =>
    if f.config.essence = 0 then launchVideo i d else if f.config.essence = 1 then launchXs i d
    else if f.config.essence = 2 then launchAudio i d else launchAnc i d)) ∧
  (∀ (i : Fin 64) (f : Flow) (pathB : Bool) (seq stamp : Nat) (b : List Byte),
    let k := 64 + i.val
    let on := fun d : Dev => d.flow? k = some f ∧ f.running = true ∧ ¬(pathB = true ∧ f.config.dual = false)
    Happens (fun t => .rtpPacketReceive t i pathB seq stamp b true) on (fun d => count 0 1 1 (pathAlive k pathB d)) ∧
    Happens (fun t => .rtpPacketReceive t i pathB seq stamp b false) (fun d => on d ∧ f.config.essence = 0) (fun d =>
      storePacket k pathB (unle (slice b 0 2).reverse * 65536 + seq % 65536) stamp b (pathAlive k pathB d)) ∧
    Happens (fun t => .rtpPacketReceive t i pathB seq stamp b false) (fun d => on d ∧ f.config.essence ≠ 0 ∧ f.seqKnown = false) (fun d =>
      storePacket k pathB (seq % 65536) stamp b (pathAlive k pathB d)) ∧
    Happens (fun t => .rtpPacketReceive t i pathB seq stamp b false) (fun d => on d ∧ f.config.essence ≠ 0 ∧ f.seqKnown = true
        ∧ (((seq % 65536 : Nat) : Int) - f.extSeq + 32768).emod 65536 - 32768 ≤ 3000 ∧ -3000 ≤ (((seq % 65536 : Nat) : Int) - f.extSeq + 32768).emod 65536 - 32768) (fun d =>
      storePacket k pathB (((f.extSeq + ((((seq % 65536 : Nat) : Int) - f.extSeq + 32768).emod 65536 - 32768)) % 2 ^ 32).toNat) stamp b (pathAlive k pathB d)) ∧
    Happens (fun t => .rtpPacketReceive t i pathB seq stamp b false) (fun d => on d ∧ f.config.essence ≠ 0 ∧ f.seqKnown = true ∧ f.held = none
        ∧ 3000 < ((((seq % 65536 : Nat) : Int) - f.extSeq + 32768).emod 65536 - 32768).natAbs) (fun d =>
      (pathAlive k pathB d).onFlow k fun f => { f with held := some (seq % 65536, stamp, b) }) ∧
    ∀ (hs ht : Nat) (hp : List Byte), Happens (fun t => .rtpPacketReceive t i pathB seq stamp b false) (fun d => on d ∧ f.config.essence ≠ 0
        ∧ f.seqKnown = true ∧ f.held = some (hs, ht, hp) ∧ (hs + 1) % 65536 = seq % 65536
        ∧ 3000 < ((((seq % 65536 : Nat) : Int) - f.extSeq + 32768).emod 65536 - 32768).natAbs) (fun d =>
      let e := (pathAlive k pathB d).onFlow k fun f => { f with seqKnown := false, seen := [], held := none, closedSeq := none }
      let e := raise 0x0C83 1 (flowObj k) (le 2 (flowObj k) ++ le 4 f.extSeq ++ le 4 (seq % 65536)) e (td := f.config.domain)
      storePacket k pathB (if seq % 65536 = 0 then 65536 else seq % 65536) stamp b (storePacket k pathB hs ht hp e))) ∧
  (∀ (i : Fin 64) (f : Flow) (r : RecvFrame),
    let k := 64 + i.val
    let ends := fun d : Dev => match d.flow? k with
      | some f => if f.stopping && f.receiving.isEmpty then haltFlow k d else d
      | none => d
    let comes := fun d : Dev => ∀ n, f.lastClosed = some n → f.config.essence = 2 →
      domainNow d f.config.domain < closeTime f.config (ceilDiv (n * 1000000000) (flowClock f.config)) ∨ r.stamp < n + packetSamples f.config
    Happens (fun t => .flowClose t i) (fun d => d.flow? k = some f ∧ f.running = true ∧ oldestFrame f = some r ∧ comes d
        ∧ closeTime f.config r.instant ≤ domainNow d f.config.domain) (fun d =>
      let e := d.onFlow k fun f =>
        { f with frames := f.frames + 1, receiving := f.receiving.filter fun x => x.stamp ≠ r.stamp, lastClosed := some (r.stamp + packetSamples f.config) }
      let g := (e.flow? k).getD {}
      ends (countLosses k r (match f.config.essence with
        | 0 => closeVideo k r e
        | 1 => closeXs g r e
        | 2 => closeAudio g r.stamp ((r.packets.head?.map (·.2.2)).getD []) e
        | _ => closeAnc k g r e))) ∧
    Happens (fun t => .flowClose t i) (fun d => d.flow? k = some f ∧ f.running = true ∧ oldestFrame f = some r ∧ comes d
        ∧ domainNow d f.config.domain < closeTime f.config r.instant) id ∧
    (∀ n : Nat, Happens (fun t => .flowClose t i) (fun d => d.flow? k = some f ∧ f.running = true ∧ f.config.essence = 2 ∧ f.lastClosed = some n
        ∧ closeTime f.config (ceilDiv (n * 1000000000) (flowClock f.config)) ≤ domainNow d f.config.domain
        ∧ ∀ x, oldestFrame f = some x → n + packetSamples f.config ≤ x.stamp) (fun d =>
      ends (closeAudio f n [] (d.onFlow k fun f => { f with lastClosed := some (n + packetSamples f.config) })))) ∧
    ∀ pathB : Bool, Happens (fun t => .flowPathLost t i pathB) (fun d => d.flow? k = some f ∧ f.running = true ∧ (if pathB then f.lostB else f.lostA) = false
        ∧ ¬(pathB = true ∧ f.config.dual = false) ∧ ((if pathB then f.lastPathB else f.lastPathA).getD f.startedAt) + 100000000 ≤ d.now) (fun d =>
      pathEvent k pathB false (d.onFlow k fun f => if pathB then { f with lostB := true } else { f with lostA := true }))) ∧
  (∀ (i : Fin 5) (up : Bool) (speed : Nat),
    let p := fun d : Dev => tabGet d.net.ports i
    Happens (fun t => .ethernetLinkChange t i up speed) (fun d => (p d).link ≠ (up && decide ((p d).speed ≠ 0))) (fun d =>
      raise 0x0C84 (if up && decide ((p d).speed ≠ 0) then 1 else 2) 0 [byte i.val, byte (boolNat (up && decide ((p d).speed ≠ 0))), byte (speed % 256)]
        (d.onNet fun n => { n with ports := tabMod n.ports i fun x => { x with link := up && decide ((p d).speed ≠ 0) } })) ∧
    ∀ (m : NeighbourIn) (a : PortAnswer), Happens (fun t => .arpNdpIcmpReceive t i m) (fun d => portAnswer d i m = some a)
      (fun d => d.onNet fun n => { n with ports := tabMod n.ports i fun x => { x with answer := some a } })) ∧
  ∀ i : Fin 16,
    (∀ (x : Option Nat) (l : List Int),
      let first := fun d : Dev => d.onPort i fun x => { x with leaving := 0 }
      Happens (fun t => .sapFsEdge t i x l) (fun d => ((first d).port i).on = true) (fun d =>
        let p := (first d).port i
        let n := edgeIndex (first d) i
        let e := restartStep i x (first d)
        let own := if p.config.direction ≠ 1 then [n]
          else if p.asrc.enable then (List.range (min 8192 (n - p.sampleIndex))).map (p.sampleIndex + ·) else [p.sampleIndex]
        let put := fun (e : Dev) (j : Nat) =>
          let g := portFrame i j l e
          let s := storeEntry i j g.1 g.2
          if (e.port i).config.direction = 1 ∧ (e.port i).config.pail ≠ 0 then
            pailWrite (e.port i).config.pail (j % max 1 (e.port i).config.depth * 64) (frameBytes16 g.1) s else s
        let e := if (p.config.direction = 1 ∧ p.startCount = 0) ∨ p.config.sourceKind = 3 then e else own.foldl put e
        let e := e.onPort i fun x => { x with slotMap := x.pendingMap.getD x.slotMap, pendingMap := none }
        let y := e.port i
        let sent := if y.config.sourceKind ≠ 3 then ringEntry y n else if y.state = .running then sourceFrame e i n [] else silence
        e.onPort i fun x =>
          { x with sampleIndex := n, startCount := x.startCount + 1, slotsOut := if x.config.direction = 2 then sendSlots x sent else []
                   edgeStamp := if n % 64 = 0 then shortStamp (domainNow e x.config.domain) else x.edgeStamp }) ∧
      Happens (fun t => .sapFsEdge t i x l) (fun d => ((first d).port i).on = false) first) ∧
    ∀ m : Nat,
      let nominal := fun x : AudioPort => ((rateHz x.config.rate * 1000 : Nat) : Int)
      let measured := fun d : Dev => d.onPort i fun x => { x with measuredMilliHz := m, offsetPpb := ((m : Int) - nominal (d.port i)) * 1000000000 / nominal (d.port i) }
      let on := fun d : Dev => (d.port i).on = true
      Happens (fun t => .sapFsMeasure t i m) (fun d => on d ∧ ((d.port i).asrc.enable = false ∨ (d.port i).ref.lost = true)) measured ∧
      Happens (fun t => .sapFsMeasure t i m) (fun d => on d ∧ (d.port i).asrc.enable = true ∧ (d.port i).ref.lost = false) (fun d =>
        let o := rateHz (d.port i).asrc.outRate * 1000
        let ratio : Nat := if (d.port i).config.direction = 1 then (m * 2 ^ 30 + o / 2) / o else (o * 2 ^ 30 + m / 2) / max 1 m
        setAsrc i (if nearTo (ratio : Rat) ((d.port i).asrc.ratio : Rat) 1 1000000 then 2 else 1) (clampNat ratio (2 ^ 29) (2 ^ 31)) (measured d)) ∧
      Happens (fun t => .sapFsMeasure t i m) (fun d => (d.port i).on = false) id

/-- Frame memory, pails and DMA (R393 to R450): corrected errors are counted and told once at the threshold, an uncorrectable error poisons its line, a
migration copies row by row, the pool's pages move, a stack's temperature sets its refresh multiple, refreshes are owed up to seven, the scrubber
goes on; a withered pail without references leaves the map, a page list is taken or refused, freed pages are zeroed, bursts end and waiting channels look again. -/
def Obligations.FrameMemoryRows : Prop :=
  (∀ line requester cause : Nat, Happens (fun t => .uncorrectableError t line requester cause) (fun _ => True) (fun d =>
    let rank := rankOfAddr d (line * 64)
    let e := rankError rank (poisonLine line (hbmUe rank cause (line * 64) requester d))
    endStartWait (if line * 64 < 0x20000000 then repairControl line e else if line * 64 < 0xA0000000 then mapPoison line e else e))) ∧
  (∀ i : Fin 192,
    Happens (fun t => .correctedError t i) (fun d => (d.rank i).raised = true ∨ counterOf (count (rankObj i) 0 1 d) (rankObj i) 0 < (d.rank i).threshold)
      (count (rankObj i) 0 1) ∧
    Happens (fun t => .correctedError t i) (fun d => (d.rank i).raised = false ∧ (d.rank i).threshold ≤ counterOf (count (rankObj i) 0 1 d) (rankObj i) 0) (fun d =>
      raise 0x11C4 2 (rankObj i) (le 2 (rankObj i) ++ le 2 (d.rank i).threshold) ((count (rankObj i) 0 1 d).onRank i fun r => { r with raised := true }))) ∧
  (∀ (m : Migration) (slot : Nat) (bad : Bool),
    let base := (m.bits * slotCount + slot) * 64
    let hurt := fun d : Dev => if bad then poisonLine base (hbmUe m.source 2 (base * 64) 0 d) else d
    let next := fun d : Dev =>
      { m with bits := m.bits + 1, poisoned := m.poisoned + (hurt d).hbm.poison.countP fun l => decide (base ≤ l) && decide (l < base + 64) }
    let moving := fun d : Dev => d.hbm.migration = some m ∧ slotOf d m.source = some slot ∧ ¬(m.dest = none ∧ regionBusy d = true)
    Happens (fun t => .migrationChunkCopy t bad) (fun d => moving d ∧ m.bits + 1 < m.rows)
      (fun d => (hurt d).onHbm fun h => { h with migration := some (next d) }) ∧
    Happens (fun t => .migrationChunkCopy t bad) (fun d => moving d ∧ m.rows ≤ m.bits + 1)
      (fun d => finishMigration (next d) ((hurt d).onHbm fun h => { h with migration := some (next d) })) ∧
    Happens (fun t => .migrationChunkCopy t bad) (fun d => d.hbm.migration = some m ∧ m.dest = none ∧ regionBusy d = true) id) ∧
  (let fits := fun (i : Nat) (d : Dev) => (d.rank i).state = .kept ∧ regionFits d = true
    let put := fun (i : Nat) (x : RankState) (d : Dev) => d.onRank i fun r => { r with state := x }
    Happens .poolPageMove (fun _ => True) (fun d =>
      let e := movePage d
      let e := match e.hbm.migration with
        | some m => if fits m.source e then put m.source .source e else e
        | none => e
      nextMigration (match e.hbm.leaving with
        | l :: _ => if l.shrink = true ∧ fits l.rank e then put l.rank .inService e else e
        | [] => e))) ∧
  (∀ (k : Fin 2) (v : Int),
    let new := fun d : Dev => nextMultiple (tabGet d.hbm.stackStates k).multiple v
    let reload := fun d : Dev => decide (50 ≤ (v - (tabGet d.hbm.stackStates k).loadedAt).natAbs)
    let read := fun d : Dev => (if reload d then loadDelays k v d else d).onHbm fun h => { h with stackStates := tabMod h.stackStates k fun s =>
      { s with temp := v, multiple := new d, loadedAt := if reload d then v else s.loadedAt, reloads := if reload d then s.reloads + 1 else s.reloads } }
    Happens (fun t => .stackTempReport t k v) (fun d => new d = (tabGet d.hbm.stackStates k).multiple) read ∧
    Happens (fun t => .stackTempReport t k v) (fun d => new d ≠ (tabGet d.hbm.stackStates k).multiple) (fun d =>
      raise 0x11C5 1 0 (le 1 k ++ le 1 (tabGet d.hbm.stackStates k).multiple ++ le 1 (new d) ++ le 1 0 ++ leInt 2 v) (read d))) ∧
  (∀ i : Fin 192,
    Happens (fun t => .refreshDue t i false) (fun _ => True) (fun d => d.onRank i fun r => { r with owed := 0 }) ∧
    Happens (fun t => .refreshDue t i true) (fun _ => True) (fun d => d.onRank i fun r => { r with owed := if 7 ≤ r.owed then 7 else r.owed + 1 })) ∧
  (Happens (fun t => .scrubStep t [] []) (fun d => d.faults.paused = false ∧ scrubSteps ≤ nextScrub d d.hbm.scrubLine)
      (fun d => d.onHbm fun h => { h with scrubLine := 0, scrubPassStart := d.now }) ∧
    ∀ a b : List Nat, Happens (fun t => .scrubStep t a b) (fun d => d.faults.paused = true) id ∧
      Happens (fun t => .scrubStep t a b) (fun d => d.faults.paused = false ∧ nextScrub d d.hbm.scrubLine < scrubSteps) (fun d =>
        let i := nextScrub d d.hbm.scrubLine
        let poisoned := fun line : Nat => match scrubAddress d (i / rankRows) (i % rankRows) line with
          | some a => decide (a / 64 ∈ d.hbm.poison)
          | none => false
        let e := (a.filter fun l => !poisoned l).foldl (fun d _ => corrected (i / rankRows) d) d
        let e := (b.filter fun l => !poisoned l).foldl (fun d l => match scrubAddress d (i / rankRows) (i % rankRows) l with
          | some a => uncorrectable (a / 64) 0 1 d
          | none => rankError (i / rankRows) (hbmUe (i / rankRows) 1 (Config.freeNat d.free 0) 0 (takeFree d).2)) e
        let f := gleanChunk 0 (e.onHbm fun h => { h with scrubLine := i + 1, scrubSkipped := h.scrubSkipped + (List.range 64).countP poisoned })
        if scrubSteps ≤ nextScrub e (i + 1) then f.onHbm fun h => { h with scrubLine := 0, scrubPassStart := f.now } else f)) ∧
  (∀ (h i : Nat) (p : Pail),
    Happens (fun t => .pailUnmap t h) (fun d => mappedPail d h = some (i, p) ∧ p.withering = true ∧ pailRefs d h = 0) (unmapPail i) ∧
    Happens (fun t => .pailUnmap t h) (fun d => mappedPail d h = some (i, p) ∧ pailRefs d h ≠ 0) id) ∧
  (∀ (h i addr : Nat) (p : Pail) (cmd : PendingCmd) (cells : List (Nat × Byte)) (failed : Bool),
    let listed := fun d : Dev => pageList (hostWrites cells d) addr (p.size / 65536)
    let waits := fun d : Dev => mappedPail (hostWrites cells d) h = some (i, p) ∧ p.importing = some (cmd, addr)
    Happens (fun t => .pailImportListRead t h false cells) (fun d => waits d ∧ pagesOk (listed d) = true) (fun d =>
      completeCmd cmd .ok ((hostWrites cells d).onPails fun t => { t with table := mapSet t.table i { p with pages := listed d, importing := none } })) ∧
    Happens (fun t => .pailImportListRead t h failed cells) (fun d => waits d ∧ (failed = true ∨ pagesOk (listed d) = false)) (fun d =>
      completeCmd cmd (.combination 8)
        (dropOwner (pailKey i) ((hostWrites cells d).onPails fun t => { t with table := mapDel t.table i, freed := t.freed ++ [i] })))) ∧
  Happens .pailZeroingStep (fun d => d.pails.zeroing ≠ []) (fun d =>
    let r := zeroRuns (d.pails.zeroed + 0x200000) d.pails.zeroing
    (gleanChunk 4 (r.2.2.foldl (fun d e => d.onHbm fun m => { m with mem := memClear m.mem e.1 e.2, poison := unpoison e.1 e.2 m.poison }) d)).onPails fun t =>
      { t with zeroing := r.2.1, zeroed := if r.2.1.isEmpty then 0 else r.1 }) ∧
  (∀ (m : Fin 8) (c : Nat) (fault : Option AccessFault) (cells : List (Nat × Byte)),
    Happens (fun t => .dmaBurstComplete t m fault cells) (fun d => tabGet d.dma.movers m = some c) (fun d => assignMovers (finishBurst c fault (hostWrites cells d))) ∧
    Happens (fun t => .dmaBurstComplete t m fault cells) (fun d => tabGet d.dma.movers m = none ∧ tabGet (takeBurst m (hostWrites cells d)).dma.movers m = some c)
      (fun d => assignMovers (finishBurst c fault (takeBurst m (hostWrites cells d))))) ∧
  ∀ (c : Fin 64) (cells : List (Nat × Byte)),
    Happens (fun t => .dmaLevelPoll t c cells) (fun d => (d.channel c).state = .waiting) (fun d => assignMovers (hostWrites cells d)) ∧
    Happens (fun t => .dmaLevelPoll t c cells) (fun d => (d.channel c).state ≠ .waiting) (hostWrites cells)

/-- The magazine's engine (R451 to R478, R489): a cartridge that is seated is powered and mounted, one that does not fit is unsupported, a removal gives up what
was staged, the program or erase that a die serves ends, records form, acres that are 10 ms old are programmed, the journal, the checkpoint and the clip
directory are written, and churn relocates an acre of the block that it chose, or orders the block's erase once nothing valid is left in it. -/
def Obligations.MagazineRows : Prop :=
  (Happens .magPowerEnable (fun d => d.mag.state = .absent) (fun d => d.onMag fun m => { m with state := .mounting, present := true, powerOn := true, powerAt := d.now }) ∧
    Happens .magPowerEnable (fun d => d.mag.state ≠ .absent) id) ∧
  (∀ (m : MountInfo) (ch die why : Nat),
    Happens (fun t => .magazineMount t m) (fun d => d.mag.state = .mounting ∧ fitOutFault (packFound m d).dies m = some (ch, die, why)) (fun d =>
      raise 0x1084 3 0 (le 1 ch ++ le 1 die ++ le 1 why ++ le 1 0) (d.onMag fun m => { m with state := .unsupported })) ∧
    Happens (fun t => .magazineMount t m) (fun d => d.mag.state = .mounting ∧ fitOutFault (packFound m d).dies m = none) (fun d =>
      let e := (d.onPack fun _ => recoverMap m.scan (packFound m d)).onMag fun x =>
        { x with state := .mounted, stripeAcres := 0, stripe := x.stripe + 1, pack := { x.pack with clean := false } }
      let ids := e.mag.pack.reels.map (·.1)
      let e := ids.foldl rereadReel e
      let opened := ids.flatMap fun n => match mapGet e.mag.pack.reels n with
        | some r => (r.clips.filter fun c => c.state = 1).map fun c => (n, c)
        | none => []
      let e := checkFree (checkWorn (reattach (placeFull (opened.foldl (fun d x => recoverClip x.1 d x.2) e))))
      raise 0x1080 0 0 (le 1 (boolNat m.scan) ++ le 2 (sumOf id e.mag.pack.dies) ++ le 2 ids.length ++ le 2 opened.length ++ le 4 m.mountMs) e)) ∧
  (Happens .magazineRemoval (fun d => d.mag.state = .absent) (fun d => endStartWait (d.onMag fun m => { m with present := false })) ∧
    Happens .magazineRemoval (fun d => d.mag.state ≠ .absent) (fun d =>
      let l := (settleMag d).mag.recordings
      let e := (indexed l).foldl (removeRecording l.length) (settleMag d)
      let e := if l.isEmpty then raise 0x1081 3 0 (le 16 0) e else e
      let r := setCounter 0 8 0 (e.onMag fun m =>
        { m with state := .absent, present := false, powerOn := false, writes := [], stripeAcres := 0, worn := false, freeLow := false, eject := none, format := none
                 dies := [], erases := [] })
      let lost := fetchBlocked (settleHostWrites (giveUp (e.mag.writes.map (·.id)) 0 notReady r))
      endStartWait (syncInternal (dropPending e.mag.format (dropPending e.mag.eject lost))))) ∧
  (∀ (acre : Nat) (w : AcreWrite),
    let served := fun d : Dev => magUsable d = true ∧ d.mag.writes.find? (fun w => w.logical = acre && !w.programmed && servesWrite d.mag w) = some w
    Happens (fun t => .nandOperationComplete t (.program acre true)) served (fun d => endStartWait (settleHost (programOk w d))) ∧
    Happens (fun t => .nandOperationComplete t (.program acre false)) served (fun d =>
      let x := programFailed w (d.nvme.staged.any fun x => decide (w.id ∈ x.acres)) d
      endStartWait (settleHost (if x.2 then giveUp [w.id] 2 { sct := 2, sc := 0x80 } x.1 else x.1)))) ∧
  (∀ (die block : Nat) (ok : Bool),
    let erased := fun t => Instr.nandOperationComplete t (.erase die block ok)
    Happens erased (fun d => magUsable d = true ∧ d.mag.format = none ∧ servesErase d.mag die block = true ∧ (eraseDone die block ok d).mag.format = none)
      (fun d => endStartWait (settleHost (eraseDone die block ok d))) ∧
    Happens erased (fun d => magUsable d = true ∧ d.mag.format = none ∧ servesErase d.mag die block = false) (fun d => endStartWait (settleHost d)) ∧
    ∀ c : PendingCmd, Happens erased (fun d => magUsable d = true ∧ d.mag.format.isSome = true ∧ (eraseDone die block ok d).mag.format = some c)
      (fun d => endStartWait (settleHost (finishFormat c (eraseDone die block ok d))))) ∧
  (∀ (nsid lba : Nat) (churn : Bool),
    Happens (fun t => .nandOperationComplete t (.read nsid lba churn false)) (fun d => magUsable d = true ∧ (reelOf d nsid).isSome = true)
      (fun d => endStartWait (blockUnrecovered nsid lba (boolNat churn) d)) ∧
    Happens (fun t => .nandOperationComplete t (.read nsid lba churn true)) (fun _ => True) endStartWait) ∧
  (∀ (i : Fin 16) (n : Nat) (r : Recording),
    Happens (fun t => .recordForm t i) (fun d => nthReel d i = some n) (fun d => settleMag (formRecord n d)) ∧
    Happens (fun t => .recordForm t i) (fun d => nthReel d i = none) id ∧
    Happens (fun t => .clipDirectoryUpdate t i) (fun d => nthReel d i = some n ∧ recordingOf d n = some r ∧ r.ending = false ∧ r.lastDirectory + 1000000000 ≤ d.now)
      (fun d => settleMag (placeFull (writeEntry n r.clip (d.onRecording n fun r => { r with lastDirectory := d.now })).1))) ∧
  Happens .partialAcreProgram (fun d => magUsable d = true) (fun d => settleMag (partialProgram d)) ∧
  Happens .journalPageProgram (fun d => magUsable d = true) (fun d => endStartWait (settleHost
    ((healRun (stagedPage 0) 0x20000 (passDie (journalDie d.mag.pack) d)).onMag fun m =>
      { m with writes := m.writes.map (fun w => if w.programmed then { w with journaled := true } else w)
               pack := { m.pack with journaledSeq := m.pack.journalSeq, journalPages := m.pack.journalPages + 1 } }))) ∧
  (Happens .mapCheckpoint (fun d => magUsable d = true ∧ 262144 ≤ d.mag.sinceCheckpoint) (fun d =>
      (healRun journalCopy 0x400000 d).onMag fun m =>
        { m with sinceCheckpoint := 0
                 pack := { m.pack with checkpointMap := m.pack.replayed, checkpointSeq := m.pack.journaledSeq, checkpointArea := 1 - m.pack.checkpointArea
                                       journal := m.pack.journal.filter fun e => e.2.2 > m.pack.journaledSeq } }) ∧
    Happens .mapCheckpoint (fun d => d.mag.sinceCheckpoint < 262144) id) ∧
  ∀ (die block : Nat) (wear : Bool) (e : Nat × Nat),
    let chosen := fun d : Dev => magUsable d = true ∧ d.faults.paused = false ∧ churnChoice d.mag die block = some wear
    let next := fun d : Dev => d.mag.pack.map.find? fun e => d.mag.pack.acreKey e.2 = blockKey die block && (newestWrite d e.1).isNone
    Happens (fun t => .churnStep t die block) (fun d => chosen d ∧ next (gleanChunk 1 d) = some e) (fun d =>
      placeFull ((stageWhole 2 e.1 (churnImage (gleanChunk 1 d) e.1) (gleanChunk 1 d)).1.onMag fun m =>
        { m with churned := m.churned + 1, levelled := m.levelled + boolNat wear })) ∧
    Happens (fun t => .churnStep t die block) (fun d => chosen d ∧ next (gleanChunk 1 d) = none ∧ mayErase (gleanChunk 1 d).mag die block = true)
      (fun d => serveDies ((gleanChunk 1 d).onMag fun m => { m with erases := m.erases ++ [(die, block)] })) ∧
    Happens (fun t => .churnStep t die block) (fun d => churnChoice d.mag die block = none) id

/-- Faults and long running (R502, R503, R506 to R515, R521 to R529, R548): an idle drill passes or fails its patrol, a yoke lane that disagrees is fenced and a second one makes
the module fatal, a standby complex that fails is out of service, a fail-over without a ready standby complex is fatal, a thermal trip asserts
THERMAL_TRIP and makes the module fatal with cause 4, a telemetry sample is kept among the newest 600, the gleaner's six tasks are judged, the event ring takes its
records, and an update's slot is erased and checked. -/
def Obligations.LongRunRows : Prop :=
  (∀ i : Fin 384,
    Happens (fun t => .drillPatrol t i true) (fun d => (tabGet d.fabric.drills i).lost = false ∧ (tabGet d.fabric.drills i).job = none) (fun d =>
      gleanChunk 5 (d.onFabric fun f => { f with drills := tabMod f.drills i fun y => { y with lastPatrol := d.now } })) ∧
    Happens (fun t => .drillPatrol t i false) (fun d => (tabGet d.fabric.drills i).lost = false ∧ (tabGet d.fabric.drills i).job = none) (loseDrill i 0 3) ∧
    ∀ good : Bool, Happens (fun t => .drillPatrol t i good) (fun d => (tabGet d.fabric.drills i).lost = true ∨ (tabGet d.fabric.drills i).job.isSome = true) id) ∧
  (∀ i : Fin 3,
    let more := fun l : YokeLane => min (l.disagreements + 1) 65535
    Happens (fun t => .yokeLaneDisagree t i) (fun d => ∀ l ∈ d.faults.lanes, l.fenced = false) (fun d =>
      raise 0x1182 3 0 (le 1 i ++ le 3 0) (d.onFaults fun f => { f with lanes := tabMod f.lanes i fun _ => { fenced := true, disagreements := more (tabGet f.lanes i) } })) ∧
    Happens (fun t => .yokeLaneDisagree t i) (fun d => (tabGet d.faults.lanes i).fenced = false ∧ ∃ l ∈ d.faults.lanes, l.fenced = true) (fun d =>
      goFatal 2 (d.onFaults fun f => { f with lanes := tabMod f.lanes i fun l => { l with disagreements := more l } })) ∧
    Happens (fun t => .yokeLaneDisagree t i) (fun d => (tabGet d.faults.lanes i).fenced = true) id) ∧
  (∀ why : Nat,
    Happens (fun t => .standbyComplexFault t why) (fun d => d.faults.standby ≠ .failed) (fun d =>
      raise 0x1181 3 0 (le 1 (1 - activeComplex d) ++ le 1 why ++ le 2 0) (d.onFaults fun f => { f with standby := .failed })) ∧
    Happens (fun t => .standbyComplexFault t why) (fun d => d.faults.standby = .failed) id) ∧
  (∀ why us : Nat,
    Happens (fun t => .failover t why us) (fun d => fatal d = false ∧ d.boot.ready = true ∧ d.faults.standby ≠ .ready) (goFatal 1) ∧
    Happens (fun t => .failover t why us) (fun d => fatal d = false ∧ d.boot.ready = true ∧ d.faults.standby = .ready) (fun d =>
      let e := pauseControl d
      let groups := e.faults.groups
      let fifo := e.faults.yokeFifo
      let redone := boolNat e.fabric.raise.isSome + boolNat e.mag.startWait.isSome
      let e := e.onFaults fun f =>
        { f with activeB := !f.activeB, standby := .failed, failovers := (f.failovers + 1) % 2 ^ 32, lastTrigger := why, lastPauseUs := us
                 replayed := min 65535 (f.replayed + groups.length + redone), groups := [], yokeFifo := [], paused := false
                 lockstepMismatches := if why = 1 then min 4294967295 (f.lockstepMismatches + 1) else f.lockstepMismatches }
      let e := runHeld (dropUpdate (rewriteGroups (shiftDeadlines (us * 1000) e)))
      let e := setDevStatus 1 e.faults.activeB (setDevStatus 2 false e)
      let replay := fun (d : Dev) (g : JournalGroup) => match g.reply with
        | some r => finish g.request true { status := r.status, detail := r.detail, params := r.params } d
        | none => execute g.request true d
      let e := fifo.foldl (fun d r => storeEvent r d) (groups.foldl replay e)
      drainAll (raise 0x1180 3 0 (le 1 why ++ le 1 (activeComplex e) ++ le 2 0 ++ le 4 us ++ le 2 groups.length ++ le 2 redone) e))) ∧
  (∀ k : Nat, Happens (fun t => .thermalTrip t k) (fun _ => True) (fun d =>
      (goFatal 4 d).onFaults fun f => { f with thermalTrip := true, fatalCause := 4, stickyCause := 4 }) ∧
    ∀ (s : State) (at_ : Nat), (s.dev.clock at_).faults.thermalTrip = false → ∃ t, exec (.thermalTrip at_ k) s = .next t ∧ Tripped t.dev) ∧
  (∀ r : TelemetryIn, Happens (fun t => .telemetrySample t r) (fun d => firmwareRuns d = false) id ∧
    ∀ (s : State) (at_ : Nat), firmwareRuns (s.dev.clock at_) = true → (s.dev.clock at_).faults.thermalTrip = false → ∃ t, exec (.telemetrySample at_ r) s = .next t ∧
      t.dev.gleaner.nextIndex = (s.dev.gleaner.nextIndex + 1) % 2 ^ 32 ∧ t.dev.gleaner.samples.length = min 600 (s.dev.gleaner.samples.length + 1)
        ∧ (t.dev.gleaner.samples.head?.map (·.index)) = some s.dev.gleaner.nextIndex) ∧
  (∀ l : List Nat, Happens (fun t => .gleanerEvaluate t l) (fun d => firmwareRuns d = true) (fun d => (List.range 6).foldl (evaluateTask ((List.range 6).map (taskNeed d l))) d)) ∧
  (HappensAlways .eventRingCopy (fun d => eventSlots d.bar0 ≠ 0 ∧ d.faults.paused = false) (fun d => signalEvents (copyEvents (dueEvents (reportLoss d)) (reportLoss d))) ∧
    HappensAlways .eventRingCopy (fun d => eventSlots d.bar0 = 0 ∨ d.faults.paused = true) id) ∧
  ∀ (u : FwUpdate) (p : PendingCmd) (im : ImageIn),
    Happens (fun t => .fwSlotEraseDone t true) (fun d => d.boot.update = some u ∧ u.erasing = some p)
      (fun d => completeCmd p .ok (d.onBoot fun b => { b with update := some { u with erasing := none } })) ∧
    Happens (fun t => .fwSlotEraseDone t false) (fun d => d.boot.update = some u ∧ u.erasing = some p)
      (fun d => completeCmd p { status := 0x0701 } (d.onBoot fun b => { b with update := none })) ∧
    Happens (fun t => .fwSlotCheckDone t im) (fun d => d.boot.update = some u ∧ u.checking = some p) (fun d =>
      let image := imageOf (imageHeader (tabGet d.boot.slots u.slot).bytes 0xFF) 0x1800000 im
      let r := verifyImage d.boot image
      completeCmd p .ok ((d.onSlot u.slot fun s => { s with image, result := r, bootable := decide (r = 0), ended := decide (r = 0) }).onBoot fun b => { b with update := none }))

/-! ## Memory, the queue, and a thermal trip -/

/-- Host and frame memory are byte arrays: a write changes exactly its own bytes, to the values written, and clearing sets exactly its own bytes to zero;
an address that nothing has written reads as 0, the model's choice (log 13). -/
def Obligations.MemoryWritesOwnBytes : Prop :=
  (∀ (m : Mem) (a x : Nat) (bs : List Byte), memGet (memWrite m a bs) x = if a ≤ x ∧ x < a + bs.length then bs.getD (x - a) 0 else memGet m x) ∧
  (∀ (m : Mem) (a n x : Nat), memGet (memClear m a n) x = if a ≤ x ∧ x < a + n then 0 else memGet m x) ∧
  (∀ (m : Mem) (a : Nat) (bs : List Byte), memRead (memWrite m a bs) a bs.length = bs) ∧
  ∀ x : Nat, memGet State.reset.dev.pails.hostMem x = 0 ∧ memGet State.reset.dev.hbm.mem x = 0

/-- A step keeps the queue's commands well formed, and takes exactly one. -/
def Obligations.QueueStaysWellFormed : Prop :=
  ∀ s t : State, s.queueOk = true → step s = .next t → t.queueOk = true ∧ t.pending = s.pending.tail

/-- At reset the queue is well formed, both memories have their canonical form, and no thermal trip stands. -/
def Obligations.ResetMeetsInvariants : Prop :=
  State.reset.queueOk = true ∧ Memory.wf State.reset.dev.pails.hostMem = true ∧ Memory.wf State.reset.dev.hbm.mem = true ∧ ¬Tripped State.reset.dev

/-- From a thermal trip on nothing runs: whatever row comes but RESET_N and a power-on reset, the module stays tripped and its engines, its control
state, frame memory and the magazine stay as they are (R515, R569; that a stopped module carries out no command is log 32's reading). -/
def Obligations.TrippedModuleStandsStill : Prop :=
  ∀ (s t : State) (c : Instr) (rest : List Instr), s.pending = c :: rest → Tripped s.dev → endsTrip c = false → step s = .next t →
    Tripped t.dev ∧ SameEngines s.dev t.dev
end

