-- ==== Sys2Proof/Laws/State.lean ====
section
/-! SUPPORT. What each update of the state leaves of each field: the field itself, changed where the update changes it. -/

namespace Sys2Proof.Machine

/-! ## The whole state -/

@[simp] theorem State.set_dev (s : State) (d : Dev) : (s.set d).dev = d := rfl
@[simp] theorem State.set_pending (s : State) (d : Dev) : (s.set d).pending = s.pending := rfl
@[simp] theorem State.set_set (s : State) (d e : Dev) : (s.set d).set e = s.set e := rfl
@[simp] theorem State.set_self (s : State) : s.set s.dev = s := rfl

/-! ## The clock -/

@[simp] theorem Dev.clock_now (t : Nat) (d : Dev) : (d.clock t).now = max d.now t := rfl
@[simp] theorem Dev.clock_ctl (t : Nat) (d : Dev) : (d.clock t).ctl = d.ctl := rfl
@[simp] theorem Dev.clock_bar0 (t : Nat) (d : Dev) : (d.clock t).bar0 = d.bar0 := rfl
@[simp] theorem Dev.clock_spi (t : Nat) (d : Dev) : (d.clock t).spi = d.spi := rfl
@[simp] theorem Dev.clock_udp (t : Nat) (d : Dev) : (d.clock t).udp = d.udp := rfl
@[simp] theorem Dev.clock_events (t : Nat) (d : Dev) : (d.clock t).events = d.events := rfl
@[simp] theorem Dev.clock_counters (t : Nat) (d : Dev) : (d.clock t).counters = d.counters := rfl
@[simp] theorem Dev.clock_gleaner (t : Nat) (d : Dev) : (d.clock t).gleaner = d.gleaner := rfl
@[simp] theorem Dev.clock_faults (t : Nat) (d : Dev) : (d.clock t).faults = d.faults := rfl
@[simp] theorem Dev.clock_fabric (t : Nat) (d : Dev) : (d.clock t).fabric = d.fabric := rfl
@[simp] theorem Dev.clock_furrows (t : Nat) (d : Dev) : (d.clock t).furrows = d.furrows := rfl
@[simp] theorem Dev.clock_streams (t : Nat) (d : Dev) : (d.clock t).streams = d.streams := rfl
@[simp] theorem Dev.clock_codecs (t : Nat) (d : Dev) : (d.clock t).codecs = d.codecs := rfl
@[simp] theorem Dev.clock_display (t : Nat) (d : Dev) : (d.clock t).display = d.display := rfl
@[simp] theorem Dev.clock_time (t : Nat) (d : Dev) : (d.clock t).time = d.time := rfl
@[simp] theorem Dev.clock_net (t : Nat) (d : Dev) : (d.clock t).net = d.net := rfl
@[simp] theorem Dev.clock_audio (t : Nat) (d : Dev) : (d.clock t).audio = d.audio := rfl
@[simp] theorem Dev.clock_hbm (t : Nat) (d : Dev) : (d.clock t).hbm = d.hbm := rfl
@[simp] theorem Dev.clock_pails (t : Nat) (d : Dev) : (d.clock t).pails = d.pails := rfl
@[simp] theorem Dev.clock_dma (t : Nat) (d : Dev) : (d.clock t).dma = d.dma := rfl
@[simp] theorem Dev.clock_mag (t : Nat) (d : Dev) : (d.clock t).mag = d.mag := rfl
@[simp] theorem Dev.clock_nvme (t : Nat) (d : Dev) : (d.clock t).nvme = d.nvme := rfl
@[simp] theorem Dev.clock_boot (t : Nat) (d : Dev) : (d.clock t).boot = d.boot := rfl
@[simp] theorem Dev.clock_free (t : Nat) (d : Dev) : (d.clock t).free = d.free := rfl

/-! ## `Dev.onCtl` -/

section

variable (f g : Control → Control) (d : Dev)

@[simp] theorem Dev.onCtl_now : (d.onCtl f).now = d.now := rfl
@[simp] theorem Dev.onCtl_ctl : (d.onCtl f).ctl = f d.ctl := rfl
@[simp] theorem Dev.onCtl_bar0 : (d.onCtl f).bar0 = d.bar0 := rfl
@[simp] theorem Dev.onCtl_spi : (d.onCtl f).spi = d.spi := rfl
@[simp] theorem Dev.onCtl_udp : (d.onCtl f).udp = d.udp := rfl
@[simp] theorem Dev.onCtl_events : (d.onCtl f).events = d.events := rfl
@[simp] theorem Dev.onCtl_counters : (d.onCtl f).counters = d.counters := rfl
@[simp] theorem Dev.onCtl_gleaner : (d.onCtl f).gleaner = d.gleaner := rfl
@[simp] theorem Dev.onCtl_faults : (d.onCtl f).faults = d.faults := rfl
@[simp] theorem Dev.onCtl_fabric : (d.onCtl f).fabric = d.fabric := rfl
@[simp] theorem Dev.onCtl_furrows : (d.onCtl f).furrows = d.furrows := rfl
@[simp] theorem Dev.onCtl_streams : (d.onCtl f).streams = d.streams := rfl
@[simp] theorem Dev.onCtl_codecs : (d.onCtl f).codecs = d.codecs := rfl
@[simp] theorem Dev.onCtl_display : (d.onCtl f).display = d.display := rfl
@[simp] theorem Dev.onCtl_time : (d.onCtl f).time = d.time := rfl
@[simp] theorem Dev.onCtl_net : (d.onCtl f).net = d.net := rfl
@[simp] theorem Dev.onCtl_audio : (d.onCtl f).audio = d.audio := rfl
@[simp] theorem Dev.onCtl_hbm : (d.onCtl f).hbm = d.hbm := rfl
@[simp] theorem Dev.onCtl_pails : (d.onCtl f).pails = d.pails := rfl
@[simp] theorem Dev.onCtl_dma : (d.onCtl f).dma = d.dma := rfl
@[simp] theorem Dev.onCtl_mag : (d.onCtl f).mag = d.mag := rfl
@[simp] theorem Dev.onCtl_nvme : (d.onCtl f).nvme = d.nvme := rfl
@[simp] theorem Dev.onCtl_boot : (d.onCtl f).boot = d.boot := rfl
@[simp] theorem Dev.onCtl_free : (d.onCtl f).free = d.free := rfl
theorem Dev.onCtl_onCtl : (d.onCtl f).onCtl g = d.onCtl (fun x => g (f x)) := rfl

end

/-! ## `Dev.onBar0` -/

section

variable (f g : Bar0 → Bar0) (d : Dev)

@[simp] theorem Dev.onBar0_now : (d.onBar0 f).now = d.now := rfl
@[simp] theorem Dev.onBar0_ctl : (d.onBar0 f).ctl = d.ctl := rfl
@[simp] theorem Dev.onBar0_bar0 : (d.onBar0 f).bar0 = f d.bar0 := rfl
@[simp] theorem Dev.onBar0_spi : (d.onBar0 f).spi = d.spi := rfl
@[simp] theorem Dev.onBar0_udp : (d.onBar0 f).udp = d.udp := rfl
@[simp] theorem Dev.onBar0_events : (d.onBar0 f).events = d.events := rfl
@[simp] theorem Dev.onBar0_counters : (d.onBar0 f).counters = d.counters := rfl
@[simp] theorem Dev.onBar0_gleaner : (d.onBar0 f).gleaner = d.gleaner := rfl
@[simp] theorem Dev.onBar0_faults : (d.onBar0 f).faults = d.faults := rfl
@[simp] theorem Dev.onBar0_fabric : (d.onBar0 f).fabric = d.fabric := rfl
@[simp] theorem Dev.onBar0_furrows : (d.onBar0 f).furrows = d.furrows := rfl
@[simp] theorem Dev.onBar0_streams : (d.onBar0 f).streams = d.streams := rfl
@[simp] theorem Dev.onBar0_codecs : (d.onBar0 f).codecs = d.codecs := rfl
@[simp] theorem Dev.onBar0_display : (d.onBar0 f).display = d.display := rfl
@[simp] theorem Dev.onBar0_time : (d.onBar0 f).time = d.time := rfl
@[simp] theorem Dev.onBar0_net : (d.onBar0 f).net = d.net := rfl
@[simp] theorem Dev.onBar0_audio : (d.onBar0 f).audio = d.audio := rfl
@[simp] theorem Dev.onBar0_hbm : (d.onBar0 f).hbm = d.hbm := rfl
@[simp] theorem Dev.onBar0_pails : (d.onBar0 f).pails = d.pails := rfl
@[simp] theorem Dev.onBar0_dma : (d.onBar0 f).dma = d.dma := rfl
@[simp] theorem Dev.onBar0_mag : (d.onBar0 f).mag = d.mag := rfl
@[simp] theorem Dev.onBar0_nvme : (d.onBar0 f).nvme = d.nvme := rfl
@[simp] theorem Dev.onBar0_boot : (d.onBar0 f).boot = d.boot := rfl
@[simp] theorem Dev.onBar0_free : (d.onBar0 f).free = d.free := rfl
theorem Dev.onBar0_onBar0 : (d.onBar0 f).onBar0 g = d.onBar0 (fun x => g (f x)) := rfl

end

/-! ## `Dev.onSpi` -/

section

variable (f g : SpiTarget → SpiTarget) (d : Dev)

@[simp] theorem Dev.onSpi_now : (d.onSpi f).now = d.now := rfl
@[simp] theorem Dev.onSpi_ctl : (d.onSpi f).ctl = d.ctl := rfl
@[simp] theorem Dev.onSpi_bar0 : (d.onSpi f).bar0 = d.bar0 := rfl
@[simp] theorem Dev.onSpi_spi : (d.onSpi f).spi = f d.spi := rfl
@[simp] theorem Dev.onSpi_udp : (d.onSpi f).udp = d.udp := rfl
@[simp] theorem Dev.onSpi_events : (d.onSpi f).events = d.events := rfl
@[simp] theorem Dev.onSpi_counters : (d.onSpi f).counters = d.counters := rfl
@[simp] theorem Dev.onSpi_gleaner : (d.onSpi f).gleaner = d.gleaner := rfl
@[simp] theorem Dev.onSpi_faults : (d.onSpi f).faults = d.faults := rfl
@[simp] theorem Dev.onSpi_fabric : (d.onSpi f).fabric = d.fabric := rfl
@[simp] theorem Dev.onSpi_furrows : (d.onSpi f).furrows = d.furrows := rfl
@[simp] theorem Dev.onSpi_streams : (d.onSpi f).streams = d.streams := rfl
@[simp] theorem Dev.onSpi_codecs : (d.onSpi f).codecs = d.codecs := rfl
@[simp] theorem Dev.onSpi_display : (d.onSpi f).display = d.display := rfl
@[simp] theorem Dev.onSpi_time : (d.onSpi f).time = d.time := rfl
@[simp] theorem Dev.onSpi_net : (d.onSpi f).net = d.net := rfl
@[simp] theorem Dev.onSpi_audio : (d.onSpi f).audio = d.audio := rfl
@[simp] theorem Dev.onSpi_hbm : (d.onSpi f).hbm = d.hbm := rfl
@[simp] theorem Dev.onSpi_pails : (d.onSpi f).pails = d.pails := rfl
@[simp] theorem Dev.onSpi_dma : (d.onSpi f).dma = d.dma := rfl
@[simp] theorem Dev.onSpi_mag : (d.onSpi f).mag = d.mag := rfl
@[simp] theorem Dev.onSpi_nvme : (d.onSpi f).nvme = d.nvme := rfl
@[simp] theorem Dev.onSpi_boot : (d.onSpi f).boot = d.boot := rfl
@[simp] theorem Dev.onSpi_free : (d.onSpi f).free = d.free := rfl
theorem Dev.onSpi_onSpi : (d.onSpi f).onSpi g = d.onSpi (fun x => g (f x)) := rfl

end

/-! ## `Dev.onUdp` -/

section

variable (f g : UdpTransport → UdpTransport) (d : Dev)

@[simp] theorem Dev.onUdp_now : (d.onUdp f).now = d.now := rfl
@[simp] theorem Dev.onUdp_ctl : (d.onUdp f).ctl = d.ctl := rfl
@[simp] theorem Dev.onUdp_bar0 : (d.onUdp f).bar0 = d.bar0 := rfl
@[simp] theorem Dev.onUdp_spi : (d.onUdp f).spi = d.spi := rfl
@[simp] theorem Dev.onUdp_udp : (d.onUdp f).udp = f d.udp := rfl
@[simp] theorem Dev.onUdp_events : (d.onUdp f).events = d.events := rfl
@[simp] theorem Dev.onUdp_counters : (d.onUdp f).counters = d.counters := rfl
@[simp] theorem Dev.onUdp_gleaner : (d.onUdp f).gleaner = d.gleaner := rfl
@[simp] theorem Dev.onUdp_faults : (d.onUdp f).faults = d.faults := rfl
@[simp] theorem Dev.onUdp_fabric : (d.onUdp f).fabric = d.fabric := rfl
@[simp] theorem Dev.onUdp_furrows : (d.onUdp f).furrows = d.furrows := rfl
@[simp] theorem Dev.onUdp_streams : (d.onUdp f).streams = d.streams := rfl
@[simp] theorem Dev.onUdp_codecs : (d.onUdp f).codecs = d.codecs := rfl
@[simp] theorem Dev.onUdp_display : (d.onUdp f).display = d.display := rfl
@[simp] theorem Dev.onUdp_time : (d.onUdp f).time = d.time := rfl
@[simp] theorem Dev.onUdp_net : (d.onUdp f).net = d.net := rfl
@[simp] theorem Dev.onUdp_audio : (d.onUdp f).audio = d.audio := rfl
@[simp] theorem Dev.onUdp_hbm : (d.onUdp f).hbm = d.hbm := rfl
@[simp] theorem Dev.onUdp_pails : (d.onUdp f).pails = d.pails := rfl
@[simp] theorem Dev.onUdp_dma : (d.onUdp f).dma = d.dma := rfl
@[simp] theorem Dev.onUdp_mag : (d.onUdp f).mag = d.mag := rfl
@[simp] theorem Dev.onUdp_nvme : (d.onUdp f).nvme = d.nvme := rfl
@[simp] theorem Dev.onUdp_boot : (d.onUdp f).boot = d.boot := rfl
@[simp] theorem Dev.onUdp_free : (d.onUdp f).free = d.free := rfl
theorem Dev.onUdp_onUdp : (d.onUdp f).onUdp g = d.onUdp (fun x => g (f x)) := rfl

end

/-! ## `Dev.onEvents` -/

section

variable (f g : Events → Events) (d : Dev)

@[simp] theorem Dev.onEvents_now : (d.onEvents f).now = d.now := rfl
@[simp] theorem Dev.onEvents_ctl : (d.onEvents f).ctl = d.ctl := rfl
@[simp] theorem Dev.onEvents_bar0 : (d.onEvents f).bar0 = d.bar0 := rfl
@[simp] theorem Dev.onEvents_spi : (d.onEvents f).spi = d.spi := rfl
@[simp] theorem Dev.onEvents_udp : (d.onEvents f).udp = d.udp := rfl
@[simp] theorem Dev.onEvents_events : (d.onEvents f).events = f d.events := rfl
@[simp] theorem Dev.onEvents_counters : (d.onEvents f).counters = d.counters := rfl
@[simp] theorem Dev.onEvents_gleaner : (d.onEvents f).gleaner = d.gleaner := rfl
@[simp] theorem Dev.onEvents_faults : (d.onEvents f).faults = d.faults := rfl
@[simp] theorem Dev.onEvents_fabric : (d.onEvents f).fabric = d.fabric := rfl
@[simp] theorem Dev.onEvents_furrows : (d.onEvents f).furrows = d.furrows := rfl
@[simp] theorem Dev.onEvents_streams : (d.onEvents f).streams = d.streams := rfl
@[simp] theorem Dev.onEvents_codecs : (d.onEvents f).codecs = d.codecs := rfl
@[simp] theorem Dev.onEvents_display : (d.onEvents f).display = d.display := rfl
@[simp] theorem Dev.onEvents_time : (d.onEvents f).time = d.time := rfl
@[simp] theorem Dev.onEvents_net : (d.onEvents f).net = d.net := rfl
@[simp] theorem Dev.onEvents_audio : (d.onEvents f).audio = d.audio := rfl
@[simp] theorem Dev.onEvents_hbm : (d.onEvents f).hbm = d.hbm := rfl
@[simp] theorem Dev.onEvents_pails : (d.onEvents f).pails = d.pails := rfl
@[simp] theorem Dev.onEvents_dma : (d.onEvents f).dma = d.dma := rfl
@[simp] theorem Dev.onEvents_mag : (d.onEvents f).mag = d.mag := rfl
@[simp] theorem Dev.onEvents_nvme : (d.onEvents f).nvme = d.nvme := rfl
@[simp] theorem Dev.onEvents_boot : (d.onEvents f).boot = d.boot := rfl
@[simp] theorem Dev.onEvents_free : (d.onEvents f).free = d.free := rfl
theorem Dev.onEvents_onEvents : (d.onEvents f).onEvents g = d.onEvents (fun x => g (f x)) := rfl

end

/-! ## `Dev.onGleaner` -/

section

variable (f g : Gleaner → Gleaner) (d : Dev)

@[simp] theorem Dev.onGleaner_now : (d.onGleaner f).now = d.now := rfl
@[simp] theorem Dev.onGleaner_ctl : (d.onGleaner f).ctl = d.ctl := rfl
@[simp] theorem Dev.onGleaner_bar0 : (d.onGleaner f).bar0 = d.bar0 := rfl
@[simp] theorem Dev.onGleaner_spi : (d.onGleaner f).spi = d.spi := rfl
@[simp] theorem Dev.onGleaner_udp : (d.onGleaner f).udp = d.udp := rfl
@[simp] theorem Dev.onGleaner_events : (d.onGleaner f).events = d.events := rfl
@[simp] theorem Dev.onGleaner_counters : (d.onGleaner f).counters = d.counters := rfl
@[simp] theorem Dev.onGleaner_gleaner : (d.onGleaner f).gleaner = f d.gleaner := rfl
@[simp] theorem Dev.onGleaner_faults : (d.onGleaner f).faults = d.faults := rfl
@[simp] theorem Dev.onGleaner_fabric : (d.onGleaner f).fabric = d.fabric := rfl
@[simp] theorem Dev.onGleaner_furrows : (d.onGleaner f).furrows = d.furrows := rfl
@[simp] theorem Dev.onGleaner_streams : (d.onGleaner f).streams = d.streams := rfl
@[simp] theorem Dev.onGleaner_codecs : (d.onGleaner f).codecs = d.codecs := rfl
@[simp] theorem Dev.onGleaner_display : (d.onGleaner f).display = d.display := rfl
@[simp] theorem Dev.onGleaner_time : (d.onGleaner f).time = d.time := rfl
@[simp] theorem Dev.onGleaner_net : (d.onGleaner f).net = d.net := rfl
@[simp] theorem Dev.onGleaner_audio : (d.onGleaner f).audio = d.audio := rfl
@[simp] theorem Dev.onGleaner_hbm : (d.onGleaner f).hbm = d.hbm := rfl
@[simp] theorem Dev.onGleaner_pails : (d.onGleaner f).pails = d.pails := rfl
@[simp] theorem Dev.onGleaner_dma : (d.onGleaner f).dma = d.dma := rfl
@[simp] theorem Dev.onGleaner_mag : (d.onGleaner f).mag = d.mag := rfl
@[simp] theorem Dev.onGleaner_nvme : (d.onGleaner f).nvme = d.nvme := rfl
@[simp] theorem Dev.onGleaner_boot : (d.onGleaner f).boot = d.boot := rfl
@[simp] theorem Dev.onGleaner_free : (d.onGleaner f).free = d.free := rfl
theorem Dev.onGleaner_onGleaner : (d.onGleaner f).onGleaner g = d.onGleaner (fun x => g (f x)) := rfl

end

/-! ## `Dev.onFaults` -/

section

variable (f g : Faults → Faults) (d : Dev)

@[simp] theorem Dev.onFaults_now : (d.onFaults f).now = d.now := rfl
@[simp] theorem Dev.onFaults_ctl : (d.onFaults f).ctl = d.ctl := rfl
@[simp] theorem Dev.onFaults_bar0 : (d.onFaults f).bar0 = d.bar0 := rfl
@[simp] theorem Dev.onFaults_spi : (d.onFaults f).spi = d.spi := rfl
@[simp] theorem Dev.onFaults_udp : (d.onFaults f).udp = d.udp := rfl
@[simp] theorem Dev.onFaults_events : (d.onFaults f).events = d.events := rfl
@[simp] theorem Dev.onFaults_counters : (d.onFaults f).counters = d.counters := rfl
@[simp] theorem Dev.onFaults_gleaner : (d.onFaults f).gleaner = d.gleaner := rfl
@[simp] theorem Dev.onFaults_faults : (d.onFaults f).faults = f d.faults := rfl
@[simp] theorem Dev.onFaults_fabric : (d.onFaults f).fabric = d.fabric := rfl
@[simp] theorem Dev.onFaults_furrows : (d.onFaults f).furrows = d.furrows := rfl
@[simp] theorem Dev.onFaults_streams : (d.onFaults f).streams = d.streams := rfl
@[simp] theorem Dev.onFaults_codecs : (d.onFaults f).codecs = d.codecs := rfl
@[simp] theorem Dev.onFaults_display : (d.onFaults f).display = d.display := rfl
@[simp] theorem Dev.onFaults_time : (d.onFaults f).time = d.time := rfl
@[simp] theorem Dev.onFaults_net : (d.onFaults f).net = d.net := rfl
@[simp] theorem Dev.onFaults_audio : (d.onFaults f).audio = d.audio := rfl
@[simp] theorem Dev.onFaults_hbm : (d.onFaults f).hbm = d.hbm := rfl
@[simp] theorem Dev.onFaults_pails : (d.onFaults f).pails = d.pails := rfl
@[simp] theorem Dev.onFaults_dma : (d.onFaults f).dma = d.dma := rfl
@[simp] theorem Dev.onFaults_mag : (d.onFaults f).mag = d.mag := rfl
@[simp] theorem Dev.onFaults_nvme : (d.onFaults f).nvme = d.nvme := rfl
@[simp] theorem Dev.onFaults_boot : (d.onFaults f).boot = d.boot := rfl
@[simp] theorem Dev.onFaults_free : (d.onFaults f).free = d.free := rfl
theorem Dev.onFaults_onFaults : (d.onFaults f).onFaults g = d.onFaults (fun x => g (f x)) := rfl

end

/-! ## `Dev.onFabric` -/

section

variable (f g : Fabric → Fabric) (d : Dev)

@[simp] theorem Dev.onFabric_now : (d.onFabric f).now = d.now := rfl
@[simp] theorem Dev.onFabric_ctl : (d.onFabric f).ctl = d.ctl := rfl
@[simp] theorem Dev.onFabric_bar0 : (d.onFabric f).bar0 = d.bar0 := rfl
@[simp] theorem Dev.onFabric_spi : (d.onFabric f).spi = d.spi := rfl
@[simp] theorem Dev.onFabric_udp : (d.onFabric f).udp = d.udp := rfl
@[simp] theorem Dev.onFabric_events : (d.onFabric f).events = d.events := rfl
@[simp] theorem Dev.onFabric_counters : (d.onFabric f).counters = d.counters := rfl
@[simp] theorem Dev.onFabric_gleaner : (d.onFabric f).gleaner = d.gleaner := rfl
@[simp] theorem Dev.onFabric_faults : (d.onFabric f).faults = d.faults := rfl
@[simp] theorem Dev.onFabric_fabric : (d.onFabric f).fabric = f d.fabric := rfl
@[simp] theorem Dev.onFabric_furrows : (d.onFabric f).furrows = d.furrows := rfl
@[simp] theorem Dev.onFabric_streams : (d.onFabric f).streams = d.streams := rfl
@[simp] theorem Dev.onFabric_codecs : (d.onFabric f).codecs = d.codecs := rfl
@[simp] theorem Dev.onFabric_display : (d.onFabric f).display = d.display := rfl
@[simp] theorem Dev.onFabric_time : (d.onFabric f).time = d.time := rfl
@[simp] theorem Dev.onFabric_net : (d.onFabric f).net = d.net := rfl
@[simp] theorem Dev.onFabric_audio : (d.onFabric f).audio = d.audio := rfl
@[simp] theorem Dev.onFabric_hbm : (d.onFabric f).hbm = d.hbm := rfl
@[simp] theorem Dev.onFabric_pails : (d.onFabric f).pails = d.pails := rfl
@[simp] theorem Dev.onFabric_dma : (d.onFabric f).dma = d.dma := rfl
@[simp] theorem Dev.onFabric_mag : (d.onFabric f).mag = d.mag := rfl
@[simp] theorem Dev.onFabric_nvme : (d.onFabric f).nvme = d.nvme := rfl
@[simp] theorem Dev.onFabric_boot : (d.onFabric f).boot = d.boot := rfl
@[simp] theorem Dev.onFabric_free : (d.onFabric f).free = d.free := rfl
theorem Dev.onFabric_onFabric : (d.onFabric f).onFabric g = d.onFabric (fun x => g (f x)) := rfl

end

/-! ## `Dev.onCodecs` -/

section

variable (f g : Codecs → Codecs) (d : Dev)

@[simp] theorem Dev.onCodecs_now : (d.onCodecs f).now = d.now := rfl
@[simp] theorem Dev.onCodecs_ctl : (d.onCodecs f).ctl = d.ctl := rfl
@[simp] theorem Dev.onCodecs_bar0 : (d.onCodecs f).bar0 = d.bar0 := rfl
@[simp] theorem Dev.onCodecs_spi : (d.onCodecs f).spi = d.spi := rfl
@[simp] theorem Dev.onCodecs_udp : (d.onCodecs f).udp = d.udp := rfl
@[simp] theorem Dev.onCodecs_events : (d.onCodecs f).events = d.events := rfl
@[simp] theorem Dev.onCodecs_counters : (d.onCodecs f).counters = d.counters := rfl
@[simp] theorem Dev.onCodecs_gleaner : (d.onCodecs f).gleaner = d.gleaner := rfl
@[simp] theorem Dev.onCodecs_faults : (d.onCodecs f).faults = d.faults := rfl
@[simp] theorem Dev.onCodecs_fabric : (d.onCodecs f).fabric = d.fabric := rfl
@[simp] theorem Dev.onCodecs_furrows : (d.onCodecs f).furrows = d.furrows := rfl
@[simp] theorem Dev.onCodecs_streams : (d.onCodecs f).streams = d.streams := rfl
@[simp] theorem Dev.onCodecs_codecs : (d.onCodecs f).codecs = f d.codecs := rfl
@[simp] theorem Dev.onCodecs_display : (d.onCodecs f).display = d.display := rfl
@[simp] theorem Dev.onCodecs_time : (d.onCodecs f).time = d.time := rfl
@[simp] theorem Dev.onCodecs_net : (d.onCodecs f).net = d.net := rfl
@[simp] theorem Dev.onCodecs_audio : (d.onCodecs f).audio = d.audio := rfl
@[simp] theorem Dev.onCodecs_hbm : (d.onCodecs f).hbm = d.hbm := rfl
@[simp] theorem Dev.onCodecs_pails : (d.onCodecs f).pails = d.pails := rfl
@[simp] theorem Dev.onCodecs_dma : (d.onCodecs f).dma = d.dma := rfl
@[simp] theorem Dev.onCodecs_mag : (d.onCodecs f).mag = d.mag := rfl
@[simp] theorem Dev.onCodecs_nvme : (d.onCodecs f).nvme = d.nvme := rfl
@[simp] theorem Dev.onCodecs_boot : (d.onCodecs f).boot = d.boot := rfl
@[simp] theorem Dev.onCodecs_free : (d.onCodecs f).free = d.free := rfl
theorem Dev.onCodecs_onCodecs : (d.onCodecs f).onCodecs g = d.onCodecs (fun x => g (f x)) := rfl

end

/-! ## `Dev.onDisplay` -/

section

variable (f g : Display → Display) (d : Dev)

@[simp] theorem Dev.onDisplay_now : (d.onDisplay f).now = d.now := rfl
@[simp] theorem Dev.onDisplay_ctl : (d.onDisplay f).ctl = d.ctl := rfl
@[simp] theorem Dev.onDisplay_bar0 : (d.onDisplay f).bar0 = d.bar0 := rfl
@[simp] theorem Dev.onDisplay_spi : (d.onDisplay f).spi = d.spi := rfl
@[simp] theorem Dev.onDisplay_udp : (d.onDisplay f).udp = d.udp := rfl
@[simp] theorem Dev.onDisplay_events : (d.onDisplay f).events = d.events := rfl
@[simp] theorem Dev.onDisplay_counters : (d.onDisplay f).counters = d.counters := rfl
@[simp] theorem Dev.onDisplay_gleaner : (d.onDisplay f).gleaner = d.gleaner := rfl
@[simp] theorem Dev.onDisplay_faults : (d.onDisplay f).faults = d.faults := rfl
@[simp] theorem Dev.onDisplay_fabric : (d.onDisplay f).fabric = d.fabric := rfl
@[simp] theorem Dev.onDisplay_furrows : (d.onDisplay f).furrows = d.furrows := rfl
@[simp] theorem Dev.onDisplay_streams : (d.onDisplay f).streams = d.streams := rfl
@[simp] theorem Dev.onDisplay_codecs : (d.onDisplay f).codecs = d.codecs := rfl
@[simp] theorem Dev.onDisplay_display : (d.onDisplay f).display = f d.display := rfl
@[simp] theorem Dev.onDisplay_time : (d.onDisplay f).time = d.time := rfl
@[simp] theorem Dev.onDisplay_net : (d.onDisplay f).net = d.net := rfl
@[simp] theorem Dev.onDisplay_audio : (d.onDisplay f).audio = d.audio := rfl
@[simp] theorem Dev.onDisplay_hbm : (d.onDisplay f).hbm = d.hbm := rfl
@[simp] theorem Dev.onDisplay_pails : (d.onDisplay f).pails = d.pails := rfl
@[simp] theorem Dev.onDisplay_dma : (d.onDisplay f).dma = d.dma := rfl
@[simp] theorem Dev.onDisplay_mag : (d.onDisplay f).mag = d.mag := rfl
@[simp] theorem Dev.onDisplay_nvme : (d.onDisplay f).nvme = d.nvme := rfl
@[simp] theorem Dev.onDisplay_boot : (d.onDisplay f).boot = d.boot := rfl
@[simp] theorem Dev.onDisplay_free : (d.onDisplay f).free = d.free := rfl
theorem Dev.onDisplay_onDisplay : (d.onDisplay f).onDisplay g = d.onDisplay (fun x => g (f x)) := rfl

end

/-! ## `Dev.onTime` -/

section

variable (f g : TimeUnit → TimeUnit) (d : Dev)

@[simp] theorem Dev.onTime_now : (d.onTime f).now = d.now := rfl
@[simp] theorem Dev.onTime_ctl : (d.onTime f).ctl = d.ctl := rfl
@[simp] theorem Dev.onTime_bar0 : (d.onTime f).bar0 = d.bar0 := rfl
@[simp] theorem Dev.onTime_spi : (d.onTime f).spi = d.spi := rfl
@[simp] theorem Dev.onTime_udp : (d.onTime f).udp = d.udp := rfl
@[simp] theorem Dev.onTime_events : (d.onTime f).events = d.events := rfl
@[simp] theorem Dev.onTime_counters : (d.onTime f).counters = d.counters := rfl
@[simp] theorem Dev.onTime_gleaner : (d.onTime f).gleaner = d.gleaner := rfl
@[simp] theorem Dev.onTime_faults : (d.onTime f).faults = d.faults := rfl
@[simp] theorem Dev.onTime_fabric : (d.onTime f).fabric = d.fabric := rfl
@[simp] theorem Dev.onTime_furrows : (d.onTime f).furrows = d.furrows := rfl
@[simp] theorem Dev.onTime_streams : (d.onTime f).streams = d.streams := rfl
@[simp] theorem Dev.onTime_codecs : (d.onTime f).codecs = d.codecs := rfl
@[simp] theorem Dev.onTime_display : (d.onTime f).display = d.display := rfl
@[simp] theorem Dev.onTime_time : (d.onTime f).time = f d.time := rfl
@[simp] theorem Dev.onTime_net : (d.onTime f).net = d.net := rfl
@[simp] theorem Dev.onTime_audio : (d.onTime f).audio = d.audio := rfl
@[simp] theorem Dev.onTime_hbm : (d.onTime f).hbm = d.hbm := rfl
@[simp] theorem Dev.onTime_pails : (d.onTime f).pails = d.pails := rfl
@[simp] theorem Dev.onTime_dma : (d.onTime f).dma = d.dma := rfl
@[simp] theorem Dev.onTime_mag : (d.onTime f).mag = d.mag := rfl
@[simp] theorem Dev.onTime_nvme : (d.onTime f).nvme = d.nvme := rfl
@[simp] theorem Dev.onTime_boot : (d.onTime f).boot = d.boot := rfl
@[simp] theorem Dev.onTime_free : (d.onTime f).free = d.free := rfl
theorem Dev.onTime_onTime : (d.onTime f).onTime g = d.onTime (fun x => g (f x)) := rfl

end

/-! ## `Dev.onNet` -/

section

variable (f g : Network → Network) (d : Dev)

@[simp] theorem Dev.onNet_now : (d.onNet f).now = d.now := rfl
@[simp] theorem Dev.onNet_ctl : (d.onNet f).ctl = d.ctl := rfl
@[simp] theorem Dev.onNet_bar0 : (d.onNet f).bar0 = d.bar0 := rfl
@[simp] theorem Dev.onNet_spi : (d.onNet f).spi = d.spi := rfl
@[simp] theorem Dev.onNet_udp : (d.onNet f).udp = d.udp := rfl
@[simp] theorem Dev.onNet_events : (d.onNet f).events = d.events := rfl
@[simp] theorem Dev.onNet_counters : (d.onNet f).counters = d.counters := rfl
@[simp] theorem Dev.onNet_gleaner : (d.onNet f).gleaner = d.gleaner := rfl
@[simp] theorem Dev.onNet_faults : (d.onNet f).faults = d.faults := rfl
@[simp] theorem Dev.onNet_fabric : (d.onNet f).fabric = d.fabric := rfl
@[simp] theorem Dev.onNet_furrows : (d.onNet f).furrows = d.furrows := rfl
@[simp] theorem Dev.onNet_streams : (d.onNet f).streams = d.streams := rfl
@[simp] theorem Dev.onNet_codecs : (d.onNet f).codecs = d.codecs := rfl
@[simp] theorem Dev.onNet_display : (d.onNet f).display = d.display := rfl
@[simp] theorem Dev.onNet_time : (d.onNet f).time = d.time := rfl
@[simp] theorem Dev.onNet_net : (d.onNet f).net = f d.net := rfl
@[simp] theorem Dev.onNet_audio : (d.onNet f).audio = d.audio := rfl
@[simp] theorem Dev.onNet_hbm : (d.onNet f).hbm = d.hbm := rfl
@[simp] theorem Dev.onNet_pails : (d.onNet f).pails = d.pails := rfl
@[simp] theorem Dev.onNet_dma : (d.onNet f).dma = d.dma := rfl
@[simp] theorem Dev.onNet_mag : (d.onNet f).mag = d.mag := rfl
@[simp] theorem Dev.onNet_nvme : (d.onNet f).nvme = d.nvme := rfl
@[simp] theorem Dev.onNet_boot : (d.onNet f).boot = d.boot := rfl
@[simp] theorem Dev.onNet_free : (d.onNet f).free = d.free := rfl
theorem Dev.onNet_onNet : (d.onNet f).onNet g = d.onNet (fun x => g (f x)) := rfl

end

/-! ## `Dev.onAudio` -/

section

variable (f g : Audio → Audio) (d : Dev)

@[simp] theorem Dev.onAudio_now : (d.onAudio f).now = d.now := rfl
@[simp] theorem Dev.onAudio_ctl : (d.onAudio f).ctl = d.ctl := rfl
@[simp] theorem Dev.onAudio_bar0 : (d.onAudio f).bar0 = d.bar0 := rfl
@[simp] theorem Dev.onAudio_spi : (d.onAudio f).spi = d.spi := rfl
@[simp] theorem Dev.onAudio_udp : (d.onAudio f).udp = d.udp := rfl
@[simp] theorem Dev.onAudio_events : (d.onAudio f).events = d.events := rfl
@[simp] theorem Dev.onAudio_counters : (d.onAudio f).counters = d.counters := rfl
@[simp] theorem Dev.onAudio_gleaner : (d.onAudio f).gleaner = d.gleaner := rfl
@[simp] theorem Dev.onAudio_faults : (d.onAudio f).faults = d.faults := rfl
@[simp] theorem Dev.onAudio_fabric : (d.onAudio f).fabric = d.fabric := rfl
@[simp] theorem Dev.onAudio_furrows : (d.onAudio f).furrows = d.furrows := rfl
@[simp] theorem Dev.onAudio_streams : (d.onAudio f).streams = d.streams := rfl
@[simp] theorem Dev.onAudio_codecs : (d.onAudio f).codecs = d.codecs := rfl
@[simp] theorem Dev.onAudio_display : (d.onAudio f).display = d.display := rfl
@[simp] theorem Dev.onAudio_time : (d.onAudio f).time = d.time := rfl
@[simp] theorem Dev.onAudio_net : (d.onAudio f).net = d.net := rfl
@[simp] theorem Dev.onAudio_audio : (d.onAudio f).audio = f d.audio := rfl
@[simp] theorem Dev.onAudio_hbm : (d.onAudio f).hbm = d.hbm := rfl
@[simp] theorem Dev.onAudio_pails : (d.onAudio f).pails = d.pails := rfl
@[simp] theorem Dev.onAudio_dma : (d.onAudio f).dma = d.dma := rfl
@[simp] theorem Dev.onAudio_mag : (d.onAudio f).mag = d.mag := rfl
@[simp] theorem Dev.onAudio_nvme : (d.onAudio f).nvme = d.nvme := rfl
@[simp] theorem Dev.onAudio_boot : (d.onAudio f).boot = d.boot := rfl
@[simp] theorem Dev.onAudio_free : (d.onAudio f).free = d.free := rfl
theorem Dev.onAudio_onAudio : (d.onAudio f).onAudio g = d.onAudio (fun x => g (f x)) := rfl

end

/-! ## `Dev.onHbm` -/

section

variable (f g : Hbm → Hbm) (d : Dev)

@[simp] theorem Dev.onHbm_now : (d.onHbm f).now = d.now := rfl
@[simp] theorem Dev.onHbm_ctl : (d.onHbm f).ctl = d.ctl := rfl
@[simp] theorem Dev.onHbm_bar0 : (d.onHbm f).bar0 = d.bar0 := rfl
@[simp] theorem Dev.onHbm_spi : (d.onHbm f).spi = d.spi := rfl
@[simp] theorem Dev.onHbm_udp : (d.onHbm f).udp = d.udp := rfl
@[simp] theorem Dev.onHbm_events : (d.onHbm f).events = d.events := rfl
@[simp] theorem Dev.onHbm_counters : (d.onHbm f).counters = d.counters := rfl
@[simp] theorem Dev.onHbm_gleaner : (d.onHbm f).gleaner = d.gleaner := rfl
@[simp] theorem Dev.onHbm_faults : (d.onHbm f).faults = d.faults := rfl
@[simp] theorem Dev.onHbm_fabric : (d.onHbm f).fabric = d.fabric := rfl
@[simp] theorem Dev.onHbm_furrows : (d.onHbm f).furrows = d.furrows := rfl
@[simp] theorem Dev.onHbm_streams : (d.onHbm f).streams = d.streams := rfl
@[simp] theorem Dev.onHbm_codecs : (d.onHbm f).codecs = d.codecs := rfl
@[simp] theorem Dev.onHbm_display : (d.onHbm f).display = d.display := rfl
@[simp] theorem Dev.onHbm_time : (d.onHbm f).time = d.time := rfl
@[simp] theorem Dev.onHbm_net : (d.onHbm f).net = d.net := rfl
@[simp] theorem Dev.onHbm_audio : (d.onHbm f).audio = d.audio := rfl
@[simp] theorem Dev.onHbm_hbm : (d.onHbm f).hbm = f d.hbm := rfl
@[simp] theorem Dev.onHbm_pails : (d.onHbm f).pails = d.pails := rfl
@[simp] theorem Dev.onHbm_dma : (d.onHbm f).dma = d.dma := rfl
@[simp] theorem Dev.onHbm_mag : (d.onHbm f).mag = d.mag := rfl
@[simp] theorem Dev.onHbm_nvme : (d.onHbm f).nvme = d.nvme := rfl
@[simp] theorem Dev.onHbm_boot : (d.onHbm f).boot = d.boot := rfl
@[simp] theorem Dev.onHbm_free : (d.onHbm f).free = d.free := rfl
theorem Dev.onHbm_onHbm : (d.onHbm f).onHbm g = d.onHbm (fun x => g (f x)) := rfl

end

/-! ## `Dev.onPails` -/

section

variable (f g : Pails → Pails) (d : Dev)

@[simp] theorem Dev.onPails_now : (d.onPails f).now = d.now := rfl
@[simp] theorem Dev.onPails_ctl : (d.onPails f).ctl = d.ctl := rfl
@[simp] theorem Dev.onPails_bar0 : (d.onPails f).bar0 = d.bar0 := rfl
@[simp] theorem Dev.onPails_spi : (d.onPails f).spi = d.spi := rfl
@[simp] theorem Dev.onPails_udp : (d.onPails f).udp = d.udp := rfl
@[simp] theorem Dev.onPails_events : (d.onPails f).events = d.events := rfl
@[simp] theorem Dev.onPails_counters : (d.onPails f).counters = d.counters := rfl
@[simp] theorem Dev.onPails_gleaner : (d.onPails f).gleaner = d.gleaner := rfl
@[simp] theorem Dev.onPails_faults : (d.onPails f).faults = d.faults := rfl
@[simp] theorem Dev.onPails_fabric : (d.onPails f).fabric = d.fabric := rfl
@[simp] theorem Dev.onPails_furrows : (d.onPails f).furrows = d.furrows := rfl
@[simp] theorem Dev.onPails_streams : (d.onPails f).streams = d.streams := rfl
@[simp] theorem Dev.onPails_codecs : (d.onPails f).codecs = d.codecs := rfl
@[simp] theorem Dev.onPails_display : (d.onPails f).display = d.display := rfl
@[simp] theorem Dev.onPails_time : (d.onPails f).time = d.time := rfl
@[simp] theorem Dev.onPails_net : (d.onPails f).net = d.net := rfl
@[simp] theorem Dev.onPails_audio : (d.onPails f).audio = d.audio := rfl
@[simp] theorem Dev.onPails_hbm : (d.onPails f).hbm = d.hbm := rfl
@[simp] theorem Dev.onPails_pails : (d.onPails f).pails = f d.pails := rfl
@[simp] theorem Dev.onPails_dma : (d.onPails f).dma = d.dma := rfl
@[simp] theorem Dev.onPails_mag : (d.onPails f).mag = d.mag := rfl
@[simp] theorem Dev.onPails_nvme : (d.onPails f).nvme = d.nvme := rfl
@[simp] theorem Dev.onPails_boot : (d.onPails f).boot = d.boot := rfl
@[simp] theorem Dev.onPails_free : (d.onPails f).free = d.free := rfl
theorem Dev.onPails_onPails : (d.onPails f).onPails g = d.onPails (fun x => g (f x)) := rfl

end

/-! ## `Dev.onDma` -/

section

variable (f g : Dma → Dma) (d : Dev)

@[simp] theorem Dev.onDma_now : (d.onDma f).now = d.now := rfl
@[simp] theorem Dev.onDma_ctl : (d.onDma f).ctl = d.ctl := rfl
@[simp] theorem Dev.onDma_bar0 : (d.onDma f).bar0 = d.bar0 := rfl
@[simp] theorem Dev.onDma_spi : (d.onDma f).spi = d.spi := rfl
@[simp] theorem Dev.onDma_udp : (d.onDma f).udp = d.udp := rfl
@[simp] theorem Dev.onDma_events : (d.onDma f).events = d.events := rfl
@[simp] theorem Dev.onDma_counters : (d.onDma f).counters = d.counters := rfl
@[simp] theorem Dev.onDma_gleaner : (d.onDma f).gleaner = d.gleaner := rfl
@[simp] theorem Dev.onDma_faults : (d.onDma f).faults = d.faults := rfl
@[simp] theorem Dev.onDma_fabric : (d.onDma f).fabric = d.fabric := rfl
@[simp] theorem Dev.onDma_furrows : (d.onDma f).furrows = d.furrows := rfl
@[simp] theorem Dev.onDma_streams : (d.onDma f).streams = d.streams := rfl
@[simp] theorem Dev.onDma_codecs : (d.onDma f).codecs = d.codecs := rfl
@[simp] theorem Dev.onDma_display : (d.onDma f).display = d.display := rfl
@[simp] theorem Dev.onDma_time : (d.onDma f).time = d.time := rfl
@[simp] theorem Dev.onDma_net : (d.onDma f).net = d.net := rfl
@[simp] theorem Dev.onDma_audio : (d.onDma f).audio = d.audio := rfl
@[simp] theorem Dev.onDma_hbm : (d.onDma f).hbm = d.hbm := rfl
@[simp] theorem Dev.onDma_pails : (d.onDma f).pails = d.pails := rfl
@[simp] theorem Dev.onDma_dma : (d.onDma f).dma = f d.dma := rfl
@[simp] theorem Dev.onDma_mag : (d.onDma f).mag = d.mag := rfl
@[simp] theorem Dev.onDma_nvme : (d.onDma f).nvme = d.nvme := rfl
@[simp] theorem Dev.onDma_boot : (d.onDma f).boot = d.boot := rfl
@[simp] theorem Dev.onDma_free : (d.onDma f).free = d.free := rfl
theorem Dev.onDma_onDma : (d.onDma f).onDma g = d.onDma (fun x => g (f x)) := rfl

end

/-! ## `Dev.onMag` -/

section

variable (f g : Magazine → Magazine) (d : Dev)

@[simp] theorem Dev.onMag_now : (d.onMag f).now = d.now := rfl
@[simp] theorem Dev.onMag_ctl : (d.onMag f).ctl = d.ctl := rfl
@[simp] theorem Dev.onMag_bar0 : (d.onMag f).bar0 = d.bar0 := rfl
@[simp] theorem Dev.onMag_spi : (d.onMag f).spi = d.spi := rfl
@[simp] theorem Dev.onMag_udp : (d.onMag f).udp = d.udp := rfl
@[simp] theorem Dev.onMag_events : (d.onMag f).events = d.events := rfl
@[simp] theorem Dev.onMag_counters : (d.onMag f).counters = d.counters := rfl
@[simp] theorem Dev.onMag_gleaner : (d.onMag f).gleaner = d.gleaner := rfl
@[simp] theorem Dev.onMag_faults : (d.onMag f).faults = d.faults := rfl
@[simp] theorem Dev.onMag_fabric : (d.onMag f).fabric = d.fabric := rfl
@[simp] theorem Dev.onMag_furrows : (d.onMag f).furrows = d.furrows := rfl
@[simp] theorem Dev.onMag_streams : (d.onMag f).streams = d.streams := rfl
@[simp] theorem Dev.onMag_codecs : (d.onMag f).codecs = d.codecs := rfl
@[simp] theorem Dev.onMag_display : (d.onMag f).display = d.display := rfl
@[simp] theorem Dev.onMag_time : (d.onMag f).time = d.time := rfl
@[simp] theorem Dev.onMag_net : (d.onMag f).net = d.net := rfl
@[simp] theorem Dev.onMag_audio : (d.onMag f).audio = d.audio := rfl
@[simp] theorem Dev.onMag_hbm : (d.onMag f).hbm = d.hbm := rfl
@[simp] theorem Dev.onMag_pails : (d.onMag f).pails = d.pails := rfl
@[simp] theorem Dev.onMag_dma : (d.onMag f).dma = d.dma := rfl
@[simp] theorem Dev.onMag_mag : (d.onMag f).mag = f d.mag := rfl
@[simp] theorem Dev.onMag_nvme : (d.onMag f).nvme = d.nvme := rfl
@[simp] theorem Dev.onMag_boot : (d.onMag f).boot = d.boot := rfl
@[simp] theorem Dev.onMag_free : (d.onMag f).free = d.free := rfl
theorem Dev.onMag_onMag : (d.onMag f).onMag g = d.onMag (fun x => g (f x)) := rfl

end

/-! ## `Dev.onNvme` -/

section

variable (f g : Nvme → Nvme) (d : Dev)

@[simp] theorem Dev.onNvme_now : (d.onNvme f).now = d.now := rfl
@[simp] theorem Dev.onNvme_ctl : (d.onNvme f).ctl = d.ctl := rfl
@[simp] theorem Dev.onNvme_bar0 : (d.onNvme f).bar0 = d.bar0 := rfl
@[simp] theorem Dev.onNvme_spi : (d.onNvme f).spi = d.spi := rfl
@[simp] theorem Dev.onNvme_udp : (d.onNvme f).udp = d.udp := rfl
@[simp] theorem Dev.onNvme_events : (d.onNvme f).events = d.events := rfl
@[simp] theorem Dev.onNvme_counters : (d.onNvme f).counters = d.counters := rfl
@[simp] theorem Dev.onNvme_gleaner : (d.onNvme f).gleaner = d.gleaner := rfl
@[simp] theorem Dev.onNvme_faults : (d.onNvme f).faults = d.faults := rfl
@[simp] theorem Dev.onNvme_fabric : (d.onNvme f).fabric = d.fabric := rfl
@[simp] theorem Dev.onNvme_furrows : (d.onNvme f).furrows = d.furrows := rfl
@[simp] theorem Dev.onNvme_streams : (d.onNvme f).streams = d.streams := rfl
@[simp] theorem Dev.onNvme_codecs : (d.onNvme f).codecs = d.codecs := rfl
@[simp] theorem Dev.onNvme_display : (d.onNvme f).display = d.display := rfl
@[simp] theorem Dev.onNvme_time : (d.onNvme f).time = d.time := rfl
@[simp] theorem Dev.onNvme_net : (d.onNvme f).net = d.net := rfl
@[simp] theorem Dev.onNvme_audio : (d.onNvme f).audio = d.audio := rfl
@[simp] theorem Dev.onNvme_hbm : (d.onNvme f).hbm = d.hbm := rfl
@[simp] theorem Dev.onNvme_pails : (d.onNvme f).pails = d.pails := rfl
@[simp] theorem Dev.onNvme_dma : (d.onNvme f).dma = d.dma := rfl
@[simp] theorem Dev.onNvme_mag : (d.onNvme f).mag = d.mag := rfl
@[simp] theorem Dev.onNvme_nvme : (d.onNvme f).nvme = f d.nvme := rfl
@[simp] theorem Dev.onNvme_boot : (d.onNvme f).boot = d.boot := rfl
@[simp] theorem Dev.onNvme_free : (d.onNvme f).free = d.free := rfl
theorem Dev.onNvme_onNvme : (d.onNvme f).onNvme g = d.onNvme (fun x => g (f x)) := rfl

end

/-! ## `Dev.onBoot` -/

section

variable (f g : Boot → Boot) (d : Dev)

@[simp] theorem Dev.onBoot_now : (d.onBoot f).now = d.now := rfl
@[simp] theorem Dev.onBoot_ctl : (d.onBoot f).ctl = d.ctl := rfl
@[simp] theorem Dev.onBoot_bar0 : (d.onBoot f).bar0 = d.bar0 := rfl
@[simp] theorem Dev.onBoot_spi : (d.onBoot f).spi = d.spi := rfl
@[simp] theorem Dev.onBoot_udp : (d.onBoot f).udp = d.udp := rfl
@[simp] theorem Dev.onBoot_events : (d.onBoot f).events = d.events := rfl
@[simp] theorem Dev.onBoot_counters : (d.onBoot f).counters = d.counters := rfl
@[simp] theorem Dev.onBoot_gleaner : (d.onBoot f).gleaner = d.gleaner := rfl
@[simp] theorem Dev.onBoot_faults : (d.onBoot f).faults = d.faults := rfl
@[simp] theorem Dev.onBoot_fabric : (d.onBoot f).fabric = d.fabric := rfl
@[simp] theorem Dev.onBoot_furrows : (d.onBoot f).furrows = d.furrows := rfl
@[simp] theorem Dev.onBoot_streams : (d.onBoot f).streams = d.streams := rfl
@[simp] theorem Dev.onBoot_codecs : (d.onBoot f).codecs = d.codecs := rfl
@[simp] theorem Dev.onBoot_display : (d.onBoot f).display = d.display := rfl
@[simp] theorem Dev.onBoot_time : (d.onBoot f).time = d.time := rfl
@[simp] theorem Dev.onBoot_net : (d.onBoot f).net = d.net := rfl
@[simp] theorem Dev.onBoot_audio : (d.onBoot f).audio = d.audio := rfl
@[simp] theorem Dev.onBoot_hbm : (d.onBoot f).hbm = d.hbm := rfl
@[simp] theorem Dev.onBoot_pails : (d.onBoot f).pails = d.pails := rfl
@[simp] theorem Dev.onBoot_dma : (d.onBoot f).dma = d.dma := rfl
@[simp] theorem Dev.onBoot_mag : (d.onBoot f).mag = d.mag := rfl
@[simp] theorem Dev.onBoot_nvme : (d.onBoot f).nvme = d.nvme := rfl
@[simp] theorem Dev.onBoot_boot : (d.onBoot f).boot = f d.boot := rfl
@[simp] theorem Dev.onBoot_free : (d.onBoot f).free = d.free := rfl
theorem Dev.onBoot_onBoot : (d.onBoot f).onBoot g = d.onBoot (fun x => g (f x)) := rfl

end

/-! ## `Dev.onRing` -/

section

variable (i : Nat) (f : Ring → Ring) (d : Dev)

@[simp] theorem Dev.onRing_now : (d.onRing i f).now = d.now := rfl
@[simp] theorem Dev.onRing_ctl : (d.onRing i f).ctl = d.ctl := rfl
@[simp] theorem Dev.onRing_spi : (d.onRing i f).spi = d.spi := rfl
@[simp] theorem Dev.onRing_udp : (d.onRing i f).udp = d.udp := rfl
@[simp] theorem Dev.onRing_events : (d.onRing i f).events = d.events := rfl
@[simp] theorem Dev.onRing_counters : (d.onRing i f).counters = d.counters := rfl
@[simp] theorem Dev.onRing_gleaner : (d.onRing i f).gleaner = d.gleaner := rfl
@[simp] theorem Dev.onRing_faults : (d.onRing i f).faults = d.faults := rfl
@[simp] theorem Dev.onRing_fabric : (d.onRing i f).fabric = d.fabric := rfl
@[simp] theorem Dev.onRing_furrows : (d.onRing i f).furrows = d.furrows := rfl
@[simp] theorem Dev.onRing_streams : (d.onRing i f).streams = d.streams := rfl
@[simp] theorem Dev.onRing_codecs : (d.onRing i f).codecs = d.codecs := rfl
@[simp] theorem Dev.onRing_display : (d.onRing i f).display = d.display := rfl
@[simp] theorem Dev.onRing_time : (d.onRing i f).time = d.time := rfl
@[simp] theorem Dev.onRing_net : (d.onRing i f).net = d.net := rfl
@[simp] theorem Dev.onRing_audio : (d.onRing i f).audio = d.audio := rfl
@[simp] theorem Dev.onRing_hbm : (d.onRing i f).hbm = d.hbm := rfl
@[simp] theorem Dev.onRing_pails : (d.onRing i f).pails = d.pails := rfl
@[simp] theorem Dev.onRing_dma : (d.onRing i f).dma = d.dma := rfl
@[simp] theorem Dev.onRing_mag : (d.onRing i f).mag = d.mag := rfl
@[simp] theorem Dev.onRing_nvme : (d.onRing i f).nvme = d.nvme := rfl
@[simp] theorem Dev.onRing_boot : (d.onRing i f).boot = d.boot := rfl
@[simp] theorem Dev.onRing_free : (d.onRing i f).free = d.free := rfl

end

/-! ## `Dev.onTask` -/

section

variable (i : Nat) (f : GleanTask → GleanTask) (d : Dev)

@[simp] theorem Dev.onTask_now : (d.onTask i f).now = d.now := rfl
@[simp] theorem Dev.onTask_ctl : (d.onTask i f).ctl = d.ctl := rfl
@[simp] theorem Dev.onTask_bar0 : (d.onTask i f).bar0 = d.bar0 := rfl
@[simp] theorem Dev.onTask_spi : (d.onTask i f).spi = d.spi := rfl
@[simp] theorem Dev.onTask_udp : (d.onTask i f).udp = d.udp := rfl
@[simp] theorem Dev.onTask_events : (d.onTask i f).events = d.events := rfl
@[simp] theorem Dev.onTask_counters : (d.onTask i f).counters = d.counters := rfl
@[simp] theorem Dev.onTask_faults : (d.onTask i f).faults = d.faults := rfl
@[simp] theorem Dev.onTask_fabric : (d.onTask i f).fabric = d.fabric := rfl
@[simp] theorem Dev.onTask_furrows : (d.onTask i f).furrows = d.furrows := rfl
@[simp] theorem Dev.onTask_streams : (d.onTask i f).streams = d.streams := rfl
@[simp] theorem Dev.onTask_codecs : (d.onTask i f).codecs = d.codecs := rfl
@[simp] theorem Dev.onTask_display : (d.onTask i f).display = d.display := rfl
@[simp] theorem Dev.onTask_time : (d.onTask i f).time = d.time := rfl
@[simp] theorem Dev.onTask_net : (d.onTask i f).net = d.net := rfl
@[simp] theorem Dev.onTask_audio : (d.onTask i f).audio = d.audio := rfl
@[simp] theorem Dev.onTask_hbm : (d.onTask i f).hbm = d.hbm := rfl
@[simp] theorem Dev.onTask_pails : (d.onTask i f).pails = d.pails := rfl
@[simp] theorem Dev.onTask_dma : (d.onTask i f).dma = d.dma := rfl
@[simp] theorem Dev.onTask_mag : (d.onTask i f).mag = d.mag := rfl
@[simp] theorem Dev.onTask_nvme : (d.onTask i f).nvme = d.nvme := rfl
@[simp] theorem Dev.onTask_boot : (d.onTask i f).boot = d.boot := rfl
@[simp] theorem Dev.onTask_free : (d.onTask i f).free = d.free := rfl

end

/-! ## `Dev.onFurrow` -/

section

variable (i : Nat) (f : Furrow → Furrow) (d : Dev)

@[simp] theorem Dev.onFurrow_now : (d.onFurrow i f).now = d.now := rfl
@[simp] theorem Dev.onFurrow_ctl : (d.onFurrow i f).ctl = d.ctl := rfl
@[simp] theorem Dev.onFurrow_bar0 : (d.onFurrow i f).bar0 = d.bar0 := rfl
@[simp] theorem Dev.onFurrow_spi : (d.onFurrow i f).spi = d.spi := rfl
@[simp] theorem Dev.onFurrow_udp : (d.onFurrow i f).udp = d.udp := rfl
@[simp] theorem Dev.onFurrow_events : (d.onFurrow i f).events = d.events := rfl
@[simp] theorem Dev.onFurrow_counters : (d.onFurrow i f).counters = d.counters := rfl
@[simp] theorem Dev.onFurrow_gleaner : (d.onFurrow i f).gleaner = d.gleaner := rfl
@[simp] theorem Dev.onFurrow_faults : (d.onFurrow i f).faults = d.faults := rfl
@[simp] theorem Dev.onFurrow_fabric : (d.onFurrow i f).fabric = d.fabric := rfl
@[simp] theorem Dev.onFurrow_streams : (d.onFurrow i f).streams = d.streams := rfl
@[simp] theorem Dev.onFurrow_codecs : (d.onFurrow i f).codecs = d.codecs := rfl
@[simp] theorem Dev.onFurrow_display : (d.onFurrow i f).display = d.display := rfl
@[simp] theorem Dev.onFurrow_time : (d.onFurrow i f).time = d.time := rfl
@[simp] theorem Dev.onFurrow_net : (d.onFurrow i f).net = d.net := rfl
@[simp] theorem Dev.onFurrow_audio : (d.onFurrow i f).audio = d.audio := rfl
@[simp] theorem Dev.onFurrow_hbm : (d.onFurrow i f).hbm = d.hbm := rfl
@[simp] theorem Dev.onFurrow_pails : (d.onFurrow i f).pails = d.pails := rfl
@[simp] theorem Dev.onFurrow_dma : (d.onFurrow i f).dma = d.dma := rfl
@[simp] theorem Dev.onFurrow_mag : (d.onFurrow i f).mag = d.mag := rfl
@[simp] theorem Dev.onFurrow_nvme : (d.onFurrow i f).nvme = d.nvme := rfl
@[simp] theorem Dev.onFurrow_boot : (d.onFurrow i f).boot = d.boot := rfl
@[simp] theorem Dev.onFurrow_free : (d.onFurrow i f).free = d.free := rfl

end

/-! ## `Dev.onStream` -/

section

variable (i : Nat) (f : Stream → Stream) (d : Dev)

@[simp] theorem Dev.onStream_now : (d.onStream i f).now = d.now := rfl
@[simp] theorem Dev.onStream_ctl : (d.onStream i f).ctl = d.ctl := rfl
@[simp] theorem Dev.onStream_bar0 : (d.onStream i f).bar0 = d.bar0 := rfl
@[simp] theorem Dev.onStream_spi : (d.onStream i f).spi = d.spi := rfl
@[simp] theorem Dev.onStream_udp : (d.onStream i f).udp = d.udp := rfl
@[simp] theorem Dev.onStream_events : (d.onStream i f).events = d.events := rfl
@[simp] theorem Dev.onStream_counters : (d.onStream i f).counters = d.counters := rfl
@[simp] theorem Dev.onStream_gleaner : (d.onStream i f).gleaner = d.gleaner := rfl
@[simp] theorem Dev.onStream_faults : (d.onStream i f).faults = d.faults := rfl
@[simp] theorem Dev.onStream_fabric : (d.onStream i f).fabric = d.fabric := rfl
@[simp] theorem Dev.onStream_furrows : (d.onStream i f).furrows = d.furrows := rfl
@[simp] theorem Dev.onStream_codecs : (d.onStream i f).codecs = d.codecs := rfl
@[simp] theorem Dev.onStream_display : (d.onStream i f).display = d.display := rfl
@[simp] theorem Dev.onStream_time : (d.onStream i f).time = d.time := rfl
@[simp] theorem Dev.onStream_net : (d.onStream i f).net = d.net := rfl
@[simp] theorem Dev.onStream_audio : (d.onStream i f).audio = d.audio := rfl
@[simp] theorem Dev.onStream_hbm : (d.onStream i f).hbm = d.hbm := rfl
@[simp] theorem Dev.onStream_pails : (d.onStream i f).pails = d.pails := rfl
@[simp] theorem Dev.onStream_dma : (d.onStream i f).dma = d.dma := rfl
@[simp] theorem Dev.onStream_mag : (d.onStream i f).mag = d.mag := rfl
@[simp] theorem Dev.onStream_nvme : (d.onStream i f).nvme = d.nvme := rfl
@[simp] theorem Dev.onStream_boot : (d.onStream i f).boot = d.boot := rfl
@[simp] theorem Dev.onStream_free : (d.onStream i f).free = d.free := rfl

end

/-! ## `Dev.onSettings` -/

section

variable (i : Nat) (f : StreamSettings → StreamSettings) (d : Dev)

@[simp] theorem Dev.onSettings_now : (d.onSettings i f).now = d.now := rfl
@[simp] theorem Dev.onSettings_ctl : (d.onSettings i f).ctl = d.ctl := rfl
@[simp] theorem Dev.onSettings_bar0 : (d.onSettings i f).bar0 = d.bar0 := rfl
@[simp] theorem Dev.onSettings_spi : (d.onSettings i f).spi = d.spi := rfl
@[simp] theorem Dev.onSettings_udp : (d.onSettings i f).udp = d.udp := rfl
@[simp] theorem Dev.onSettings_events : (d.onSettings i f).events = d.events := rfl
@[simp] theorem Dev.onSettings_counters : (d.onSettings i f).counters = d.counters := rfl
@[simp] theorem Dev.onSettings_gleaner : (d.onSettings i f).gleaner = d.gleaner := rfl
@[simp] theorem Dev.onSettings_faults : (d.onSettings i f).faults = d.faults := rfl
@[simp] theorem Dev.onSettings_fabric : (d.onSettings i f).fabric = d.fabric := rfl
@[simp] theorem Dev.onSettings_furrows : (d.onSettings i f).furrows = d.furrows := rfl
@[simp] theorem Dev.onSettings_codecs : (d.onSettings i f).codecs = d.codecs := rfl
@[simp] theorem Dev.onSettings_display : (d.onSettings i f).display = d.display := rfl
@[simp] theorem Dev.onSettings_time : (d.onSettings i f).time = d.time := rfl
@[simp] theorem Dev.onSettings_net : (d.onSettings i f).net = d.net := rfl
@[simp] theorem Dev.onSettings_audio : (d.onSettings i f).audio = d.audio := rfl
@[simp] theorem Dev.onSettings_hbm : (d.onSettings i f).hbm = d.hbm := rfl
@[simp] theorem Dev.onSettings_pails : (d.onSettings i f).pails = d.pails := rfl
@[simp] theorem Dev.onSettings_dma : (d.onSettings i f).dma = d.dma := rfl
@[simp] theorem Dev.onSettings_mag : (d.onSettings i f).mag = d.mag := rfl
@[simp] theorem Dev.onSettings_nvme : (d.onSettings i f).nvme = d.nvme := rfl
@[simp] theorem Dev.onSettings_boot : (d.onSettings i f).boot = d.boot := rfl
@[simp] theorem Dev.onSettings_free : (d.onSettings i f).free = d.free := rfl

end

/-! ## `Dev.onRaster` -/

section

variable (i : Nat) (f : Raster → Raster) (d : Dev)

@[simp] theorem Dev.onRaster_now : (d.onRaster i f).now = d.now := rfl
@[simp] theorem Dev.onRaster_ctl : (d.onRaster i f).ctl = d.ctl := rfl
@[simp] theorem Dev.onRaster_bar0 : (d.onRaster i f).bar0 = d.bar0 := rfl
@[simp] theorem Dev.onRaster_spi : (d.onRaster i f).spi = d.spi := rfl
@[simp] theorem Dev.onRaster_udp : (d.onRaster i f).udp = d.udp := rfl
@[simp] theorem Dev.onRaster_events : (d.onRaster i f).events = d.events := rfl
@[simp] theorem Dev.onRaster_counters : (d.onRaster i f).counters = d.counters := rfl
@[simp] theorem Dev.onRaster_gleaner : (d.onRaster i f).gleaner = d.gleaner := rfl
@[simp] theorem Dev.onRaster_faults : (d.onRaster i f).faults = d.faults := rfl
@[simp] theorem Dev.onRaster_fabric : (d.onRaster i f).fabric = d.fabric := rfl
@[simp] theorem Dev.onRaster_furrows : (d.onRaster i f).furrows = d.furrows := rfl
@[simp] theorem Dev.onRaster_streams : (d.onRaster i f).streams = d.streams := rfl
@[simp] theorem Dev.onRaster_codecs : (d.onRaster i f).codecs = d.codecs := rfl
@[simp] theorem Dev.onRaster_time : (d.onRaster i f).time = d.time := rfl
@[simp] theorem Dev.onRaster_net : (d.onRaster i f).net = d.net := rfl
@[simp] theorem Dev.onRaster_audio : (d.onRaster i f).audio = d.audio := rfl
@[simp] theorem Dev.onRaster_hbm : (d.onRaster i f).hbm = d.hbm := rfl
@[simp] theorem Dev.onRaster_pails : (d.onRaster i f).pails = d.pails := rfl
@[simp] theorem Dev.onRaster_dma : (d.onRaster i f).dma = d.dma := rfl
@[simp] theorem Dev.onRaster_mag : (d.onRaster i f).mag = d.mag := rfl
@[simp] theorem Dev.onRaster_nvme : (d.onRaster i f).nvme = d.nvme := rfl
@[simp] theorem Dev.onRaster_boot : (d.onRaster i f).boot = d.boot := rfl
@[simp] theorem Dev.onRaster_free : (d.onRaster i f).free = d.free := rfl

end

/-! ## `Dev.onDomain` -/

section

variable (i : Nat) (f : Domain → Domain) (d : Dev)

@[simp] theorem Dev.onDomain_now : (d.onDomain i f).now = d.now := rfl
@[simp] theorem Dev.onDomain_ctl : (d.onDomain i f).ctl = d.ctl := rfl
@[simp] theorem Dev.onDomain_bar0 : (d.onDomain i f).bar0 = d.bar0 := rfl
@[simp] theorem Dev.onDomain_spi : (d.onDomain i f).spi = d.spi := rfl
@[simp] theorem Dev.onDomain_udp : (d.onDomain i f).udp = d.udp := rfl
@[simp] theorem Dev.onDomain_events : (d.onDomain i f).events = d.events := rfl
@[simp] theorem Dev.onDomain_counters : (d.onDomain i f).counters = d.counters := rfl
@[simp] theorem Dev.onDomain_gleaner : (d.onDomain i f).gleaner = d.gleaner := rfl
@[simp] theorem Dev.onDomain_faults : (d.onDomain i f).faults = d.faults := rfl
@[simp] theorem Dev.onDomain_fabric : (d.onDomain i f).fabric = d.fabric := rfl
@[simp] theorem Dev.onDomain_furrows : (d.onDomain i f).furrows = d.furrows := rfl
@[simp] theorem Dev.onDomain_streams : (d.onDomain i f).streams = d.streams := rfl
@[simp] theorem Dev.onDomain_codecs : (d.onDomain i f).codecs = d.codecs := rfl
@[simp] theorem Dev.onDomain_display : (d.onDomain i f).display = d.display := rfl
@[simp] theorem Dev.onDomain_net : (d.onDomain i f).net = d.net := rfl
@[simp] theorem Dev.onDomain_audio : (d.onDomain i f).audio = d.audio := rfl
@[simp] theorem Dev.onDomain_hbm : (d.onDomain i f).hbm = d.hbm := rfl
@[simp] theorem Dev.onDomain_pails : (d.onDomain i f).pails = d.pails := rfl
@[simp] theorem Dev.onDomain_dma : (d.onDomain i f).dma = d.dma := rfl
@[simp] theorem Dev.onDomain_mag : (d.onDomain i f).mag = d.mag := rfl
@[simp] theorem Dev.onDomain_nvme : (d.onDomain i f).nvme = d.nvme := rfl
@[simp] theorem Dev.onDomain_boot : (d.onDomain i f).boot = d.boot := rfl
@[simp] theorem Dev.onDomain_free : (d.onDomain i f).free = d.free := rfl

end

/-! ## `Dev.onPort` -/

section

variable (i : Nat) (f : AudioPort → AudioPort) (d : Dev)

@[simp] theorem Dev.onPort_now : (d.onPort i f).now = d.now := rfl
@[simp] theorem Dev.onPort_ctl : (d.onPort i f).ctl = d.ctl := rfl
@[simp] theorem Dev.onPort_bar0 : (d.onPort i f).bar0 = d.bar0 := rfl
@[simp] theorem Dev.onPort_spi : (d.onPort i f).spi = d.spi := rfl
@[simp] theorem Dev.onPort_udp : (d.onPort i f).udp = d.udp := rfl
@[simp] theorem Dev.onPort_events : (d.onPort i f).events = d.events := rfl
@[simp] theorem Dev.onPort_counters : (d.onPort i f).counters = d.counters := rfl
@[simp] theorem Dev.onPort_gleaner : (d.onPort i f).gleaner = d.gleaner := rfl
@[simp] theorem Dev.onPort_faults : (d.onPort i f).faults = d.faults := rfl
@[simp] theorem Dev.onPort_fabric : (d.onPort i f).fabric = d.fabric := rfl
@[simp] theorem Dev.onPort_furrows : (d.onPort i f).furrows = d.furrows := rfl
@[simp] theorem Dev.onPort_streams : (d.onPort i f).streams = d.streams := rfl
@[simp] theorem Dev.onPort_codecs : (d.onPort i f).codecs = d.codecs := rfl
@[simp] theorem Dev.onPort_display : (d.onPort i f).display = d.display := rfl
@[simp] theorem Dev.onPort_time : (d.onPort i f).time = d.time := rfl
@[simp] theorem Dev.onPort_net : (d.onPort i f).net = d.net := rfl
@[simp] theorem Dev.onPort_hbm : (d.onPort i f).hbm = d.hbm := rfl
@[simp] theorem Dev.onPort_pails : (d.onPort i f).pails = d.pails := rfl
@[simp] theorem Dev.onPort_dma : (d.onPort i f).dma = d.dma := rfl
@[simp] theorem Dev.onPort_mag : (d.onPort i f).mag = d.mag := rfl
@[simp] theorem Dev.onPort_nvme : (d.onPort i f).nvme = d.nvme := rfl
@[simp] theorem Dev.onPort_boot : (d.onPort i f).boot = d.boot := rfl
@[simp] theorem Dev.onPort_free : (d.onPort i f).free = d.free := rfl

end

/-! ## `Dev.onChannel` -/

section

variable (i : Nat) (f : Channel → Channel) (d : Dev)

@[simp] theorem Dev.onChannel_now : (d.onChannel i f).now = d.now := rfl
@[simp] theorem Dev.onChannel_ctl : (d.onChannel i f).ctl = d.ctl := rfl
@[simp] theorem Dev.onChannel_bar0 : (d.onChannel i f).bar0 = d.bar0 := rfl
@[simp] theorem Dev.onChannel_spi : (d.onChannel i f).spi = d.spi := rfl
@[simp] theorem Dev.onChannel_udp : (d.onChannel i f).udp = d.udp := rfl
@[simp] theorem Dev.onChannel_events : (d.onChannel i f).events = d.events := rfl
@[simp] theorem Dev.onChannel_counters : (d.onChannel i f).counters = d.counters := rfl
@[simp] theorem Dev.onChannel_gleaner : (d.onChannel i f).gleaner = d.gleaner := rfl
@[simp] theorem Dev.onChannel_faults : (d.onChannel i f).faults = d.faults := rfl
@[simp] theorem Dev.onChannel_fabric : (d.onChannel i f).fabric = d.fabric := rfl
@[simp] theorem Dev.onChannel_furrows : (d.onChannel i f).furrows = d.furrows := rfl
@[simp] theorem Dev.onChannel_streams : (d.onChannel i f).streams = d.streams := rfl
@[simp] theorem Dev.onChannel_codecs : (d.onChannel i f).codecs = d.codecs := rfl
@[simp] theorem Dev.onChannel_display : (d.onChannel i f).display = d.display := rfl
@[simp] theorem Dev.onChannel_time : (d.onChannel i f).time = d.time := rfl
@[simp] theorem Dev.onChannel_net : (d.onChannel i f).net = d.net := rfl
@[simp] theorem Dev.onChannel_audio : (d.onChannel i f).audio = d.audio := rfl
@[simp] theorem Dev.onChannel_hbm : (d.onChannel i f).hbm = d.hbm := rfl
@[simp] theorem Dev.onChannel_pails : (d.onChannel i f).pails = d.pails := rfl
@[simp] theorem Dev.onChannel_mag : (d.onChannel i f).mag = d.mag := rfl
@[simp] theorem Dev.onChannel_nvme : (d.onChannel i f).nvme = d.nvme := rfl
@[simp] theorem Dev.onChannel_boot : (d.onChannel i f).boot = d.boot := rfl
@[simp] theorem Dev.onChannel_free : (d.onChannel i f).free = d.free := rfl

end

end Sys2Proof.Machine
end

