-- ==== Sys2Proof/Laws/Exec.lean ====
section
/-! SUPPORT. What a row does to the whole state: the clock moves to its instant, its effect follows, the queue stays. -/

namespace Sys2Proof.Machine

/-- A row that a thermal trip does not stop. -/
theorem always_eq (t : Nat) (f : Dev → Dev) (s : State) : always t f s = .next (s.set (f (s.dev.clock t))) := rfl

/-- A row of an engine, with no thermal trip. -/
theorem after_awake {t : Nat} {f : Dev → Dev} {s : State} {d : Dev} (h : Awake s t d) : after t f s = .next (s.set (f d)) := by
  obtain ⟨rfl, h⟩ := h
  have h' : s.dev.faults.thermalTrip = false := h
  simp [after, always, unlessTripped, h', State.set]

/-- A row of an engine after a thermal trip. -/
theorem after_tripped {t : Nat} {f : Dev → Dev} {s : State} (h : s.dev.faults.thermalTrip = true) : after t f s = .next (s.set (s.dev.clock t)) := by
  simp [after, always, unlessTripped, h, State.set]

/-- A row of an engine leaves a next state with the same queue. -/
theorem after_next (t : Nat) (f : Dev → Dev) (s : State) : ∃ d, after t f s = .next (s.set d) := ⟨_, rfl⟩

/-- A Kievo command arrives as the packet it is. -/
theorem exec_kievo {c : Instr} {s : State} {op : Nat} {p : Packet} (h : c.kievo = some (op, p)) : exec c s = always p.time (arrive op p) s := by
  cases c <;> first | (cases h; rfl) | cases h

/-- A row does not act before its instant, nor move the clock back. -/
theorem Dev.clock_clock (t u : Nat) (d : Dev) : (d.clock t).clock u = d.clock (max t u) := by
  simp [Dev.clock, Nat.max_assoc]

/-- The clock at rest. -/
theorem Dev.clock_of_le {t : Nat} {d : Dev} (h : t ≤ d.now) : d.clock t = d := by
  simp [Dev.clock, Nat.max_eq_left h]

end Sys2Proof.Machine
end

