-- ==== Sys2Proof/Laws/Memory.lean ====
section
/-! SUPPORT. The canonical form of a memory, and that every memory operation keeps it. -/

namespace Sys2Proof.Machine

/-- A memory whose cells all lie at or above a bound is sorted from that bound. -/
theorem memSortedFrom_raise {lo b : Nat} {m : Mem} (h : memSortedFrom lo m = true) (hb : ∀ c ∈ m, b ≤ c.1) : memSortedFrom b m = true := by
  cases m with
  | nil => rfl
  | cons e m =>
    obtain ⟨k, v⟩ := e
    simp only [memSortedFrom, Bool.and_eq_true, decide_eq_true_eq] at h ⊢
    exact ⟨⟨hb _ (List.mem_cons_self ..), h.1.2⟩, h.2⟩

/-- A memory sorted from a bound is sorted from every lower one. -/
theorem memSortedFrom_lower {lo b : Nat} {m : Mem} (h : memSortedFrom lo m = true) (hb : b ≤ lo) : memSortedFrom b m = true := by
  cases m with
  | nil => rfl
  | cons e m =>
    obtain ⟨k, v⟩ := e
    simp only [memSortedFrom, Bool.and_eq_true, decide_eq_true_eq] at h ⊢
    exact ⟨⟨Nat.le_trans hb h.1.1, h.1.2⟩, h.2⟩

/-- Every cell of a sorted memory lies at or above its bound. -/
theorem memSortedFrom_le {lo : Nat} {m : Mem} (h : memSortedFrom lo m = true) : ∀ c ∈ m, lo ≤ c.1 := by
  induction m generalizing lo with
  | nil => simp
  | cons e m ih =>
    obtain ⟨k, v⟩ := e
    simp only [memSortedFrom, Bool.and_eq_true, decide_eq_true_eq] at h
    intro c hc
    rcases List.mem_cons.1 hc with rfl | hc
    · exact h.1.1
    · exact Nat.le_trans (Nat.le_succ_of_le h.1.1) (ih h.2 c hc)

/-- Cells left out of a sorted memory leave it sorted. -/
theorem memSortedFrom_filter {lo : Nat} {m : Mem} (p : Host.Cell → Bool) (h : memSortedFrom lo m = true) :
    memSortedFrom lo (m.filter p) = true := by
  induction m generalizing lo with
  | nil => rfl
  | cons e m ih =>
    obtain ⟨k, v⟩ := e
    simp only [memSortedFrom, Bool.and_eq_true, decide_eq_true_eq] at h
    cases hp : p (k, v) with
    | true =>
      rw [List.filter_cons_of_pos hp]
      simp only [memSortedFrom, Bool.and_eq_true, decide_eq_true_eq]
      exact ⟨h.1, ih h.2⟩
    | false =>
      rw [List.filter_cons_of_neg (by simp [hp])]
      exact ih (memSortedFrom_lower h.2 (Nat.le_succ_of_le h.1.1))

/-- Two sorted memories, the second above the first, are one sorted memory. -/
theorem memSortedFrom_append {lo b : Nat} {m n : Mem} (h : memSortedFrom lo m = true) (hm : ∀ c ∈ m, c.1 < b) (hn : memSortedFrom b n = true)
    (hb : lo ≤ b) : memSortedFrom lo (m ++ n) = true := by
  induction m generalizing lo with
  | nil => exact memSortedFrom_lower hn hb
  | cons e m ih =>
    obtain ⟨k, v⟩ := e
    simp only [memSortedFrom, Bool.and_eq_true, decide_eq_true_eq, List.cons_append] at h ⊢
    exact ⟨h.1, ih h.2 (fun c hc => hm c (List.mem_cons_of_mem _ hc)) (hm (k, v) (List.mem_cons_self ..))⟩

/-- The cells of a run of bytes are sorted from the run's address. -/
theorem cellsOf_sorted (a : Nat) (bs : List Byte) : memSortedFrom a (cellsOf a bs) = true := by
  induction bs generalizing a with
  | nil => rfl
  | cons b bs ih =>
    simp only [cellsOf]
    split
    · exact memSortedFrom_lower (ih (a + 1)) (Nat.le_succ a)
    · rename_i hb
      simp only [memSortedFrom, Bool.and_eq_true, decide_eq_true_eq]
      exact ⟨⟨Nat.le_refl a, hb⟩, ih (a + 1)⟩

/-- They lie below the run's end. -/
theorem cellsOf_lt (a : Nat) (bs : List Byte) : ∀ c ∈ cellsOf a bs, c.1 < a + bs.length := by
  induction bs generalizing a with
  | nil => simp [cellsOf]
  | cons b bs ih =>
    intro c hc
    simp only [cellsOf] at hc
    split at hc
    · have := ih (a + 1) c hc
      simp only [List.length_cons]; omega
    · rcases List.mem_cons.1 hc with rfl | hc
      · simp only [List.length_cons]; omega
      · have := ih (a + 1) c hc
        simp only [List.length_cons]; omega

/-- A run written keeps the canonical form. -/
theorem memWrite_wf {m : Mem} (a : Nat) (bs : List Byte) (h : Memory.wf m = true) : Memory.wf (memWrite m a bs) = true := by
  have high : memSortedFrom (a + bs.length) (m.filter fun c => a + bs.length ≤ c.1) = true :=
    memSortedFrom_raise (memSortedFrom_filter _ h) (by intro c hc; simpa using (List.mem_filter.1 hc).2)
  have mid := memSortedFrom_append (cellsOf_sorted a bs) (cellsOf_lt a bs) high (Nat.le_add_right ..)
  have low := memSortedFrom_append (memSortedFrom_filter (fun c => c.1 < a) h) (by intro c hc; simpa using (List.mem_filter.1 hc).2) mid (Nat.zero_le a)
  simpa [Memory.wf, memWrite, List.append_assoc] using low

/-- A byte written keeps it. -/
theorem memSet_wf {m : Mem} (a : Nat) (b : Byte) (h : Memory.wf m = true) : Memory.wf (memSet m a b) = true := memWrite_wf a [b] h

/-- A run cleared keeps it. -/
theorem memClear_wf {m : Mem} (a n : Nat) (h : Memory.wf m = true) : Memory.wf (memClear m a n) = true := by
  have high : memSortedFrom a (m.filter fun c => a + n ≤ c.1) = true :=
    memSortedFrom_raise (memSortedFrom_filter _ h) (by
      intro c hc
      have : a + n ≤ c.1 := by simpa using (List.mem_filter.1 hc).2
      omega)
  exact memSortedFrom_append (memSortedFrom_filter (fun c => c.1 < a) h) (by intro c hc; simpa using (List.mem_filter.1 hc).2) high (Nat.zero_le a)

/-- The host's writes keep the canonical form of its memory. -/
theorem hostWrites_wf {d : Dev} (cells : List (Nat × Byte)) (h : Memory.wf d.pails.hostMem = true) :
    Memory.wf (hostWrites cells d).pails.hostMem = true := by
  show Memory.wf (cells.foldl (fun m c => memSet m c.1 c.2) d.pails.hostMem) = true
  generalize d.pails.hostMem = m at h
  induction cells generalizing m with
  | nil => exact h
  | cons c l ih => exact ih _ (memSet_wf _ _ h)

/-- Cells moved up stay sorted. -/
theorem memSortedFrom_up {lo : Nat} (b : Nat) {m : Mem} (h : memSortedFrom lo m = true) :
    memSortedFrom (b + lo) (m.map fun c => (b + c.1, c.2)) = true := by
  induction m generalizing lo with
  | nil => rfl
  | cons e m ih =>
    obtain ⟨k, v⟩ := e
    simp only [memSortedFrom, Bool.and_eq_true, decide_eq_true_eq, List.map_cons] at h ⊢
    exact ⟨⟨Nat.add_le_add_left h.1.1 b, h.1.2⟩, ih h.2⟩

/-- Cells moved down, none below the move, stay sorted. -/
theorem memSortedFrom_down {b lo : Nat} {m : Mem} (h : memSortedFrom lo m = true) (hb : b ≤ lo) :
    memSortedFrom (lo - b) (m.map fun c => (c.1 - b, c.2)) = true := by
  induction m generalizing lo with
  | nil => rfl
  | cons e m ih =>
    obtain ⟨k, v⟩ := e
    simp only [memSortedFrom, Bool.and_eq_true, decide_eq_true_eq, List.map_cons] at h ⊢
    refine ⟨⟨by omega, h.1.2⟩, ?_⟩
    have := ih h.2 (by omega)
    rwa [show k - b + 1 = k + 1 - b by omega]

/-- A window of a memory in canonical form has it. -/
theorem memWindow_wf {m : Mem} (base n : Nat) (h : Memory.wf m = true) : Memory.wf (memWindow m base n) = true := by
  have k : memSortedFrom base (m.filter fun c => base ≤ c.1 && c.1 < base + n) = true :=
    memSortedFrom_raise (memSortedFrom_filter _ h) (by intro c hc; have := (List.mem_filter.1 hc).2; simp at this; exact this.1)
  simpa [Memory.wf, memWindow] using memSortedFrom_down k (Nat.le_refl base)

/-- A window lies within its size. -/
theorem memWindow_lt (m : Mem) (base n : Nat) : ∀ c ∈ memWindow m base n, c.1 < n := by
  intro c hc
  obtain ⟨e, he, rfl⟩ := List.mem_map.1 hc
  have := (List.mem_filter.1 he).2
  simp at this
  show e.1 - base < n
  omega

/-- A window replaced by cells within its size keeps the canonical form. -/
theorem memReplace_wf {m w : Mem} (base n : Nat) (h : Memory.wf m = true) (hw : Memory.wf w = true) (hn : ∀ c ∈ w, c.1 < n) :
    Memory.wf (memReplace m base n w) = true := by
  have high : memSortedFrom (base + n) (m.filter fun c => base + n ≤ c.1) = true :=
    memSortedFrom_raise (memSortedFrom_filter _ h) (by intro c hc; simpa using (List.mem_filter.1 hc).2)
  have mid := memSortedFrom_append (memSortedFrom_up base hw)
    (by intro c hc; obtain ⟨e, he, rfl⟩ := List.mem_map.1 hc; exact Nat.add_lt_add_left (hn e he) base) high (Nat.le_add_right ..)
  have low := memSortedFrom_append (memSortedFrom_filter (fun c => c.1 < base) h) (by intro c hc; simpa using (List.mem_filter.1 hc).2) mid (Nat.zero_le _)
  simpa [Memory.wf, memReplace, List.append_assoc] using low

end Sys2Proof.Machine
end

