-- ==== Sys2Proof/Laws/PerInstr.lean ====
section
/-! SUPPORT. Statements made per command, one lemma a constructor. -/

namespace Sys2Proof.Laws.Wf

/-- A well-formed command that is a Kievo packet carries a well-formed packet and a 16-bit opcode. -/
def Statement (i : Instr) : Prop := i.wellFormed = true → ∀ q, i.kievo = some q → q.1 < 65536 ∧ q.2.wellFormed = true

/-- A row whose opcode is fixed. -/
theorem of_packet {i : Instr} {op : Nat} {p : Packet} (hk : i.kievo = some (op, p)) (hw : i.wellFormed = p.wellFormed) (ho : op < 65536) :
    Statement i := by
  intro h q hq
  rw [hk] at hq
  cases hq
  exact ⟨ho, hw ▸ h⟩

/-- A row that is no packet. -/
theorem of_other {i : Instr} (hk : i.kievo = none) : Statement i := by
  intro _ q hq
  rw [hk] at hq
  cases hq

theorem openSession (p : Packet) : Statement (.openSession p) := of_packet rfl rfl (by decide)
theorem closeSession (p : Packet) : Statement (.closeSession p) := of_packet rfl rfl (by decide)
theorem keepalive (p : Packet) : Statement (.keepalive p) := of_packet rfl rfl (by decide)
theorem objClaim (p : Packet) : Statement (.objClaim p) := of_packet rfl rfl (by decide)
theorem objRelease (p : Packet) : Statement (.objRelease p) := of_packet rfl rfl (by decide)
theorem objQueryOwner (p : Packet) : Statement (.objQueryOwner p) := of_packet rfl rfl (by decide)
theorem sessionList (p : Packet) : Statement (.sessionList p) := of_packet rfl rfl (by decide)
theorem queryDevice (p : Packet) : Statement (.queryDevice p) := of_packet rfl rfl (by decide)
theorem txnBegin (p : Packet) : Statement (.txnBegin p) := of_packet rfl rfl (by decide)
theorem txnCommit (p : Packet) : Statement (.txnCommit p) := of_packet rfl rfl (by decide)
theorem txnAbort (p : Packet) : Statement (.txnAbort p) := of_packet rfl rfl (by decide)
theorem txnStatus (p : Packet) : Statement (.txnStatus p) := of_packet rfl rfl (by decide)
theorem txnEpochQuery (p : Packet) : Statement (.txnEpochQuery p) := of_packet rfl rfl (by decide)
theorem streamQuery (p : Packet) : Statement (.streamQuery p) := of_packet rfl rfl (by decide)
theorem streamAdmit (p : Packet) : Statement (.streamAdmit p) := of_packet rfl rfl (by decide)
theorem streamRelease (p : Packet) : Statement (.streamRelease p) := of_packet rfl rfl (by decide)
theorem admitQuery (p : Packet) : Statement (.admitQuery p) := of_packet rfl rfl (by decide)
theorem paceQuery (p : Packet) : Statement (.paceQuery p) := of_packet rfl rfl (by decide)
theorem furrowConfig (p : Packet) : Statement (.furrowConfig p) := of_packet rfl rfl (by decide)
theorem furrowLaneMap (p : Packet) : Statement (.furrowLaneMap p) := of_packet rfl rfl (by decide)
theorem furrowSyncCodes (p : Packet) : Statement (.furrowSyncCodes p) := of_packet rfl rfl (by decide)
theorem furrowTrain (p : Packet) : Statement (.furrowTrain p) := of_packet rfl rfl (by decide)
theorem furrowGang (p : Packet) : Statement (.furrowGang p) := of_packet rfl rfl (by decide)
theorem furrowStatus (p : Packet) : Statement (.furrowStatus p) := of_packet rfl rfl (by decide)
theorem sensorProfileLoad (p : Packet) : Statement (.sensorProfileLoad p) := of_packet rfl rfl (by decide)
theorem sensorRegWrite (p : Packet) : Statement (.sensorRegWrite p) := of_packet rfl rfl (by decide)
theorem sensorRegRead (p : Packet) : Statement (.sensorRegRead p) := of_packet rfl rfl (by decide)
theorem sensorMclkSet (p : Packet) : Statement (.sensorMclkSet p) := of_packet rfl rfl (by decide)
theorem syncPinSet (p : Packet) : Statement (.syncPinSet p) := of_packet rfl rfl (by decide)
theorem furrowStart (p : Packet) : Statement (.furrowStart p) := of_packet rfl rfl (by decide)
theorem furrowStop (p : Packet) : Statement (.furrowStop p) := of_packet rfl rfl (by decide)
theorem rawBlackSet (p : Packet) : Statement (.rawBlackSet p) := of_packet rfl rfl (by decide)
theorem rawDefectLoad (p : Packet) : Statement (.rawDefectLoad p) := of_packet rfl rfl (by decide)
theorem rawFpnLoad (p : Packet) : Statement (.rawFpnLoad p) := of_packet rfl rfl (by decide)
theorem rawNoiseModelSet (p : Packet) : Statement (.rawNoiseModelSet p) := of_packet rfl rfl (by decide)
theorem rawSnrSet (p : Packet) : Statement (.rawSnrSet p) := of_packet rfl rfl (by decide)
theorem rawTnrSet (p : Packet) : Statement (.rawTnrSet p) := of_packet rfl rfl (by decide)
theorem rawDualGainSet (p : Packet) : Statement (.rawDualGainSet p) := of_packet rfl rfl (by decide)
theorem rawShadingLoad (p : Packet) : Statement (.rawShadingLoad p) := of_packet rfl rfl (by decide)
theorem rawWbSet (p : Packet) : Statement (.rawWbSet p) := of_packet rfl rfl (by decide)
theorem rawQuery (p : Packet) : Statement (.rawQuery p) := of_packet rfl rfl (by decide)
theorem demosaicSet (p : Packet) : Statement (.demosaicSet p) := of_packet rfl rfl (by decide)
theorem colourSpaceSet (p : Packet) : Statement (.colourSpaceSet p) := of_packet rfl rfl (by decide)
theorem matrixSet (p : Packet) : Statement (.matrixSet p) := of_packet rfl rfl (by decide)
theorem cdlSet (p : Packet) : Statement (.cdlSet p) := of_packet rfl rfl (by decide)
theorem lut1dLoad (p : Packet) : Statement (.lut1dLoad p) := of_packet rfl rfl (by decide)
theorem lut3dLoad (p : Packet) : Statement (.lut3dLoad p) := of_packet rfl rfl (by decide)
theorem transferSet (p : Packet) : Statement (.transferSet p) := of_packet rfl rfl (by decide)
theorem branchConfig (p : Packet) : Statement (.branchConfig p) := of_packet rfl rfl (by decide)
theorem branchScalerSet (p : Packet) : Statement (.branchScalerSet p) := of_packet rfl rfl (by decide)
theorem branchEnable (p : Packet) : Statement (.branchEnable p) := of_packet rfl rfl (by decide)
theorem branchQuery (p : Packet) : Statement (.branchQuery p) := of_packet rfl rfl (by decide)
theorem statsConfig (p : Packet) : Statement (.statsConfig p) := of_packet rfl rfl (by decide)
theorem statsZonesSet (p : Packet) : Statement (.statsZonesSet p) := of_packet rfl rfl (by decide)
theorem tapConfig (p : Packet) : Statement (.tapConfig p) := of_packet rfl rfl (by decide)
theorem tapEnable (p : Packet) : Statement (.tapEnable p) := of_packet rfl rfl (by decide)
theorem statsQuery (p : Packet) : Statement (.statsQuery p) := of_packet rfl rfl (by decide)
theorem motionConfig (p : Packet) : Statement (.motionConfig p) := of_packet rfl rfl (by decide)
theorem motionSearchSet (p : Packet) : Statement (.motionSearchSet p) := of_packet rfl rfl (by decide)
theorem motionExport (p : Packet) : Statement (.motionExport p) := of_packet rfl rfl (by decide)
theorem motionQuery (p : Packet) : Statement (.motionQuery p) := of_packet rfl rfl (by decide)
theorem encOpen (p : Packet) : Statement (.encOpen p) := of_packet rfl rfl (by decide)
theorem encClose (p : Packet) : Statement (.encClose p) := of_packet rfl rfl (by decide)
theorem encConfig (p : Packet) : Statement (.encConfig p) := of_packet rfl rfl (by decide)
theorem encRcSet (p : Packet) : Statement (.encRcSet p) := of_packet rfl rfl (by decide)
theorem encForceIrap (p : Packet) : Statement (.encForceIrap p) := of_packet rfl rfl (by decide)
theorem encBind (p : Packet) : Statement (.encBind p) := of_packet rfl rfl (by decide)
theorem encQuery (p : Packet) : Statement (.encQuery p) := of_packet rfl rfl (by decide)
theorem encXsConfig (p : Packet) : Statement (.encXsConfig p) := of_packet rfl rfl (by decide)
theorem decOpen (p : Packet) : Statement (.decOpen p) := of_packet rfl rfl (by decide)
theorem decClose (p : Packet) : Statement (.decClose p) := of_packet rfl rfl (by decide)
theorem decSubmit (p : Packet) : Statement (.decSubmit p) := of_packet rfl rfl (by decide)
theorem decFlush (p : Packet) : Statement (.decFlush p) := of_packet rfl rfl (by decide)
theorem decBind (p : Packet) : Statement (.decBind p) := of_packet rfl rfl (by decide)
theorem decQuery (p : Packet) : Statement (.decQuery p) := of_packet rfl rfl (by decide)
theorem rasterTimingSet (p : Packet) : Statement (.rasterTimingSet p) := of_packet rfl rfl (by decide)
theorem rasterPlaneSet (p : Packet) : Statement (.rasterPlaneSet p) := of_packet rfl rfl (by decide)
theorem rasterOutputSet (p : Packet) : Statement (.rasterOutputSet p) := of_packet rfl rfl (by decide)
theorem rasterGroupSet (p : Packet) : Statement (.rasterGroupSet p) := of_packet rfl rfl (by decide)
theorem rasterCommitCutSet (p : Packet) : Statement (.rasterCommitCutSet p) := of_packet rfl rfl (by decide)
theorem rasterCrcSet (p : Packet) : Statement (.rasterCrcSet p) := of_packet rfl rfl (by decide)
theorem rasterRefreshSet (p : Packet) : Statement (.rasterRefreshSet p) := of_packet rfl rfl (by decide)
theorem rasterUnderrunSet (p : Packet) : Statement (.rasterUnderrunSet p) := of_packet rfl rfl (by decide)
theorem sdiRxConfig (p : Packet) : Statement (.sdiRxConfig p) := of_packet rfl rfl (by decide)
theorem rasterQuery (p : Packet) : Statement (.rasterQuery p) := of_packet rfl rfl (by decide)
theorem rasterStart (p : Packet) : Statement (.rasterStart p) := of_packet rfl rfl (by decide)
theorem rasterStop (p : Packet) : Statement (.rasterStop p) := of_packet rfl rfl (by decide)
theorem tdConfig (p : Packet) : Statement (.tdConfig p) := of_packet rfl rfl (by decide)
theorem tdQuery (p : Packet) : Statement (.tdQuery p) := of_packet rfl rfl (by decide)
theorem ptpConfig (p : Packet) : Statement (.ptpConfig p) := of_packet rfl rfl (by decide)
theorem genlockConfig (p : Packet) : Statement (.genlockConfig p) := of_packet rfl rfl (by decide)
theorem ltcConfig (p : Packet) : Statement (.ltcConfig p) := of_packet rfl rfl (by decide)
theorem launchSchedule (p : Packet) : Statement (.launchSchedule p) := of_packet rfl rfl (by decide)
theorem tdRateCommit (p : Packet) : Statement (.tdRateCommit p) := of_packet rfl rfl (by decide)
theorem timeAnchorConfig (p : Packet) : Statement (.timeAnchorConfig p) := of_packet rfl rfl (by decide)
theorem macConfig (p : Packet) : Statement (.macConfig p) := of_packet rfl rfl (by decide)
theorem flowSendCreate (p : Packet) : Statement (.flowSendCreate p) := of_packet rfl rfl (by decide)
theorem flowRecvCreate (p : Packet) : Statement (.flowRecvCreate p) := of_packet rfl rfl (by decide)
theorem flowDelete (p : Packet) : Statement (.flowDelete p) := of_packet rfl rfl (by decide)
theorem flowBind (p : Packet) : Statement (.flowBind p) := of_packet rfl rfl (by decide)
theorem flowStart (p : Packet) : Statement (.flowStart p) := of_packet rfl rfl (by decide)
theorem flowStop (p : Packet) : Statement (.flowStop p) := of_packet rfl rfl (by decide)
theorem flowQuery (p : Packet) : Statement (.flowQuery p) := of_packet rfl rfl (by decide)
theorem udpControlSet (p : Packet) : Statement (.udpControlSet p) := of_packet rfl rfl (by decide)
theorem sapConfig (p : Packet) : Statement (.sapConfig p) := of_packet rfl rfl (by decide)
theorem sapSlotMap (p : Packet) : Statement (.sapSlotMap p) := of_packet rfl rfl (by decide)
theorem sapGroupSet (p : Packet) : Statement (.sapGroupSet p) := of_packet rfl rfl (by decide)
theorem sapClockSet (p : Packet) : Statement (.sapClockSet p) := of_packet rfl rfl (by decide)
theorem asrcConfig (p : Packet) : Statement (.asrcConfig p) := of_packet rfl rfl (by decide)
theorem audioEmbedSet (p : Packet) : Statement (.audioEmbedSet p) := of_packet rfl rfl (by decide)
theorem sapRestart (p : Packet) : Statement (.sapRestart p) := of_packet rfl rfl (by decide)
theorem sapQuery (p : Packet) : Statement (.sapQuery p) := of_packet rfl rfl (by decide)
theorem pailAlloc (p : Packet) : Statement (.pailAlloc p) := of_packet rfl rfl (by decide)
theorem pailImportHost (p : Packet) : Statement (.pailImportHost p) := of_packet rfl rfl (by decide)
theorem pailFree (p : Packet) : Statement (.pailFree p) := of_packet rfl rfl (by decide)
theorem pailQuery (p : Packet) : Statement (.pailQuery p) := of_packet rfl rfl (by decide)
theorem pailMap (p : Packet) : Statement (.pailMap p) := of_packet rfl rfl (by decide)
theorem dmaChannelConfig (p : Packet) : Statement (.dmaChannelConfig p) := of_packet rfl rfl (by decide)
theorem dmaSheafSubmit (p : Packet) : Statement (.dmaSheafSubmit p) := of_packet rfl rfl (by decide)
theorem dmaPause (p : Packet) : Statement (.dmaPause p) := of_packet rfl rfl (by decide)
theorem dmaResume (p : Packet) : Statement (.dmaResume p) := of_packet rfl rfl (by decide)
theorem dmaAbort (p : Packet) : Statement (.dmaAbort p) := of_packet rfl rfl (by decide)
theorem dmaQuery (p : Packet) : Statement (.dmaQuery p) := of_packet rfl rfl (by decide)
theorem magQuery (p : Packet) : Statement (.magQuery p) := of_packet rfl rfl (by decide)
theorem magFormat (p : Packet) : Statement (.magFormat p) := of_packet rfl rfl (by decide)
theorem magEject (p : Packet) : Statement (.magEject p) := of_packet rfl rfl (by decide)
theorem reelCreate (p : Packet) : Statement (.reelCreate p) := of_packet rfl rfl (by decide)
theorem reelDelete (p : Packet) : Statement (.reelDelete p) := of_packet rfl rfl (by decide)
theorem reelRecordStart (p : Packet) : Statement (.reelRecordStart p) := of_packet rfl rfl (by decide)
theorem reelRecordStop (p : Packet) : Statement (.reelRecordStop p) := of_packet rfl rfl (by decide)
theorem clipQuery (p : Packet) : Statement (.clipQuery p) := of_packet rfl rfl (by decide)
theorem reelExpose (p : Packet) : Statement (.reelExpose p) := of_packet rfl rfl (by decide)
theorem faultQuery (p : Packet) : Statement (.faultQuery p) := of_packet rfl rfl (by decide)
theorem failoverForce (p : Packet) : Statement (.failoverForce p) := of_packet rfl rfl (by decide)
theorem yokeStatus (p : Packet) : Statement (.yokeStatus p) := of_packet rfl rfl (by decide)
theorem rankQuery (p : Packet) : Statement (.rankQuery p) := of_packet rfl rfl (by decide)
theorem rankRetire (p : Packet) : Statement (.rankRetire p) := of_packet rfl rfl (by decide)
theorem drillQuery (p : Packet) : Statement (.drillQuery p) := of_packet rfl rfl (by decide)
theorem faultLogRead (p : Packet) : Statement (.faultLogRead p) := of_packet rfl rfl (by decide)
theorem eventRingSet (p : Packet) : Statement (.eventRingSet p) := of_packet rfl rfl (by decide)
theorem eventFilterSet (p : Packet) : Statement (.eventFilterSet p) := of_packet rfl rfl (by decide)
theorem eventRead (p : Packet) : Statement (.eventRead p) := of_packet rfl rfl (by decide)
theorem telemetryRead (p : Packet) : Statement (.telemetryRead p) := of_packet rfl rfl (by decide)
theorem counterRead (p : Packet) : Statement (.counterRead p) := of_packet rfl rfl (by decide)
theorem counterReadClear (p : Packet) : Statement (.counterReadClear p) := of_packet rfl rfl (by decide)
theorem gleanQuery (p : Packet) : Statement (.gleanQuery p) := of_packet rfl rfl (by decide)
theorem fwInfo (p : Packet) : Statement (.fwInfo p) := of_packet rfl rfl (by decide)
theorem fwUpdateBegin (p : Packet) : Statement (.fwUpdateBegin p) := of_packet rfl rfl (by decide)
theorem fwUpdateData (p : Packet) : Statement (.fwUpdateData p) := of_packet rfl rfl (by decide)
theorem fwUpdateEnd (p : Packet) : Statement (.fwUpdateEnd p) := of_packet rfl rfl (by decide)
theorem fwActivate (p : Packet) : Statement (.fwActivate p) := of_packet rfl rfl (by decide)
theorem deviceReset (p : Packet) : Statement (.deviceReset p) := of_packet rfl rfl (by decide)
theorem rollbackCommit (p : Packet) : Statement (.rollbackCommit p) := of_packet rfl rfl (by decide)
theorem writePacket (time : Nat) (bytes : List Byte) : Statement (.writePacket time bytes) := of_other rfl
theorem readReply (time : Nat) (clocked : Nat) : Statement (.readReply time clocked) := of_other rfl
theorem readStatus (time : Nat) : Statement (.readStatus time) := of_other rfl
theorem bootStatus (time : Nat) : Statement (.bootStatus time) := of_other rfl
theorem bootWrite (time : Nat) (offset : Nat) (data : List Byte) : Statement (.bootWrite time offset data) := of_other rfl
theorem bootGo (time : Nat) (length : Nat) (image : ImageIn) : Statement (.bootGo time length image) := of_other rfl
theorem intStatusWrite (time : Nat) (value : Nat) : Statement (.intStatusWrite time value) := of_other rfl
theorem ringCtrlWrite (time : Nat) (ring : Fin 16) (value : Nat) : Statement (.ringCtrlWrite time ring value) := of_other rfl
theorem cqHeadWrite (time : Nat) (ring : Fin 16) (value : Nat) : Statement (.cqHeadWrite time ring value) := of_other rfl
theorem evHeadWrite (time : Nat) (value : Nat) : Statement (.evHeadWrite time value) := of_other rfl
theorem bar0RegisterWrite (time : Nat) (offset value : Nat) : Statement (.bar0RegisterWrite time offset value) := of_other rfl
theorem createIoSq (time : Nat) (cid qid size cqid prio : Nat) : Statement (.createIoSq time cid qid size cqid prio) := of_other rfl
theorem createIoCq (time : Nat) (cid qid size : Nat) : Statement (.createIoCq time cid qid size) := of_other rfl
theorem deleteIoSq (time : Nat) (cid qid : Nat) : Statement (.deleteIoSq time cid qid) := of_other rfl
theorem deleteIoCq (time : Nat) (cid qid : Nat) : Statement (.deleteIoCq time cid qid) := of_other rfl
theorem getLogPage (time : Nat) (cid lid nsid bytes : Nat) (rae : Bool) : Statement (.getLogPage time cid lid nsid bytes rae) := of_other rfl
theorem identify (time : Nat) (cid cns nsid : Nat) : Statement (.identify time cid cns nsid) := of_other rfl
theorem abort (time : Nat) (cid sqid target : Nat) : Statement (.abort time cid sqid target) := of_other rfl
theorem setFeatures (time : Nat) (cid fid value : Nat) : Statement (.setFeatures time cid fid value) := of_other rfl
theorem getFeatures (time : Nat) (cid fid : Nat) : Statement (.getFeatures time cid fid) := of_other rfl
theorem asynchronousEventRequest (time : Nat) (cid : Nat) : Statement (.asynchronousEventRequest time cid) := of_other rfl
theorem namespaceManagementCreate (time : Nat) (cid nsze ncap flbas : Nat) : Statement (.namespaceManagementCreate time cid nsze ncap flbas) := of_other rfl
theorem namespaceManagementDelete (time : Nat) (cid nsid : Nat) : Statement (.namespaceManagementDelete time cid nsid) := of_other rfl
theorem namespaceAttachmentAttach (time : Nat) (cid nsid : Nat) : Statement (.namespaceAttachmentAttach time cid nsid) := of_other rfl
theorem namespaceAttachmentDetach (time : Nat) (cid nsid : Nat) : Statement (.namespaceAttachmentDetach time cid nsid) := of_other rfl
theorem read (time : Nat) (sqid cid nsid slba nlb : Nat) : Statement (.read time sqid cid nsid slba nlb) := of_other rfl
theorem write (time : Nat) (sqid cid nsid slba nlb : Nat) (data : List Byte) (fua : Bool) : Statement (.write time sqid cid nsid slba nlb data fua) := of_other rfl
theorem flush (time : Nat) (sqid cid nsid : Nat) : Statement (.flush time sqid cid nsid) := of_other rfl
theorem writeZeroes (time : Nat) (sqid cid nsid slba nlb : Nat) : Statement (.writeZeroes time sqid cid nsid slba nlb) := of_other rfl
theorem datasetManagement (time : Nat) (sqid cid nsid : Nat) (ranges : List (Nat × Nat)) (deallocate : Bool) : Statement (.datasetManagement time sqid cid nsid ranges deallocate) := of_other rfl
theorem invalidCommandOpcode (time : Nat) (sqid cid : Nat) : Statement (.invalidCommandOpcode time sqid cid) := of_other rfl
theorem controllerDisable (time : Nat) : Statement (.controllerDisable time) := of_other rfl
theorem powerOnReset (time : Nat) (boot : BootInputs) : Statement (.powerOnReset time boot) := of_other rfl
theorem coldReset (time : Nat) (boot : BootInputs) : Statement (.coldReset time boot) := of_other rfl
theorem warmReset (time : Nat) (boot : BootInputs) : Statement (.warmReset time boot) := of_other rfl
theorem pcieEndpointReset (time : Nat) (kind : Nat) : Statement (.pcieEndpointReset time kind) := of_other rfl
theorem leaseExpiry (time : Nat) (index : Nat) : Statement (.leaseExpiry time index) := of_other rfl
theorem tombstoneExpiry (time : Nat) (index : Nat) : Statement (.tombstoneExpiry time index) := of_other rfl
theorem txnIdleTimeout (time : Nat) (txn : Nat) : Statement (.txnIdleTimeout time txn) := of_other rfl
theorem spiCsTimeout (time : Nat) : Statement (.spiCsTimeout time) := of_other rfl
theorem fragmentReassemblyTimeout (time : Nat) : Statement (.fragmentReassemblyTimeout time) := of_other rfl
theorem pacerReading (time : Nat) (speeds : List Nat) : Statement (.pacerReading time speeds) := of_other rfl
theorem vcoreConfirmed (time : Nat) (vout : Nat) (speeds : List Nat) : Statement (.vcoreConfirmed time vout speeds) := of_other rfl
theorem vcoreConfirmTimeout (time : Nat) : Statement (.vcoreConfirmTimeout time) := of_other rfl
theorem readVoutPoll (time : Nat) (vout : Nat) (tj : Int) (stackTj : List Int) : Statement (.readVoutPoll time vout tj stackTj) := of_other rfl
theorem guaranteeRestored (time : Nat) : Statement (.guaranteeRestored time) := of_other rfl
theorem furrowSof (time : Nat) (furrow : Fin 16) (lanes : List SyncIn) : Statement (.furrowSof time furrow lanes) := of_other rfl
theorem furrowRowEnd (time : Nat) (furrow : Fin 16) (row : RowIn) : Statement (.furrowRowEnd time furrow row) := of_other rfl
theorem frameTimeout (time : Nat) (furrow : Fin 16) : Statement (.frameTimeout time furrow) := of_other rfl
theorem fillLands (time : Nat) (furrow : Fin 16) : Statement (.fillLands time furrow) := of_other rfl
theorem frameDeliver (time : Nat) (furrow : Fin 16) : Statement (.frameDeliver time furrow) := of_other rfl
theorem furrowSilent (time : Nat) (furrow : Fin 16) : Statement (.furrowSilent time furrow) := of_other rfl
theorem furrowTrainDone (time : Nat) (furrow : Fin 16) (lanes : List TrainIn) (eyes : List Nat) : Statement (.furrowTrainDone time furrow lanes eyes) := of_other rfl
theorem sensorGroupWriteStart (time : Nat) (furrow : Fin 16) (group : Nat) : Statement (.sensorGroupWriteStart time furrow group) := of_other rfl
theorem sensorBusTransferDone (time : Nat) (furrow : Fin 16) (group : Nat) (result : BusResult) (data : List Byte) : Statement (.sensorBusTransferDone time furrow group result data) := of_other rfl
theorem sensorWriteWindowClose (time : Nat) (furrow : Fin 16) (group : Nat) : Statement (.sensorWriteWindowClose time furrow group) := of_other rfl
theorem syncPinEdge (time : Nat) (furrow : Fin 16) (pin : Fin 5) (rising : Bool) : Statement (.syncPinEdge time furrow pin rising) := of_other rfl
theorem syncPulseEnd (time : Nat) (furrow : Fin 16) (pin : Fin 5) : Statement (.syncPulseEnd time furrow pin) := of_other rfl
theorem tileRowRelease (time : Nat) (stream : Fin 24) (row : Nat) : Statement (.tileRowRelease time stream row) := of_other rfl
theorem motionBandRelease (time : Nat) (stream : Fin 24) (row span : Nat) : Statement (.motionBandRelease time stream row span) := of_other rfl
theorem motionWaitTimeout (time : Nat) (stream : Fin 24) (row : Nat) : Statement (.motionWaitTimeout time stream row) := of_other rfl
theorem harrowBandComplete (time : Nat) (harrow : Fin 16) : Statement (.harrowBandComplete time harrow) := of_other rfl
theorem drillJobComplete (time : Nat) (drill : Fin 384) : Statement (.drillJobComplete time drill) := of_other rfl
theorem drillJobTimeout (time : Nat) (drill : Fin 384) (cause : Nat) : Statement (.drillJobTimeout time drill cause) := of_other rfl
theorem swathRelease (time : Nat) (session : Fin 96) (swath : Nat) : Statement (.swathRelease time session swath) := of_other rfl
theorem tineJobComplete (time : Nat) (tine : Fin 64) (result : TineResult) : Statement (.tineJobComplete time tine result) := of_other rfl
theorem playbackSof (time : Nat) (stream : Fin 8) : Statement (.playbackSof time stream) := of_other rfl
theorem rasterFrameStart (time : Nat) (raster : Fin 8) (readBack : List (Nat × Nat)) : Statement (.rasterFrameStart time raster readBack) := of_other rfl
theorem rasterCommitCut (time : Nat) (raster : Fin 8) : Statement (.rasterCommitCut time raster) := of_other rfl
theorem rasterLatch (time : Nat) (raster : Fin 8) : Statement (.rasterLatch time raster) := of_other rfl
theorem rasterLineDeadline (time : Nat) (raster : Fin 8) (line : Nat) (plane : Fin 4) (cause : Nat) : Statement (.rasterLineDeadline time raster line plane cause) := of_other rfl
theorem dsiTeEdge (time : Nat) (port : Fin 2) : Statement (.dsiTeEdge time port) := of_other rfl
theorem hdmiHotPlug (time : Nat) (port : Fin 2) (plugged trained : Bool) (rate lanes : Nat) : Statement (.hdmiHotPlug time port plugged trained rate lanes) := of_other rfl
theorem hdmiFrlRetry (time : Nat) (port : Fin 2) (trained : Bool) : Statement (.hdmiFrlRetry time port trained) := of_other rfl
theorem sdiRxFrame (time : Nat) (input : Fin 4) (sav width height : Nat) (samples ancillary : List Byte) : Statement (.sdiRxFrame time input sav width height samples ancillary) := of_other rfl
theorem sdiRxLocked (time : Nat) (input : Fin 4) (payloadId : Nat) : Statement (.sdiRxLocked time input payloadId) := of_other rfl
theorem sdiRxLost (time : Nat) (input : Fin 4) : Statement (.sdiRxLost time input) := of_other rfl
theorem referenceEdge (time : Nat) (input : RefIn) : Statement (.referenceEdge time input) := of_other rfl
theorem referenceStopTimeout (time : Nat) (input : RefIn) : Statement (.referenceStopTimeout time input) := of_other rfl
theorem ptpSyncReceive (time : Nat) (td : Fin 4) (portB : Bool) (offset : Int) : Statement (.ptpSyncReceive time td portB offset) := of_other rfl
theorem ptpAnnounceReceive (time : Nat) (td : Fin 4) (portB : Bool) (grandmaster steps : Nat) (utcOffset : Int) (flags : Nat) (best : Bool) : Statement (.ptpAnnounceReceive time td portB grandmaster steps utcOffset flags best) := of_other rfl
theorem ptpReferenceTimeout (time : Nat) (td : Fin 4) (portB : Bool) : Statement (.ptpReferenceTimeout time td portB) := of_other rfl
theorem ltcWordReceive (time : Nat) (word : Nat) (good : Bool) : Statement (.ltcWordReceive time word good) := of_other rfl
theorem ltcWordSend (time : Nat) : Statement (.ltcWordSend time) := of_other rfl
theorem tdStepApply (time : Nat) (td : Fin 6) : Statement (.tdStepApply time td) := of_other rfl
theorem timeAnchor (time : Nat) (td : Fin 6) : Statement (.timeAnchor time td) := of_other rfl
theorem holdoverExtended (time : Nat) (td : Fin 6) : Statement (.holdoverExtended time td) := of_other rfl
theorem launchFire (time : Nat) (id : Nat) : Statement (.launchFire time id) := of_other rfl
theorem mediaPacketLaunch (time : Nat) (flow : Fin 64) : Statement (.mediaPacketLaunch time flow) := of_other rfl
theorem rtpPacketReceive (time : Nat) (flow : Fin 64) (pathB : Bool) (seq stamp : Nat) (payload : List Byte) (fragment : Bool) : Statement (.rtpPacketReceive time flow pathB seq stamp payload fragment) := of_other rfl
theorem flowClose (time : Nat) (flow : Fin 64) : Statement (.flowClose time flow) := of_other rfl
theorem flowPathLost (time : Nat) (flow : Fin 64) (pathB : Bool) : Statement (.flowPathLost time flow pathB) := of_other rfl
theorem ethernetLinkChange (time : Nat) (port : Fin 5) (up : Bool) (speed : Nat) : Statement (.ethernetLinkChange time port up speed) := of_other rfl
theorem sapFsEdge (time : Nat) (port : Fin 16) (xrun : Option Nat) (samples : List Int) : Statement (.sapFsEdge time port xrun samples) := of_other rfl
theorem sapFsMeasure (time : Nat) (port : Fin 16) (milliHz : Nat) : Statement (.sapFsMeasure time port milliHz) := of_other rfl
theorem stackTempReport (time : Nat) (stk : Fin 2) (temp : Int) : Statement (.stackTempReport time stk temp) := of_other rfl
theorem refreshDue (time : Nat) (rank : Fin 192) (busy : Bool) : Statement (.refreshDue time rank busy) := of_other rfl
theorem correctedError (time : Nat) (rank : Fin 192) : Statement (.correctedError time rank) := of_other rfl
theorem uncorrectableError (time : Nat) (line : Nat) (requester cause : Nat) : Statement (.uncorrectableError time line requester cause) := of_other rfl
theorem migrationChunkCopy (time : Nat) (error : Bool) : Statement (.migrationChunkCopy time error) := of_other rfl
theorem poolPageMove (time : Nat) : Statement (.poolPageMove time) := of_other rfl
theorem engineAccessFault (time : Nat) (engine : EngineRef) (kind : AccessFault) (dva handle : Nat) : Statement (.engineAccessFault time engine kind dva handle) := of_other rfl
theorem pailUnmap (time : Nat) (handle : Nat) : Statement (.pailUnmap time handle) := of_other rfl
theorem pailImportListRead (time : Nat) (handle : Nat) (failed : Bool) (host : List (Nat × Byte)) : Statement (.pailImportListRead time handle failed host) := of_other rfl
theorem pailZeroingStep (time : Nat) : Statement (.pailZeroingStep time) := of_other rfl
theorem dmaBurstComplete (time : Nat) (mover : Fin 8) (fault : Option AccessFault) (host : List (Nat × Byte)) : Statement (.dmaBurstComplete time mover fault host) := of_other rfl
theorem dmaLevelPoll (time : Nat) (channel : Fin 64) (host : List (Nat × Byte)) : Statement (.dmaLevelPoll time channel host) := of_other rfl
theorem magPowerEnable (time : Nat) : Statement (.magPowerEnable time) := of_other rfl
theorem magazineMount (time : Nat) (info : Machine.MountInfo) : Statement (.magazineMount time info) := of_other rfl
theorem magazineRemoval (time : Nat) : Statement (.magazineRemoval time) := of_other rfl
theorem nandOperationComplete (time : Nat) (op : NandOp) : Statement (.nandOperationComplete time op) := of_other rfl
theorem recordForm (time : Nat) (reel : Fin 16) : Statement (.recordForm time reel) := of_other rfl
theorem partialAcreProgram (time : Nat) : Statement (.partialAcreProgram time) := of_other rfl
theorem journalPageProgram (time : Nat) : Statement (.journalPageProgram time) := of_other rfl
theorem mapCheckpoint (time : Nat) : Statement (.mapCheckpoint time) := of_other rfl
theorem clipDirectoryUpdate (time : Nat) (reel : Fin 16) : Statement (.clipDirectoryUpdate time reel) := of_other rfl
theorem churnStep (time : Nat) (die block : Nat) : Statement (.churnStep time die block) := of_other rfl
theorem scrubStep (time : Nat) (corrected uncorrectable : List Nat) : Statement (.scrubStep time corrected uncorrectable) := of_other rfl
theorem laneRecentrePass (time : Nat) (furrow : Fin 16) (moves : List (Option Int)) : Statement (.laneRecentrePass time furrow moves) := of_other rfl
theorem telemetrySample (time : Nat) (readings : TelemetryIn) : Statement (.telemetrySample time readings) := of_other rfl
theorem drillPatrol (time : Nat) (drill : Fin 384) (good : Bool) : Statement (.drillPatrol time drill good) := of_other rfl
theorem gleanerEvaluate (time : Nat) (needs : List Nat) : Statement (.gleanerEvaluate time needs) := of_other rfl
theorem eventRingCopy (time : Nat) : Statement (.eventRingCopy time) := of_other rfl
theorem failover (time : Nat) (trigger pauseUs : Nat) : Statement (.failover time trigger pauseUs) := of_other rfl
theorem yokeLaneDisagree (time : Nat) (lane : Fin 3) : Statement (.yokeLaneDisagree time lane) := of_other rfl
theorem thermalTrip (time : Nat) (sensor : Nat) : Statement (.thermalTrip time sensor) := of_other rfl
theorem pmbAlert (time : Nat) (statusWord vout iout : Nat) : Statement (.pmbAlert time statusWord vout iout) := of_other rfl
theorem fwSlotEraseDone (time : Nat) (good : Bool) : Statement (.fwSlotEraseDone time good) := of_other rfl
theorem unknownOpcodePacket (op : Nat) (p : Packet) : Statement (.unknownOpcodePacket op p) := by
  intro h q hq
  cases hq
  simpa [Instr.wellFormed] using h
theorem sqTailWrite (time : Nat) (ring : Fin 16) (value : Nat) : Statement (.sqTailWrite time ring value) := of_other rfl
theorem resetNLow (time : Nat) (duration : Nat) : Statement (.resetNLow time duration) := of_other rfl
theorem vaonOutOfRange (time : Nat) : Statement (.vaonOutOfRange time) := of_other rfl
theorem standbyComplexFault (time : Nat) (reason : Nat) : Statement (.standbyComplexFault time reason) := of_other rfl
theorem syncTriggerPulse (time : Nat) (furrow : Fin 16) (pin : Fin 5) : Statement (.syncTriggerPulse time furrow pin) := of_other rfl
theorem fwSlotCheckDone (time : Nat) (image : ImageIn) : Statement (.fwSlotCheckDone time image) := of_other rfl
theorem arpNdpIcmpReceive (time : Nat) (port : Fin 5) (message : NeighbourIn) : Statement (.arpNdpIcmpReceive time port message) := of_other rfl

end Sys2Proof.Laws.Wf
end

