-- ==== Sys2Proof/Laws/Table.lean ====
section
/-! SUPPORT. Reading what was written, in maps and in tables. -/

namespace Sys2Proof

variable {β : Type}

/-- A map's entry reads back. -/
@[simp] theorem mapGet_mapSet_same (m : NMap β) (i : Nat) (v : β) : mapGet (mapSet m i v) i = some v := by
  induction m with
  | nil => simp [mapSet, mapGet]
  | cons e m ih =>
    obtain ⟨k, w⟩ := e
    simp only [mapSet]
    split
    · simp [mapGet]
    · split
      · simp [mapGet]
      · rename_i h1 h2
        have : k ≠ i := by omega
        simp [mapGet, this, ih]

/-- Every other entry reads as before. -/
theorem mapGet_mapSet_other (m : NMap β) {i j : Nat} (v : β) (h : j ≠ i) : mapGet (mapSet m i v) j = mapGet m j := by
  induction m with
  | nil => simp [mapSet, mapGet, Ne.symm h]
  | cons e m ih =>
    obtain ⟨k, w⟩ := e
    simp only [mapSet]
    split
    · simp [mapGet, Ne.symm h]
    · split
      · rename_i h1 h2
        subst h2
        simp [mapGet, Ne.symm h]
      · simp [mapGet, ih]

/-- A deleted entry is gone. -/
@[simp] theorem mapGet_mapDel_same (m : NMap β) (i : Nat) : mapGet (mapDel m i) i = none := by
  induction m with
  | nil => rfl
  | cons e m ih =>
    obtain ⟨k, w⟩ := e
    by_cases h : k = i
    · subst h; simpa [mapDel] using ih
    · simp only [mapDel] at ih
      simp [mapDel, mapGet, h, ih]

/-- Deleting leaves every other entry. -/
theorem mapGet_mapDel_other (m : NMap β) {i j : Nat} (h : j ≠ i) : mapGet (mapDel m i) j = mapGet m j := by
  induction m with
  | nil => rfl
  | cons e m ih =>
    obtain ⟨k, w⟩ := e
    simp only [mapDel] at ih
    by_cases hk : k = i
    · subst hk; simp [mapDel, mapGet, Ne.symm h, ih]
    · simp [mapDel, mapGet, hk, ih]

variable [Inhabited β]

/-- A table keeps its length. -/
@[simp] theorem tabMod_length (l : List β) (i : Nat) (f : β → β) : (tabMod l i f).length = l.length := by simp [tabMod]

/-- An entry of a table reads as changed. -/
theorem tabGet_tabMod_same (l : List β) {i : Nat} (f : β → β) (h : i < l.length) : tabGet (tabMod l i f) i = f (tabGet l i) := by
  simp [tabGet, tabMod, h]

/-- Every other entry of a table reads as before. -/
theorem tabGet_tabMod_other (l : List β) {i j : Nat} (f : β → β) (h : i ≠ j) : tabGet (tabMod l i f) j = tabGet l j := by
  simp [tabGet, tabMod, List.getD_eq_getElem?_getD, h]

/-- Two changes of one entry are one. -/
theorem tabMod_tabMod (l : List β) (i : Nat) (f g : β → β) : tabMod (tabMod l i f) i g = tabMod l i (fun x => g (f x)) := by
  by_cases h : i < l.length
  · simp only [tabMod, List.set_set]
    congr 2
    exact tabGet_tabMod_same l f h
  · have h' : l.length ≤ i := Nat.not_lt.1 h
    simp [tabMod, List.set_eq_of_length_le, h']

end Sys2Proof
end

