-- ==== Sys2Proof/Tests/Slice0.lean ====
section
/-! SUPPORT. The model's own tests: ill-formed terms that WellFormed refuses, values that the manual works out, and for every statement
with premises a concrete state and operands that meet them. -/

open Sys2Proof Sys2Proof.Machine

namespace Sys2Proof.Tests

set_option Elab.async false

/-- A session as OPEN_SESSION leaves it (index 0, generation 1). -/
def sess : Session := { gen := 1, nonce := 1, deadline := 2000000000, h := 5 }
/-- A module that runs, with session 0 open as the device's owner. -/
def dev0 : Dev :=
  { boot := { ({} : Boot) with ready := true, resetHeld := false }, ctl := { sessions := [(0, sess)], owners := [(0, 0)] } }
/-- A state with nothing waiting. -/
def at_ (d : Dev) : State := { dev := d }
/-- The packet of a command in session 0 over SPI. -/
def pk (op : Nat) (b : List Byte) (txn : Nat := 0) (session : Nat := 256) : Packet :=
  let p : Packet := { len := 24 + b.length, paramLength := b.length, params := b, session, seq := 6, txn }
  { p with crc := packetCrc op p }
/-- Parameters, field by field: each width in bytes with its values. -/
def fs (l : List (Nat × List Nat)) : List Byte := l.flatMap fun e => e.2.flatMap (le e.1)

/-- A module with a pail of 256 MiB in frame memory, handle 0x01000001, and one of 64 KiB in host memory, handle 0x01000002. -/
def devP : Dev :=
  let own : Pail := { large := true, size := 0x10000000, dva := 0x200000, pages := (List.range 128).map fun k => 0x40000000 + 0x200000 * k }
  let host : Pail := { host := true, size := 0x10000, dva := 0x800000000000, pages := [0] }
  { dev0 with pails := { ({} : Pails) with table := [(1, own), (2, host)], generations := [(1, 1), (2, 1)], nextIndex := 3 } }
/-- The configuration of furrow 0: a 512 by 256 dual-gain sensor of mode 0 with a Bayer pattern, stream 0. -/
def furrow0 : FurrowConfig :=
  { stream := 0, mode := 0, depthBits := 12, laneMbps := 1000, width := 512, height := 256, cfaW := 2, cfaH := 2, dualGain := 1, depth := 10
    pail := 0x01000001, cfa := [0, 1, 1, 2] }
/-- A sensor with one register group. -/
def profile0 : Profile := { busAddr := 0x10, busKhz := 400, groups := [{ group := 0, delay := 1 }] }
/-- A module with furrow 0 configured, its sensor's profile loaded, and stream 0 admitted. -/
def devF : Dev :=
  (devP.onFurrow 0 fun f => { f with config := some furrow0, profile := some profile0 }).onStream 0 fun s =>
    { s with admission := .admitted, minPeriod := 16000000, maxPeriod := 17000000 }
/-- The same with furrow 0's lane locked and mapped. -/
def devL : Dev := devF.onFurrow 0 fun f =>
  { f with maps := tabMod f.maps 0 fun _ => [{ source := 0, plane := 1 }], lanes := tabMod f.lanes 0 fun l => { l with locked := true } }
/-- The same with branch 0 of stream 0 configured. -/
def devB : Dev := onBranch 0x3000 (fun x => { x with configured := true, cls := 2, format := 0x41, outW := 512, outH := 256, ycc := 1, depth := 12, pail := 0x01000001 })
  (onTap 0 0 (fun t => { t with configured := true, depth := 4, pail := 0x01000001 }) devF)
/-- The same with encoder sessions 0 (JPEG XS) and 64 (HEVC), and decoder session 0, open. -/
def devE : Dev := devB.onCodecs fun x =>
  { x with encoders := [(0, freshEncoder 0), (64, freshEncoder 1)]
           decoders := [(0, { ({} : Decoder) with codec := 1, profile := 1, cls := 2, depth := 6, maxWidth := 512, maxHeight := 256, inKib := 1024
                                                  pail := 0x01000001 })] }
/-- A module with raster 0 driving SDI output 0. -/
def devR : Dev := devP.onRaster 0 fun r => { r with outputs := [{ output := 0, ycc := 1, sampling := 1 }] }
/-- A module with a sender of an SDI input's ancillary data and a receiver of ancillary data. -/
def devN : Dev :=
  let c : FlowConfig := { ({} : FlowConfig) with essence := 3, macA := 0, macB := 0xFF, domain := 5, port := 5004, maxPayload := 1200, periodNs := 16000000 }
  let e := devP.onDisplay fun p => { p with sdiIn := tabMod p.sdiIn 0 fun s => { s with enabled := true, domain := 5 } }
  e.onNet fun n => { n with ports := tabMod n.ports 0 fun x => { x with speed := 3 }, flows := [(0, { config := c, bound := true, bindKind := 1 }), (64, { config := { c with pail := 0x01000001, pcpOrDepth := 4 } })] }
/-- A magazine with a reel of 16 acres whose superblock, all zero but its CRC, is good. -/
def devM : Dev :=
  let p : Pack :=
    { uuid := 9, formatted := true, dies := List.replicate 32 1, acresPerBlock := 4, blocksPerDie := 100, rawBytes := 3355443200, good := 12800
      exported := 1000, free := 3000, data := memWrite [] 4092 (le 4 (crc32c (List.replicate 4092 0)))
      reels := [(1, { ({} : Reel) with uuid := 5, blocks := 1024, extents := [(0, 16)], dataLba := 128, nextLba := 128 })] }
  devF.onMag fun m => { m with state := .mounted, present := true, powerOn := true, pack := p }
/-- A module whose session 0 speaks through PCIe ring 0, which runs with 16 slots. -/
def devRing : Dev :=
  let e := dev0.onCtl fun x => { x with sessions := [(0, { sess with endpoint := .ring 0 })] }
  e.onBar0 fun b => { b with rings := tabMod (List.replicate 16 {}) 0 fun _ => { ctrl := 1, size := 0x44 } }
/-- An immediate command passes its checks, and meets a statement's further premise. -/
def metBy (c : Instr) (s : State) (sp : CmdSpec) (cond : Ctx → Dev → Bool) : Bool := match immediate c s sp with
  | some (q, d) => cond (contextOf d q) d
  | none => false
/-- A command is taken, and meets a statement's further premises. -/
def takenBy (c : Instr) (s : State) (cond : Request → Dev → Bool) : Bool := match taken c s with
  | some (q, d) => cond q d
  | none => false
/-- The first listed object that another session owns. -/
def foreignClaim (c : Ctx) (d : Dev) : Option (Nat × Nat) :=
  (indexed (claimList c.b)).findSome? fun e => (otherOwner d c.session e.2).map fun w => (e.1, w)
/-- A module whose furrow 0 is session 1's. -/
def devOwned : Dev := dev0.onCtl fun x => { x with sessions := [(0, sess), (1, { sess with nonce := 2 })], owners := [(0, 0), (0x1000, 1)] }

/-! ## Premises of the statements about packets, transactions and the machine -/

/-- A step of a state that answers a next state with a property. -/
def stepsTo (s : State) (p : State → Bool) : Bool := match step s with
  | .next t => p t
  | _ => false
/-- A KEEPALIVE of session 0. -/
def keep : Packet := pk 0x0003 []
/-- A RAW_WB_SET of stream 0, in a transaction or outside one. -/
def wbSet (txn : Nat) : Packet := pk 0x0408 (fs [(2, [0x2000, 0]), (4, List.replicate 5 0x3F800000)]) txn
/-- A module with that many open transactions of session 0, the first with that many bytes staged. -/
def devTxns (n bytes : Nat) : Dev := devF.onCtl fun x =>
  { x with txns := (List.range n).map fun k => (k + 1, { session := 0, idleNs := 10000000000, idleDeadline := 10000000000, bytes := if k = 0 then bytes else 0 })
           nextTxn := n + 1 }
/-- A module that a thermal trip has stopped. -/
def devTrip : Dev := dev0.onFaults fun f => { f with thermalTrip := true, fatalCause := 4 }

theorem witness_StepRunsFrontCommand :
    ({ dev := dev0, pending := [.readStatus 0, .keepalive keep] } : State).pending = .readStatus 0 :: [.keepalive keep] := rfl

theorem witness_CommandsLeaveQueue : State.reset.pending = [] := rfl

/-- The module is awake at an instant: the premise that every row of the outside world has. -/
theorem witness_awake : Awake (at_ dev0) 7 (dev0.clock 7) := ⟨rfl, rfl⟩

theorem witness_ArrivingPacketReachesIntake :
    ((Instr.keepalive keep).kievo = some (0x0003, keep) ∧ arrivalTaken keep (dev0.clock keep.time) = true) ∧
    (let full := dev0.onSpi fun x => { x with replies := List.replicate 8 [] }
     arrivalTaken keep (full.clock 0) = false ∧ arrivalTaken keep ((full.onSpi fun x => { x with replies := List.replicate 7 [] }).clock 0) = true) ∧
    arrivalTaken { keep with endpoint := .ring 0 } (devRing.clock 0) = true ∧
    arrivalTaken { keep with endpoint := .udp 0 1 5000 } ((dev0.onUdp fun u => { u with ports := 1 }).clock 0) = true ∧
    State.reset.dev.boot.ready = false := by
  decide +kernel

/-- A packet with room for a header and the magic number. -/
def framed (p : Packet) : Bool := decide (24 ≤ p.len) && p.magic == 0xB7E5
/-- A packet of the length that its header names. -/
def fits (p : Packet) : Bool := framed p && decide (p.paramLength ≤ 4080) && p.paramLength + 24 == p.len

theorem witness_AcceptanceOrder :
    (¬framed { keep with len := 23 } ∧ ¬framed { keep with magic := 0xE5B7 } ∧
     (framed { keep with len := 25 } ∧ ¬fits { keep with len := 25 }) ∧
     (framed { keep with len := 4105, paramLength := 4081 } ∧ ¬fits { keep with len := 4105, paramLength := 4081 }) ∧
     (fits { keep with len := 4104, paramLength := 4080 } ∧ fits { keep with crc := 0 } ∧ ({ keep with crc := 0 } : Packet).crc ≠ packetCrc 3 { keep with crc := 0 }) ∧
     (fits keep ∧ keep.crc = packetCrc 3 keep ∧ keep.version = 1 ∧ keep.session ≠ noSession ∧ mapGet dev0.ctl.sessions (sessionIndex keep.session) ≠ none) ∧
     (let p := pk 0x0003 [] 0 0x0101
      fits p ∧ p.crc = packetCrc 3 p ∧ p.version = 1 ∧ p.session ≠ noSession ∧ mapGet dev0.ctl.sessions (sessionIndex p.session) = none
        ∧ mapGet dev0.ctl.tombs (sessionIndex p.session) = none) ∧
     (let p := { keep with version := 2 }
      let p := { p with crc := packetCrc 3 p }
      fits p ∧ p.crc = packetCrc 3 p ∧ p.version ≠ 1) ∧
     (let p := pk 0x0010 [] 0 0xFFFF
      fits p ∧ p.crc = packetCrc 0x0010 p ∧ p.version = 1 ∧ p.session = noSession) ∧
     (let p := pk 0x0003 [] 0 0xFFFF
      fits p ∧ p.crc = packetCrc 3 p ∧ p.session = noSession)) := by
  decide +kernel

theorem witness_SessionlessOpcodes :
    ∀ op ∈ [0x0001, 0x0003, 0x0010], let p := pk op [] 0 0xFFFF
      p.len = 24 + p.paramLength ∧ p.magic = 0xB7E5 ∧ bit p.flags 1 = false ∧ p.paramLength ≤ 4080 ∧ p.crc = packetCrc op p ∧ p.version = 1 ∧ p.session = 0xFFFF := by
  decide +kernel

theorem witness_DuplicatesNeverRunAgain :
    let out := fun n : Nat => seqDistance n 5 > 1024 ∨ seqDistance n 5 ≤ -1024
    out 1030 ∧ ¬out 1029 ∧ out (2 ^ 32 + 5 - 1024) ∧ ¬out (2 ^ 32 + 5 - 1023) ∧
    (let x := { sess with recs := [{ seq := 6, done := true }, { seq := 7 }] }
     (x.recs.find? fun r => r.seq = 6).any (·.done) = true ∧ (x.recs.find? fun r => r.seq = 7).any (fun r => !r.done) = true
       ∧ (x.recs.find? fun r => r.seq = 8) = none ∧ (x.recs.countP fun r => !r.done) < 64) := by
  decide +kernel

theorem witness_OutstandingRequestsAreBounded :
    let x := { sess with recs := (List.range 64).map fun k => { seq := k } }
    ¬(seqDistance 64 x.h > 1024 ∨ seqDistance 64 x.h ≤ -1024) ∧ (x.recs.find? fun r => r.seq = 64) = none ∧ 64 ≤ x.recs.countP fun r => !r.done := by
  decide +kernel

/-- A REEL_RECORD_START of reel 1 with one raw track. -/
def recordStart : Instr :=
  .reelRecordStart (pk 0x1005 (fs [(2, [0xB001]), (1, [1, 0]), (1, 65 :: List.replicate 31 0), (1, [1, 0]), (2, [0x2000]), (4, [0])]))

theorem witness_AcceptedPacketIsExecuted :
    (accepted (.keepalive keep) (at_ dev0)).any (fun x => (writesBefore x.1 x.2).isEmpty) ∧
    (accepted recordStart (at_ (devM.onNvme fun n => { n with staged := [{ nsid := 1, blocks := 1 }] }))).any (fun x => !(writesBefore x.1 x.2).isEmpty) ∧
    (taken (.unknownOpcodePacket 0x1400 (pk 0x1400 [])) (at_ dev0)).isSome ∧ (commandSpec 0x1400).isNone := by
  decide +kernel

theorem witness_RefusedCommandHasNoEffect :
    takenBy (.furrowStart (pk 0x030B (fs [(2, [0x1010, 0])]))) (at_ dev0) (fun q d => (refusal d (contextOf d q) q specFurrowStart).isSome) ∧
    takenBy (.txnAbort (pk 0x0102 [])) (at_ dev0) (fun q d => (refusal d (contextOf d q) q specTxnAbort).isSome) := by
  decide +kernel

theorem witness_ImmediateCommandIsCarriedOut :
    metBy (.keepalive keep) (at_ dev0) specKeepalive (fun c d => ((commandSpec 3).isSome && (specKeepalive.act c d).2.any (·.good))) := by
  decide +kernel

theorem witness_StagedCommandsWait :
    (stages (.rawWbSet (wbSet 1)) (at_ (devTxns 1 65488)) specRawWbSet).isSome ∧ (stages (.rawWbSet (wbSet 1)) (at_ (devTxns 1 65489)) specRawWbSet).isNone ∧
    takenBy (.rawWbSet (wbSet 1)) (at_ (devTxns 1 65489)) (fun q d =>
      (refusal d (contextOf d q) q specRawWbSet).isNone && specRawWbSet.stageable (packetBody q.pkt) && !isDryRun q
        && (openTxn d (sessionIndex q.pkt.session) 1).any fun t => decide (t.bytes + (24 + (packetBody q.pkt).length) > 65536)) := by
  decide +kernel

theorem witness_OneCommandTransactions :
    takenBy (.rawWbSet (wbSet 0)) (at_ (devTxns 31 0)) (fun q d =>
      (refusal d (contextOf d q) q specRawWbSet).isNone && specRawWbSet.stageable (packetBody q.pkt) && !isDryRun q && decide (txnCount d < 32)
        && (tryCommit true (oneCommand q d) d).2.any (·.good)) ∧
    takenBy (.reelRecordStop (pk 0x1006 (fs [(2, [0xB001]), (1, [0, 0])]))) (at_ devM) (fun q d =>
      (refusal d (contextOf d q) q specReelRecordStop).isNone && specReelRecordStop.stageable (packetBody q.pkt) && !isDryRun q && decide (txnCount d < 32)
        && (tryCommit true (oneCommand q d) d).2.any (!·.good)) := by
  decide +kernel

theorem witness_TransactionsAreBounded :
    takenBy (.txnBegin (pk 0x0100 (fs [(4, [0, 0])]))) (at_ (devTxns 32 0)) (fun q d =>
      (refusal d (contextOf d q) q specTxnBegin).isNone && decide (32 ≤ txnCount d)) ∧
    takenBy (.rawWbSet (wbSet 0)) (at_ (devTxns 32 0)) (fun q d =>
      (refusal d (contextOf d q) q specRawWbSet).isNone && specRawWbSet.stageable (packetBody q.pkt) && !isDryRun q && decide (32 ≤ txnCount d)) := by
  decide +kernel

theorem witness_QueueStaysWellFormed :
    (let s : State := { dev := dev0, pending := [.keepalive keep, .readStatus 0] }
     s.queueOk = true ∧ stepsTo s (fun t => t.queueOk && decide (t.pending = [.readStatus 0])) = true) := by
  decide +kernel

theorem witness_TrippedModuleStandsStill :
    (let s : State := { dev := devTrip, pending := [.magPowerEnable 5] }
     Tripped s.dev ∧ endsTrip (.magPowerEnable 5) = false ∧ stepsTo s (fun t => t.dev.mag.state == .absent) = true) ∧
    endsTrip (.resetNLow 0 20000) = true := by
  refine ⟨⟨⟨rfl, rfl⟩, ?_⟩, ?_⟩ <;> decide +kernel

/-! ## Well-formedness -/

/-- Boot inputs that are in order. -/
def boot0 : BootInputs := {}

theorem test_wellFormed_packet_fields :
    let bad : List Packet := [{ len := 65536 }, { magic := 65536 }, { version := 256 }, { flags := 256 }, { session := 65536 }, { seq := 2 ^ 32 }, { txn := 2 ^ 32 },
      { paramLength := 65536 }, { reserved := 65536 }, { crc := 2 ^ 32 }, { host := [(2 ^ 64, 0)] }]
    bad.all (fun p => !(Instr.keepalive p).wellFormed) = true ∧ (Instr.keepalive keep).wellFormed = true
      ∧ (Instr.keepalive { keep with len := 65535, host := [(2 ^ 64 - 1, 255)] }).wellFormed = true := by
  decide +kernel

theorem test_wellFormed_packet_length : (Instr.keepalive { params := List.replicate 65537 0 }).wellFormed = false := by
  simp only [Instr.wellFormed, Packet.wellFormed, List.length_replicate]
  decide

theorem test_wellFormed_boot :
    let bad : List BootInputs := [{ boot0 with bootMode := 4 }, { boot0 with stackTemps := [25] }, { boot0 with badChannels := [64] }]
    bad.all (fun b => !(Instr.powerOnReset 0 b).wellFormed && !(Instr.coldReset 0 b).wellFormed && !(Instr.warmReset 0 b).wellFormed) = true
      ∧ (Instr.powerOnReset 0 { boot0 with bootMode := 3, badChannels := [63] }).wellFormed = true := by
  decide +kernel

theorem test_wellFormed_registers_and_nvme :
    let bad : List Instr := [.readReply 0 65536, .bootWrite 0 (2 ^ 32) [], .bootGo 0 (2 ^ 32) {}, .intStatusWrite 0 (2 ^ 32), .ringCtrlWrite 0 0 (2 ^ 32),
      .cqHeadWrite 0 0 (2 ^ 32), .evHeadWrite 0 (2 ^ 32), .sqTailWrite 0 0 (2 ^ 32), .bar0RegisterWrite 0 65536 0, .bar0RegisterWrite 0 2 0,
      .bar0RegisterWrite 0 0 (2 ^ 32), .createIoSq 0 0 65536 0 0 0, .createIoSq 0 0 0 0 0 4, .createIoCq 0 65536 0 0, .deleteIoSq 0 0 65536,
      .deleteIoCq 0 65536 0, .getLogPage 0 65536 0 0 0 true, .getLogPage 0 0 256 0 0 true, .getLogPage 0 0 0 (2 ^ 32) 0 true, .identify 0 65536 0 0,
      .identify 0 0 256 0, .identify 0 0 0 (2 ^ 32), .abort 0 0 0 65536, .setFeatures 0 65536 0 0, .setFeatures 0 0 256 0, .setFeatures 0 0 0 (2 ^ 32),
      .getFeatures 0 65536 0, .getFeatures 0 0 256, .asynchronousEventRequest 0 65536]
    bad.all (fun c => !c.wellFormed) = true ∧ (Instr.bar0RegisterWrite 0 65532 (2 ^ 32 - 1)).wellFormed = true := by
  decide +kernel

theorem test_wellFormed_namespaces :
    let bad : List Instr := [.namespaceManagementCreate 0 65536 0 0 0, .namespaceManagementCreate 0 0 (2 ^ 64) 0 0, .namespaceManagementCreate 0 0 0 (2 ^ 64) 0,
      .namespaceManagementCreate 0 0 0 0 256, .namespaceManagementDelete 0 65536 0, .namespaceManagementDelete 0 0 (2 ^ 32),
      .namespaceAttachmentAttach 0 65536 0, .namespaceAttachmentAttach 0 0 (2 ^ 32), .namespaceAttachmentDetach 0 65536 0,
      .namespaceAttachmentDetach 0 0 (2 ^ 32), .read 0 65536 0 0 0 0, .read 0 0 0 (2 ^ 32) 0 0, .read 0 0 0 0 (2 ^ 64) 0, .read 0 0 0 0 0 65537,
      .write 0 65536 0 0 0 0 [] false, .write 0 0 0 (2 ^ 32) 0 0 [] false, .write 0 0 0 0 (2 ^ 64) 0 [] false, .write 0 0 0 0 0 65537 [] false,
      .write 0 0 0 0 0 1 [0] false, .flush 0 65536 0 0, .flush 0 0 0 (2 ^ 32), .writeZeroes 0 65536 0 0 0 0, .writeZeroes 0 0 0 (2 ^ 32) 0 0,
      .writeZeroes 0 0 0 0 (2 ^ 64) 0, .writeZeroes 0 0 0 0 0 65537, .datasetManagement 0 65536 0 0 [] true, .datasetManagement 0 0 0 (2 ^ 32) [] true,
      .datasetManagement 0 0 0 0 (List.replicate 257 (0, 0)) true, .invalidCommandOpcode 0 65536 0]
    bad.all (fun c => !c.wellFormed) = true ∧ (Instr.read 0 65535 65535 (2 ^ 32 - 1) (2 ^ 64 - 1) 65536).wellFormed = true := by
  decide +kernel

theorem test_wellFormed_events :
    let bad : List Instr := [.pcieEndpointReset 0 3, .leaseExpiry 0 256, .tombstoneExpiry 0 256, .txnIdleTimeout 0 (2 ^ 32), .pacerReading 0 [],
      .vcoreConfirmed 0 0 (List.replicate 13 0), .readVoutPoll 0 0 0 [25], .furrowTrainDone 0 0 (List.replicate 129 {}) [], .furrowTrainDone 0 0 [] (List.replicate 129 0),
      .sensorGroupWriteStart 0 0 32, .sensorBusTransferDone 0 0 32 default [], .sensorWriteWindowClose 0 0 32, .drillJobTimeout 0 0 4, .rasterLineDeadline 0 0 0 0 3,
      .sdiRxFrame 0 0 0 0 0 [] (List.replicate 4097 0), .sdiRxLocked 0 0 (2 ^ 32), .ptpAnnounceReceive 0 0 false (2 ^ 64) 0 0 0 false,
      .ptpAnnounceReceive 0 0 false 0 65536 0 0 false, .ltcWordReceive 0 (2 ^ 64) true, .launchFire 0 1024, .rtpPacketReceive 0 0 false 65536 0 [] false,
      .rtpPacketReceive 0 0 false 0 (2 ^ 32) [] false, .uncorrectableError 0 (72 * 2 ^ 24) 0 0, .pailUnmap 0 (2 ^ 32), .pailImportListRead 0 (2 ^ 32) false [],
      .gleanerEvaluate 0 (List.replicate 7 0), .failover 0 0 0, .failover 0 6 0, .pmbAlert 0 65536 0 0, .standbyComplexFault 0 256,
      .unknownOpcodePacket 65536 keep, .unknownOpcodePacket 0x1400 { keep with len := 65536 }]
    bad.all (fun c => !c.wellFormed) = true ∧ (Instr.failover 0 5 0).wellFormed = true ∧ (Instr.launchFire 0 1023).wellFormed = true := by
  decide +kernel

theorem test_wellFormed_longest :
    (Instr.writePacket 0 (List.replicate 4105 0)).wellFormed = false ∧ (Instr.writePacket 0 (List.replicate 4104 0)).wellFormed = true
      ∧ (Instr.bootWrite 0 0 (List.replicate 4097 0)).wellFormed = false := by
  simp only [Instr.wellFormed, List.length_replicate]
  decide

/-! ## Values that the manual works out -/

/-- The check values of "123456789": CRC-32C (R52), CRC-32 (R326), and the CRC that R120 describes. -/
theorem test_check_values :
    let digits : List Byte := (List.range 9).map fun k => byte (0x31 + k)
    crc32c digits = 0xE3069283 ∧ crc16 8 (digits.map (·.toNat)) = 0x29B1 ∧ crc32 digits = 0xCBF43926 := by
  decide +kernel

/-- The object IDs of the worked example after R9 and of handle 0x0500_1A2B, and the short stamp's wrap at 4.294967296 s. -/
theorem test_object_ids :
    branchOf 0x302B = (5, 3) ∧ objOk 0x302B = true ∧ objIndex 0xD046 = 70 ∧ objOk 0xD046 = true ∧ objOk 0xD802 = true ∧ objOk 0xD180 = false
      ∧ keyObj (pailKey (0x05001A2B % 65536)) = 0x9A2B ∧ shortStamp 4294967296 = 0 ∧ shortStamp 4294967295 = 4294967295 := by
  decide +kernel

/-! ## The worked example of Chapter 2 -/

def big (k : Nat) : FurrowConfig :=
  { stream := k, mode := 0, depthBits := 14, laneMbps := 3000, width := 24576, height := 12288, cfaW := 2, cfaH := 2, depth := 5, pail := 0x01000001, cfa := [0, 1, 2, 3] }
def bigBranch (w h cls fmt : Nat) : BranchSet := { enable := true, configured := true, cls, format := fmt, outW := w, outH := h, ycc := 1, depth := 12, pail := 0x01000001 }
def bigStream (k : Nat) (d : Dev) : Dev :=
  let d := d.onFurrow (2 * k) fun f => { f with config := some (big k), ganged := true, state := .running }
  let d := d.onFurrow (2 * k + 1) fun f => { f with ganged := true }
  d.onStream k fun s =>
    { s with admission := .admitted, minPeriod := 16666667, maxPeriod := 16666667
             settings := { s.settings with
               raw := { s.settings.raw with snr := { s.settings.raw.snr with enable := true }, tnr := { s.settings.raw.tnr with enable := true } }
               motion := { s.settings.motion with enable := true }
               stats := { s.settings.stats with enable := true, cls := 1, pail := 0x01000001 }
               branches := tabMod (tabMod s.settings.branches 0 fun _ => bigBranch 3840 2160 0 0x31) 1 fun _ => bigBranch 1920 1080 1 0x30 } }
def bigEnc (k : Nat) : Encoder := { ({} : Encoder) with codec := 1, configured := true, enc := { profile := 3, cls := 1, source := 0x3001 + 8 * k, tileCols := 4, pail := 0x01000001 } }
def bigXs (k : Nat) : Encoder := { ({} : Encoder) with codec := 0, configured := true, xs := { sourceKind := 0, source := 0x2000 + k, profile := 5, cls := 2, budget := 132120576, pail := 0x01000001 } }
def dev302 : Dev :=
  let d := bigStream 1 (bigStream 0 devP)
  let d := d.onCodecs fun x => { x with encoders := [(0, bigXs 0), (1, bigXs 1), (64, bigEnc 0), (65, bigEnc 1)] }
  let r := fun (k : Nat) (r : Raster) =>
    let p : PlaneSet := { mode := 2, sourceKind := 0, source := 0x3000 + 8 * k }
    { r with running := true, timing := { hActive := 3840, vActive := 2160, hTotal := 4400, vTotal := 2250 }
             planes := tabMod r.planes 0 fun _ => p, live := tabMod r.live 0 fun _ => p }
  (d.onRaster 0 (r 0)).onRaster 1 (r 1)
def devB2 : Dev := [0, 1].foldl (fun d k => d.onStream k fun s => { s with settings := { s.settings with branches := tabMod s.settings.branches 2 fun _ => bigBranch 24576 12288 1 0x41 } }) dev302

/-- The worked example of Chapter 2: two 24,576 × 12,288 sensors at 60 frames a second fit at step 900. -/
theorem test_worked_admission : (match admitTest dev0 dev302 false .request with
    | .step v => v
    | .refuse _ => 0) = 900 := by
  decide +kernel

/-- A third, full-size branch of both streams: refused for drill work, with the figures that the manual gives. -/
theorem test_worked_refusal : (match admitTest dev0 devB2 false .change with
    | .step v => [v]
    | .refuse r => [u8 r.params 0, u32 r.params 4, u32 r.params 8, u32 r.params 12, u32 r.params 16]) = [1, 900, 480544, 454971, 25573] := by
  decide +kernel

/-! ## Premises of the statements about commands -/

theorem witness_SessionCommands :
    metBy (.openSession (pk 0x0001 (fs [(8, [7]), (4, [0]), (2, [0, 0]), (1, [65, 0, 0, 0, 0, 0, 0, 0, 0, 0, 0, 0, 0, 0, 0, 0])]) 0 0xffff)) (at_ dev0) specOpenSession
      (fun c d => (sameNonce d c.endpoint (u64 c.b 0)).isNone && newSessionIndex d == some 1) ∧
    (immediate (.closeSession (pk 0x0002 (fs [(4, [0])]))) (at_ dev0) specCloseSession).isSome ∧
    (immediate (.keepalive (pk 0x0003 [])) (at_ dev0) specKeepalive).isSome ∧
    (immediate (.sessionList (pk 0x0007 (fs [(4, [0])]))) (at_ dev0) specSessionList).isSome ∧
    (immediate (.queryDevice (pk 0x0010 [] 0 0xffff)) (at_ dev0) specQueryDevice).isSome ∧
    metBy (.openSession (pk 0x0001 (fs [(8, [1]), (4, [0]), (2, [0, 0]), (1, List.replicate 16 0)]) 0 0xFFFF)) (at_ dev0) specOpenSession
      (fun c d => (sameNonce d c.endpoint (u64 c.b 0)).isSome) := by
  decide +kernel

theorem witness_OwnershipCommands :
    metBy (.objClaim (pk 0x0004 (fs [(2, [1, 0, 4096])]))) (at_ dev0) specObjClaim
      (fun c d => ((indexed (claimList c.b)).findSome? fun e => (otherOwner d c.session e.2).map fun w => (e.1, w)).isNone) ∧
    metBy (.objRelease (pk 0x0005 (fs [(2, [1, 0, 4096])]))) (at_ { dev0 with ctl := { dev0.ctl with owners := [(0, 0), (0x1000, 0)] } }) specObjRelease
      (fun c d => ((indexed (claimList c.b)).findSome? fun e => ((objKeys d e.2).find? fun k => keyOwner d k ≠ some c.session).map fun k => (e.1, keyOwner d k)).isNone) ∧
    (immediate (.objQueryOwner (pk 0x0006 (fs [(2, [1, 0, 4096])]))) (at_ dev0) specObjQueryOwner).isSome ∧
    metBy (.objClaim (pk 0x0004 (fs [(2, [1, 0, 0x1000])]))) (at_ devOwned) specObjClaim (fun c d => (foreignClaim c d) == some (0, 1) && !bit (u16 c.b 2) 0) ∧
    metBy (.objClaim (pk 0x0004 (fs [(2, [1, 1, 0x1000])]))) (at_ devOwned) specObjClaim (fun c d => bit (u16 c.b 2) 0 && keyOwner d 0 == some c.session) ∧
    metBy (.objRelease (pk 0x0005 (fs [(2, [1, 0, 0x1000])]))) (at_ devOwned) specObjRelease
      (fun c d => (indexed (claimList c.b)).any fun e => (objKeys d e.2).any fun k => keyOwner d k ≠ some c.session) := by
  decide +kernel

theorem witness_TransactionCommands :
    (immediate (.txnBegin (pk 0x0100 (fs [(4, [0, 0])]))) (at_ dev0) specTxnBegin).isSome ∧
    metBy (.txnCommit (pk 0x0101 (fs [(4, [1]), (2, [0, 0]), (4, [0, 0])])))
      (at_ (dev0.onCtl fun x => { x with txns := [(1, { session := 0, idleNs := 10000000000, idleDeadline := 10000000000 })], nextTxn := 2 })) specTxnCommit
      (fun c d => (commitTxn c d).2.any (·.good)) ∧
    metBy (.txnAbort (pk 0x0102 (fs [(4, [1])])))
      (at_ (dev0.onCtl fun x => { x with txns := [(1, { session := 0, idleNs := 10000000000, idleDeadline := 10000000000 })], nextTxn := 2 })) specTxnAbort
      (fun c d => (openTxn d c.session (u32 c.b 0)).isSome) ∧
    metBy (.txnStatus (pk 0x0103 (fs [(4, [1])])))
      (at_ (dev0.onCtl fun x => { x with txns := [(1, { session := 0, idleNs := 10000000000, idleDeadline := 10000000000 })], nextTxn := 2 })) specTxnStatus
      (fun c d => (txnReport d c.session (u32 c.b 0)).isSome) ∧
    metBy (.txnEpochQuery (pk 0x0104 (fs [(4, [1])]))) (at_ (dev0.onCtl fun x => { x with epochs := [{ epoch := 1 }] })) specTxnEpochQuery
      (fun c d => (d.ctl.epochs.find? fun e => e.epoch = u32 c.b 0).isSome) := by
  decide +kernel

theorem witness_StreamCommands :
    (atOnce (.streamAdmit (pk 0x0201 (fs [(2, [8192, 0]), (4, [16000000, 17000000, 0])]))) (at_ devF) specStreamAdmit).isSome ∧
    (atOnce (.streamRelease (pk 0x0202 (fs [(2, [8192, 0])]))) (at_ devF) specStreamRelease).isSome ∧
    (immediate (.streamQuery (pk 0x0200 (fs [(2, [8192, 0])]))) (at_ devF) specStreamQuery).isSome ∧
    (immediate (.admitQuery (pk 0x0203 [])) (at_ devF) specAdmitQuery).isSome ∧
    (immediate (.paceQuery (pk 0x0204 [])) (at_ devF) specPaceQuery).isSome ∧
    takenBy (.streamAdmit (pk 0x0201 (fs [(2, [0x2000, 1]), (4, [16000000, 17000000, 0])]))) (at_ devF) (fun q d =>
      (refusal d (contextOf d q) q specStreamAdmit).isNone && bit (u16 (packetBody q.pkt) 2) 0) := by
  decide +kernel

theorem witness_FurrowCommands :
    (immediate (.furrowConfig (pk 0x0300 (fs [(2, [4096, 8192]), (1, [0, 12]), (2, [1000, 512, 256]), (1, [2, 2, 1, 5, 0, 4, 0, 0]), (4, [0x01000001]), (1, [0, 1, 1, 2, 0, 0, 0, 0, 0, 0, 0, 0, 0, 0, 0, 0, 0, 0, 0, 0, 0, 0, 0, 0, 0, 0, 0, 0, 0, 0, 0, 0, 0, 0, 0, 0]), (4, [0])])))
      (at_ devP) specFurrowConfig).isSome ∧
    (immediate (.furrowLaneMap (pk 0x0301 (fs [(2, [4096]), (1, [1, 2, 0, 0]), (2, [0]), (1, [1, 0, 0, 0, 1, 0]), (2, [0]), (1, [1, 1, 0, 0])])))
      (at_ devF) specFurrowLaneMap).isSome ∧
    (immediate (.furrowSyncCodes (pk 0x0302 (fs [(2, [4096, 0, 0, 0, 0, 0]), (2, [4096, 65520, 8192, 65520, 16384, 65520, 32768, 65520]), (2, [4656, 0])])))
      (at_ devF) specFurrowSyncCodes).isSome ∧
    (immediate (.furrowTrain (pk 0x0303 (fs [(2, [4096]), (1, [0, 0])]))) (at_ devF) specFurrowTrain).isSome ∧
    (immediate (.furrowGang (pk 0x0304 (fs [(2, [4096]), (1, [1, 0])]))) (at_ devP) specFurrowGang).isSome ∧
    (immediate (.furrowStatus (pk 0x0305 (fs [(2, [4096, 0])]))) (at_ devF) specFurrowStatus).isSome ∧
    metBy (.furrowStart (pk 0x030B (fs [(2, [4096, 0])]))) (at_ devL) specFurrowStart
      (fun c d => (d.furrow (objIndex (u16 c.b 0))).config.isSome) ∧
    (immediate (.furrowStop (pk 0x030C (fs [(2, [4096]), (1, [1, 0])]))) (at_ devF) specFurrowStop).isSome := by
  decide +kernel

theorem witness_SensorCommands :
    (immediate (.sensorProfileLoad (pk 0x0306 (fs [(2, [4096]), (1, [0, 16]), (2, [400]), (1, [1, 0, 0, 0, 1, 0]), (4, [0]), (1, [0, 1, 0, 0]), (2, [0, 0])])))
      (at_ devF) specSensorProfileLoad).isSome ∧
    (immediate (.sensorMclkSet (pk 0x0309 (fs [(2, [4096]), (1, [1, 5]), (4, [24000000])]))) (at_ devF) specSensorMclkSet).isSome ∧
    metBy (.sensorRegRead (pk 0x0308 (fs [(2, [4096]), (1, [0, 2]), (2, [16, 0])]))) (at_ devF) specSensorRegRead
      (fun c d => (d.furrow (objIndex (u16 c.b 0))).profile.isSome) ∧
    takenBy (.sensorRegWrite (pk 0x0307 (fs [(2, [4096]), (1, [0, 1]), (2, [16]), (1, [2, 0, 1, 2, 0, 0])])))
      (at_ devF) (fun q d => q.pkt.txn == 0 && (refusal d (contextOf d q) q specSensorRegWrite).isNone
      && decide (txnCount d < 32) && (tryCommit true (oneCommand q d) d).2.any (·.good)) ∧
    (atOnce (.syncPinSet (pk 0x030A (fs [(2, [4096]), (1, [1, 1, 0, 0, 0, 0]), (4, [0, 0, 0])]))) (at_ devF) specSyncPinSet).isSome := by
  decide +kernel

theorem witness_RawStageCommands :
    (atOnce (.rawBlackSet (pk 0x0400 (fs [(2, [8192]), (1, [0, 0]), (4, [0, 0, 0, 0, 0]), (4, [0x43800000, 0x43800000, 0x43800000, 0x43800000, 0x43800000])])))
      (at_ devF) specRawBlackSet).isSome ∧
    (atOnce (.rawWbSet (pk 0x0408 (fs [(2, [8192]), (2, [0]), (4, [0x3F800000, 0x3F800000, 0x3F800000, 0x3F800000, 0x3F800000])]))) (at_ devF) specRawWbSet).isSome ∧
    (atOnce (.rawNoiseModelSet (pk 0x0403 (fs [(2, [8192]), (1, [1, 3, 0, 0, 0, 0]), (4, [0, 0, 0, 0, 0, 0, 0, 0, 0, 0])]))) (at_ devF) specRawNoiseModelSet).isSome ∧
    (immediate (.rawNoiseModelSet (pk 0x0403 (fs [(2, [8192]), (1, [0, 3, 0, 0, 0, 0]), (4, [0x3F800000, 0x3F800000, 0x3F800000, 0x3F800000, 0x3F800000, 0x3F800000, 0x3F800000, 0x3F800000, 0x3F800000, 0x3F800000])])))
      (at_ devF) specRawNoiseModelSet).isSome ∧
    (atOnce (.rawDefectLoad (pk 0x0401 (fs [(2, [8192]), (1, [1, 1]), (4, [0, 0, 0]), (2, [16, 0])]))) (at_ devF) specRawDefectLoad).isSome ∧
    (immediate (.rawDefectLoad (pk 0x0401 (fs [(2, [8192]), (1, [0, 1]), (4, [0, 0, 0]), (2, [0, 0])]))) (at_ devF) specRawDefectLoad).isSome ∧
    (atOnce (.rawFpnLoad (pk 0x0402 (fs [(2, [8192]), (1, [1, 1]), (4, [0, 0]), (1, [0, 0, 0, 0])]))) (at_ devF) specRawFpnLoad).isSome ∧
    (immediate (.rawFpnLoad (pk 0x0402 (fs [(2, [8192]), (1, [0, 1]), (4, [0, 0]), (1, [0, 0, 0, 0])]))) (at_ devF) specRawFpnLoad).isSome ∧
    (atOnce (.rawSnrSet (pk 0x0404 (fs [(2, [8192]), (1, [1, 2]), (2, [128]), (1, [5, 0]), (1, [0, 1, 2, 3, 4, 5, 6, 7, 8, 9, 10, 11, 12, 13, 14, 15])])))
      (at_ devF) specRawSnrSet).isSome ∧
    (atOnce (.rawTnrSet (pk 0x0405 (fs [(2, [8192]), (1, [0, 0]), (2, [16, 100, 200, 64]), (4, [0])]))) (at_ devF) specRawTnrSet).isSome ∧
    (atOnce (.rawDualGainSet (pk 0x0406 (fs [(2, [8192]), (1, [0, 0]), (4, [0x40800000, 0x3F000000, 0x3F400000])]))) (at_ devF) specRawDualGainSet).isSome ∧
    (atOnce (.rawShadingLoad (pk 0x0407 (fs [(2, [8192]), (1, [1, 0, 1, 0]), (2, [128]), (4, [0, 0]), (2, [0, 0]), (4, [0])]))) (at_ devF) specRawShadingLoad).isSome ∧
    (immediate (.rawShadingLoad (pk 0x0407 (fs [(2, [8192]), (1, [0, 1, 0, 0]), (2, [0]), (4, [0, 0]), (2, [0, 0]), (4, [0])]))) (at_ devF) specRawShadingLoad).isSome ∧
    (immediate (.rawQuery (pk 0x0409 (fs [(2, [8192]), (2, [0])]))) (at_ devF) specRawQuery).isSome := by
  decide +kernel

theorem witness_ColourCommands :
    (atOnce (.demosaicSet (pk 0x0500 (fs [(2, [8192]), (1, [1, 1])]))) (at_ devF) specDemosaicSet).isSome ∧
    (atOnce (.colourSpaceSet (pk 0x0501 (fs [(2, [8192]), (1, [2, 0, 0, 0, 0, 0]), (4, [0])]))) (at_ devF) specColourSpaceSet).isSome ∧
    (atOnce (.colourSpaceSet (pk 0x0501 (fs [(2, [8208]), (1, [2, 1, 1, 1, 1, 1]), (4, [0x3F800000])]))) (at_ devF) specColourSpaceSet).isSome ∧
    (atOnce (.matrixSet (pk 0x0502 (fs [(2, [8192]), (1, [0, 0]), (4, [0x3F800000, 0x3F800000, 0x3F800000, 0x3F800000, 0x3F800000, 0x3F800000, 0x3F800000, 0x3F800000, 0x3F800000, 0x3F800000, 0x3F800000, 0x3F800000]), (4, [0, 0, 0])])))
      (at_ devF) specMatrixSet).isSome ∧
    (atOnce (.matrixSet (pk 0x0502 (fs [(2, [12288]), (1, [1, 0]), (4, [0x3F800000, 0, 0, 0, 0, 0x3F800000, 0, 0, 0, 0, 0x3F800000, 0]), (4, [0, 0, 0])])))
      (at_ devF) specMatrixSet).isSome ∧
    (atOnce (.cdlSet (pk 0x0503 (fs [(2, [12288]), (1, [3, 1]), (4, [0x3F800000, 0x3F800000, 0x3F800000]), (4, [0, 0, 0]), (4, [0x3F800000, 0x3F800000, 0x3F800000]), (4, [0x3F800000])])))
      (at_ devB) specCdlSet).isSome ∧
    (atOnce (.transferSet (pk 0x0506 (fs [(2, [12288]), (1, [1, 0]), (4, [0x3F800000])]))) (at_ devB) specTransferSet).isSome ∧
    (atOnce (.lut1dLoad (pk 0x0504 (fs [(2, [12288]), (1, [1, 255, 0, 0, 0, 0]), (4, [0, 0, 0, 0])]))) (at_ devB) specLut1dLoad).isSome ∧
    (atOnce (.lut3dLoad (pk 0x0505 (fs [(2, [12288]), (1, [1, 255]), (4, [0, 0, 0])]))) (at_ devB) specLut3dLoad).isSome ∧
    (atOnce (.branchConfig (pk 0x0507 (fs [(2, [12288]), (1, [1, 65]), (2, [512, 256, 0, 0, 0, 0]), (1, [1, 0, 0, 8]), (4, [0x01000001]), (4, [0, 0])])))
      (at_ devF) specBranchConfig).isSome ∧
    (atOnce (.branchScalerSet (pk 0x0508 (fs [(2, [12288]), (1, [1, 0]), (4, [0])]))) (at_ devB) specBranchScalerSet).isSome ∧
    (atOnce (.branchEnable (pk 0x0509 (fs [(2, [12288]), (1, [1, 0])]))) (at_ devB) specBranchEnable).isSome ∧
    (immediate (.branchQuery (pk 0x050A (fs [(2, [12288]), (2, [0])]))) (at_ devB) specBranchQuery).isSome := by
  decide +kernel

theorem witness_StatisticsAndMotionCommands :
    (atOnce (.statsConfig (pk 0x0600 (fs [(2, [8192]), (1, [3, 1, 0, 0, 16, 0]), (4, [0x01000001, 0])]))) (at_ devF) specStatsConfig).isSome ∧
    (atOnce (.statsZonesSet (pk 0x0601 (fs [(2, [8192]), (2, [0, 0, 0, 64, 48])]))) (at_ devF) specStatsZonesSet).isSome ∧
    (atOnce (.tapConfig (pk 0x0602 (fs [(2, [8192]), (1, [0, 0, 1, 8]), (2, [0, 0, 0, 0, 0]), (4, [0x01000001, 0])]))) (at_ devF) specTapConfig).isSome ∧
    (atOnce (.tapEnable (pk 0x0603 (fs [(2, [8192]), (1, [0, 1])]))) (at_ devB) specTapEnable).isSome ∧
    (immediate (.statsQuery (pk 0x0604 (fs [(2, [8192]), (2, [0])]))) (at_ devF) specStatsQuery).isSome ∧
    (atOnce (.motionConfig (pk 0x0700 (fs [(2, [8192]), (1, [1, 0]), (2, [256, 512, 256, 0, 0, 0])]))) (at_ devF) specMotionConfig).isSome ∧
    (atOnce (.motionSearchSet (pk 0x0701 (fs [(2, [8192]), (1, [8, 1]), (2, [64, 100]), (1, [3, 0, 0, 0])]))) (at_ devF) specMotionSearchSet).isSome ∧
    (atOnce (.motionExport (pk 0x0702 (fs [(2, [8192]), (1, [1, 4]), (4, [0x01000001])]))) (at_ devF) specMotionExport).isSome ∧
    (immediate (.motionQuery (pk 0x0703 (fs [(2, [8192]), (2, [0])]))) (at_ devF) specMotionQuery).isSome := by
  decide +kernel

theorem witness_EncoderCommands :
    metBy (.encOpen (pk 0x0800 (fs [(1, [1, 0, 0, 0])]))) (at_ dev0) specEncOpen
      (fun c d => ((if u8 c.b 0 = 0 then List.range 64 else (List.range 32).map (64 + ·)).find? (encoderFree d)).isSome) ∧
    (immediate (.encClose (pk 0x0801 (fs [(2, [20480]), (1, [1, 0])]))) (at_ devE) specEncClose).isSome ∧
    (atOnce (.encXsConfig (pk 0x0807 (fs [(2, [20480]), (1, [0, 0]), (2, [8192]), (1, [5, 0, 3, 1]), (2, [16]), (4, [65536]), (1, [10, 50, 0, 1, 5, 0, 0, 0]), (4, [0x01000001, 0])])))
      (at_ devE) specEncXsConfig).isSome ∧
    (atOnce (.encConfig (pk 0x0802 (fs [(2, [20544]), (1, [1, 2]), (2, [12288]), (1, [0, 0, 0, 0, 1, 1]), (2, [60, 256]), (1, [4, 0, 0, 10]), (4, [0x01000001]), (2, [0, 0, 0, 0])])))
      (at_ devE) specEncConfig).isSome ∧
    (atOnce (.encRcSet (pk 0x0803 (fs [(2, [20544]), (1, [0, 0]), (4, [10000, 10000, 10000]), (1, [50, 50, 10, 50, 0, 51, 51, 64, 0, 0, 0, 0])])))
      (at_ devE) specEncRcSet).isSome ∧
    (atOnce (.encForceIrap (pk 0x0804 (fs [(2, [20544, 0])]))) (at_ devE) specEncForceIrap).isSome ∧
    (atOnce (.encBind (pk 0x0805 (fs [(2, [20544, 45057]), (1, [0, 0, 0, 0])]))) (at_ devE) specEncBind).isSome ∧
    (immediate (.encQuery (pk 0x0806 (fs [(2, [20544, 0])]))) (at_ devE) specEncQuery).isSome := by
  decide +kernel

theorem witness_DecoderCommands :
    metBy (.decOpen (pk 0x0900 (fs [(1, [1, 1, 2, 16]), (2, [512, 256]), (1, [5, 4, 0, 0]), (4, [10000, 16000000, 0, 1024, 0x01000001, 0])]))) (at_ devP) specDecOpen
      (fun _ d => (newDecoder d).isSome) ∧
    (immediate (.decClose (pk 0x0901 (fs [(2, [24576]), (1, [1, 0])]))) (at_ devE) specDecClose).isSome ∧
    (immediate (.decSubmit (pk 0x0902 (fs [(2, [24576, 0]), (4, [0x01000001, 0, 8]), (8, [0]), (4, [0])]))) (at_ devE) specDecSubmit).isSome ∧
    (immediate (.decFlush (pk 0x0903 (fs [(2, [24576]), (1, [0, 0])]))) (at_ devE) specDecFlush).isSome ∧
    (atOnce (.decBind (pk 0x0904 (fs [(2, [24576, 8208]), (1, [1, 0, 0, 0]), (8, [0]), (4, [0])])))
      (at_ (devE.onSettings 16 fun x => { x with colour := { x.colour with inChroma := 2 } })) specDecBind).isSome ∧
    (immediate (.decQuery (pk 0x0905 (fs [(2, [24576, 0])]))) (at_ devE) specDecQuery).isSome := by
  decide +kernel

theorem witness_RasterCommands :
    (immediate (.rasterTimingSet (pk 0x0A00 (fs [(2, [16384]), (1, [5, 0]), (2, [1920, 1080, 2200, 1125, 88, 44, 4, 5]), (4, [60000, 1000]), (2, [0, 0]), (4, [0])])))
      (at_ devR) specRasterTimingSet).isSome ∧
    (immediate (.rasterCommitCutSet (pk 0x0A04 (fs [(2, [16384]), (2, [200])])))
      (at_ (devR.onRaster 0 fun r => { r with timing := { hActive := 1920, vActive := 1080, hTotal := 2200, vTotal := 1125 } })) specRasterCommitCutSet).isSome ∧
    (atOnce (.rasterPlaneSet (pk 0x0A01 (fs [(2, [16384]), (1, [0, 2, 1, 0]), (2, [256, 0]), (1, [1, 0]), (4, [0x01000001, 256]), (2, [16, 8, 0, 0, 0, 0, 0, 0]), (4, [0])])))
      (at_ devR) specRasterPlaneSet).isSome ∧
    (immediate (.rasterOutputSet (pk 0x0A02 (fs [(2, [16384]), (1, [0, 1, 0, 0]), (2, [0]), (1, [1, 0, 1, 10, 0, 0, 0, 0]), (2, [0, 0, 0, 0])])))
      (at_ devP) specRasterOutputSet).isSome ∧
    (immediate (.rasterGroupSet (pk 0x0A03 (fs [(1, [0, 1]), (2, [3])]))) (at_ devP) specRasterGroupSet).isSome ∧
    (immediate (.rasterCrcSet (pk 0x0A05 (fs [(2, [16384]), (1, [1, 0])]))) (at_ devR) specRasterCrcSet).isSome ∧
    (atOnce (.rasterRefreshSet (pk 0x0A06 (fs [(2, [16384]), (1, [1, 4])]))) (at_ devP) specRasterRefreshSet).isSome ∧
    (atOnce (.rasterUnderrunSet (pk 0x0A07 (fs [(2, [16384]), (1, [1, 0])]))) (at_ devR) specRasterUnderrunSet).isSome ∧
    (immediate (.sdiRxConfig (pk 0x0A08 (fs [(1, [0, 1, 4, 5]), (4, [0x01000001]), (2, [2, 0])]))) (at_ devP) specSdiRxConfig).isSome ∧
    (immediate (.rasterQuery (pk 0x0A09 (fs [(2, [16384]), (2, [0])]))) (at_ devR) specRasterQuery).isSome ∧
    (immediate (.rasterStart (pk 0x0A0A (fs [(2, [16384]), (2, [0])]))) (at_ devR) specRasterStart).isSome ∧
    (immediate (.rasterStop (pk 0x0A0B (fs [(2, [16384]), (1, [1, 0])]))) (at_ (devR.onRaster 0 fun r => { r with running := true })) specRasterStop).isSome := by
  decide +kernel

theorem witness_TimeCommands :
    (immediate (.tdConfig (pk 0x0B00 (fs [(2, [57349]), (1, [0, 0]), (4, [60000, 1000]), (2, [10, 0]), (4, [1000000]), (8, [0]), (4, [0, 0])])))
      (at_ dev0) specTdConfig).isSome ∧
    (immediate (.tdQuery (pk 0x0B01 (fs [(2, [57349, 0])]))) (at_ dev0) specTdQuery).isSome ∧
    (immediate (.ptpConfig (pk 0x0B02 (fs [(2, [57344]), (1, [0, 0, 0, 1, 0, 3]), (4, [100, 0])]))) (at_ dev0) specPtpConfig).isSome ∧
    (immediate (.genlockConfig (pk 0x0B03 (fs [(1, [0, 0, 1, 0]), (4, [1125, 60000, 1000, 0, 0])]))) (at_ dev0) specGenlockConfig).isSome ∧
    (atOnce (.ltcConfig (pk 0x0B04 (fs [(1, [1, 0, 0, 5]), (4, [0, 0, 0])]))) (at_ dev0) specLtcConfig).isSome ∧
    (atOnce (.tdRateCommit (pk 0x0B06 (fs [(2, [57348]), (1, [1, 0])])))
      (at_ (dev0.onTime fun t => { t with domains := tabMod t.domains 4 fun x => { x with state := .ratePending }, genlock := { t.genlock with inputH := { t.genlock.inputH with measured := 1333333, changed := true } } })) specTdRateCommit).isSome ∧
    (immediate (.timeAnchorConfig (pk 0x0B07 (fs [(2, [57349]), (1, [1, 1]), (4, [100])]))) (at_ dev0) specTimeAnchorConfig).isSome ∧
    metBy (.launchSchedule (pk 0x0B05 (fs [(2, [57349]), (1, [0, 0]), (2, [0]), (1, [0, 0]), (8, [0]), (4, [200000, 0, 9])])))
      (at_ (dev0.onDomain 5 fun x => { x with state := .free })) specLaunchSchedule
      (fun c d => u8 c.b 2 ≠ 0xF && (freeLaunchId d).isSome) ∧
    metBy (.launchSchedule (pk 0x0B05 (fs [(2, [57349]), (1, [15, 0]), (2, [3]), (1, [0, 0]), (8, [0]), (4, [0, 0, 0])])))
      (at_ (dev0.onTime fun t => { t with launches := [{ id := 3, domain := 5, time := 500000 }] })) specLaunchSchedule
      (fun c d => u8 c.b 2 = 0xF && (d.time.launches.find? fun l => l.id = u16 c.b 4).isSome) := by
  decide +kernel

theorem witness_NetworkCommands :
    (immediate (.macConfig (pk 0x0C00 (fs [(1, [0, 3, 2, 0]), (2, [9000, 0]), (4, [0]), (1, [24, 64, 0, 0]), (8, [0, 0]), (4, [0])]))) (at_ dev0) specMacConfig).isSome ∧
    metBy (.flowSendCreate (pk 0x0C01 (fs [(1, [3, 0, 0, 255, 5, 0, 0, 96]), (4, [1]), (2, [5004, 1200]), (8, [0, 0, 0, 0, 0, 0]), (4, [100]), (2, [0, 0]), (1, [2, 0, 0, 0]), (2, [0, 0]), (4, [16000000, 0])])))
      (at_ devP) specFlowSendCreate
      (fun _ d => (newFlow d 0).isSome) ∧
    metBy (.flowRecvCreate (pk 0x0C02 (fs [(1, [3, 0, 0, 255, 5, 4, 0, 96]), (4, [1]), (2, [5004, 1200]), (8, [0, 0, 0, 0, 0, 0]), (4, [100]), (2, [0, 0]), (1, [2, 0, 0, 0]), (2, [0, 0]), (4, [16000000, 0x01000001])])))
      (at_ devP) specFlowRecvCreate
      (fun _ d => (newFlow d 64).isSome) ∧
    (immediate (.flowDelete (pk 0x0C03 (fs [(2, [32768, 0])]))) (at_ devN) specFlowDelete).isSome ∧
    (atOnce (.flowBind (pk 0x0C04 (fs [(2, [32768]), (1, [1, 0]), (2, [0, 0]), (4, [0])]))) (at_ devN) specFlowBind).isSome ∧
    (atOnce (.flowStart (pk 0x0C05 (fs [(2, [32768, 0])]))) (at_ devN) specFlowStart).isSome ∧
    (atOnce (.flowStop (pk 0x0C06 (fs [(2, [32832]), (1, [0, 0])]))) (at_ devN) specFlowStop).isSome ∧
    (immediate (.flowQuery (pk 0x0C07 (fs [(2, [32768, 0])]))) (at_ devN) specFlowQuery).isSome ∧
    (immediate (.udpControlSet (pk 0x0C08 (fs [(1, [1, 0]), (2, [48000]), (8, [0, 0]), (1, [0, 0, 0, 0])]))) (at_ dev0) specUdpControlSet).isSome := by
  decide +kernel

theorem witness_AudioCommands :
    (immediate (.sapConfig (pk 0x0D00 (fs [(2, [28672]), (1, [1, 0, 1, 0, 2, 32, 24, 8, 1, 5, 0, 0]), (2, [0]), (4, [0, 0])]))) (at_ dev0) specSapConfig).isSome ∧
    (atOnce (.sapSlotMap (pk 0x0D01 (fs [(2, [28672]), (1, [1, 0, 3, 5])]))) (at_ dev0) specSapSlotMap).isSome ∧
    (immediate (.sapGroupSet (pk 0x0D02 (fs [(1, [0, 0]), (2, [3])]))) (at_ dev0) specSapGroupSet).isSome ∧
    (immediate (.sapClockSet (pk 0x0D03 (fs [(1, [0, 1, 5, 1]), (2, [256, 0])]))) (at_ dev0) specSapClockSet).isSome ∧
    (immediate (.asrcConfig (pk 0x0D04 (fs [(2, [28672]), (1, [1, 0, 1, 0, 0, 0])]))) (at_ dev0) specAsrcConfig).isSome ∧
    (atOnce (.audioEmbedSet (pk 0x0D05 (fs [(1, [0, 0, 0, 0]), (2, [28672]), (1, [0, 2, 0, 0, 0, 0]), (4, [0])]))) (at_ dev0) specAudioEmbedSet).isSome ∧
    (immediate (.sapRestart (pk 0x0D06 (fs [(2, [28672]), (2, [0])]))) (at_ dev0) specSapRestart).isSome ∧
    (immediate (.sapQuery (pk 0x0D07 (fs [(2, [28672]), (2, [0])]))) (at_ dev0) specSapQuery).isSome := by
  decide +kernel

theorem witness_PailCommands :
    metBy (.pailAlloc (pk 0x0E00 (fs [(8, [65536]), (2, [0, 0]), (4, [0])]))) (at_ dev0) specPailAlloc
      (fun c d => (newPailIndex d).isSome && (allocPages d (roundUp (u64 c.b 0) 0x10000) false).isSome) ∧
    metBy (.pailImportHost (pk 0x0E01 (fs [(8, [65536, 0]), (2, [1, 0]), (4, [0])]))) (at_ dev0) specPailImportHost
      (fun _ d => (newPailIndex d).isSome) ∧
    (immediate (.pailFree (pk 0x0E02 (fs [(4, [0x01000001])]))) (at_ devP) specPailFree).isSome ∧
    (immediate (.pailQuery (pk 0x0E03 (fs [(4, [0x01000001])]))) (at_ devP) specPailQuery).isSome ∧
    (immediate (.pailMap (pk 0x0E04 (fs [(4, [0x01000001]), (8, [4096])]))) (at_ devP) specPailMap).isSome := by
  decide +kernel

theorem witness_DmaCommands :
    (atOnce (.dmaChannelConfig (pk 0x0F00 (fs [(2, [40960]), (1, [2, 4]), (4, [100]), (1, [1, 0, 0, 0]), (4, [0x01000001, 0, 0, 0, 5, 3, 0, 0])])))
      (at_ devP) specDmaChannelConfig).isSome ∧
    (immediate (.dmaSheafSubmit (pk 0x0F01 (fs [(2, [40960]), (2, [1]), (4, [0x01000001]), (8, [64]), (4, [0, 77])])))
      (at_ (devP.onHbm fun h => { h with mem := memWrite [] 0x40000040 (fs [(4, [2]), (8, [0, 0, 0, 0, 0, 0, 0]), (4, [0xFFFFFFFF])]) })) specDmaSheafSubmit).isSome ∧
    (immediate (.dmaPause (pk 0x0F02 (fs [(2, [40960]), (2, [0])]))) (at_ devP) specDmaPause).isSome ∧
    (immediate (.dmaResume (pk 0x0F03 (fs [(2, [40960]), (1, [0, 0])])))
      (at_ (devP.onChannel 0 fun h => { h with state := .paused, sheaves := [{ number := 1, descriptors := [{}] }] })) specDmaResume).isSome ∧
    (immediate (.dmaAbort (pk 0x0F04 (fs [(2, [40960]), (1, [0, 0])]))) (at_ devP) specDmaAbort).isSome ∧
    (immediate (.dmaQuery (pk 0x0F05 (fs [(2, [40960]), (2, [0])]))) (at_ devP) specDmaQuery).isSome := by
  decide +kernel

theorem witness_MagazineCommands :
    (immediate (.magQuery (pk 0x1000 [])) (at_ devM) specMagQuery).isSome ∧
    (immediate (.magFormat (pk 0x1001 (fs [(2, [37248, 0])]))) (at_ devM) specMagFormat).isSome ∧
    (immediate (.magEject (pk 0x1002 (fs [(4, [0])]))) (at_ devM) specMagEject).isSome ∧
    metBy (.reelCreate (pk 0x1003 (fs [(8, [1024]), (4, [16, 0]), (1, [65, 0, 0, 0, 0, 0, 0, 0, 0, 0, 0, 0, 0, 0, 0, 0, 0, 0, 0, 0, 0, 0, 0, 0, 0, 0, 0, 0, 0, 0, 0, 0])])))
      (at_ devM) specReelCreate
      (fun c d => d.mag.state == .mounted && d.mag.pack.formatted && d.mag.format.isNone && (freeNsid d).isSome && (allocAcres d.mag.pack (u64 c.b 0 / 64)).isSome) ∧
    (immediate (.reelDelete (pk 0x1004 (fs [(2, [45057, 0])]))) (at_ devM) specReelDelete).isSome ∧
    (atOnce (.reelRecordStop (pk 0x1006 (fs [(2, [45057]), (1, [0, 0])])))
      (at_ (devM.onMag fun m => { m with recordings := [{ reel := 1, clip := 1 }] })) specReelRecordStop).isSome ∧
    (immediate (.clipQuery (pk 0x1007 (fs [(2, [45057, 0]), (4, [1])]))) (at_ (devM.onReel 1 fun r => { r with clips := [{}] })) specClipQuery).isSome ∧
    (immediate (.reelExpose (pk 0x1008 (fs [(2, [45057]), (1, [1, 0])]))) (at_ devM) specReelExpose).isSome := by
  decide +kernel

set_option maxRecDepth 100000 in
/-- REEL_RECORD_START checks the CRC of the superblock's 4 KiB. -/
theorem witness_MagazineCommands_recordStart :
    (atOnce recordStart (at_ devM) specReelRecordStart).isSome := by
  decide +kernel

theorem witness_FaultAndRankCommands :
    (immediate (.faultQuery (pk 0x1100 [])) (at_ dev0) specFaultQuery).isSome ∧
    (immediate (.failoverForce (pk 0x1101 (fs [(2, [37248, 0])]))) (at_ (dev0.onFaults fun f => { f with standby := .ready })) specFailoverForce).isSome ∧
    (immediate (.yokeStatus (pk 0x1102 [])) (at_ dev0) specYokeStatus).isSome ∧
    (immediate (.drillQuery (pk 0x1105 [])) (at_ dev0) specDrillQuery).isSome ∧
    (immediate (.faultLogRead (pk 0x1106 (fs [(4, [0]), (2, [63, 0])]))) (at_ dev0) specFaultLogRead).isSome ∧
    (immediate (.rankQuery (pk 0x1103 (fs [(4, [0])]))) (at_ dev0) specRankQuery).isSome ∧
    (immediate (.rankRetire (pk 0x1104 (fs [(2, [49152]), (1, [0, 0]), (2, [0, 0])]))) (at_ dev0) specRankRetire).isSome ∧
    (immediate (.rankRetire (pk 0x1104 (fs [(2, [49343]), (1, [1, 0]), (2, [65535, 0])]))) (at_ dev0) specRankRetire).isSome := by
  decide +kernel

theorem witness_LongRunCommands :
    (immediate (.eventRingSet ({ pk 0x1200 (fs [(1, [2, 0]), (2, [1000]), (4, [3])]) with endpoint := .ring 0 })) (at_ devRing) specEventRingSet).isSome ∧
    metBy (.eventFilterSet (pk 0x1201 (fs [(1, [4, 1]), (2, [0]), (4, [3])]))) (at_ dev0) specEventFilterSet
      (fun c d => (mapGet d.ctl.sessions c.session).isSome) ∧
    metBy (.eventRead (pk 0x1202 (fs [(2, [127, 0])]))) (at_ dev0) specEventRead
      (fun c d => (mapGet d.ctl.sessions c.session).isSome) ∧
    (immediate (.telemetryRead (pk 0x1203 (fs [(4, [0xFFFFFFFF]), (1, [63, 0, 0, 0])]))) (at_ dev0) specTelemetryRead).isSome ∧
    (immediate (.gleanQuery (pk 0x1206 [])) (at_ dev0) specGleanQuery).isSome ∧
    (immediate (.counterRead (pk 0x1204 (fs [(2, [16384]), (1, [8, 1])]))) (at_ dev0) specCounterRead).isSome ∧
    (immediate (.counterReadClear (pk 0x1205 (fs [(2, [16384]), (1, [0, 9])]))) (at_ dev0) specCounterReadClear).isSome := by
  decide +kernel

theorem witness_FirmwareCommands :
    (immediate (.fwInfo (pk 0x1300 [])) (at_ dev0) specFwInfo).isSome ∧
    (immediate (.fwUpdateBegin (pk 0x1301 (fs [(4, [25165824, 0])]))) (at_ dev0) specFwUpdateBegin).isSome ∧
    metBy (.fwUpdateData (pk 0x1302 (fs [(4, [8184]), (2, [8, 0]), (1, [0, 1, 2, 3, 4, 5, 6, 7])])))
      (at_ (dev0.onBoot fun b => { b with update := some { slot := 1, length := 8192 } })) specFwUpdateData
      (fun _ d => d.boot.update.isSome) ∧
    (immediate (.fwUpdateEnd (pk 0x1303 (fs [(4, [0])]))) (at_ (dev0.onBoot fun b => { b with update := some { slot := 1, length := 8192 } })) specFwUpdateEnd).isSome ∧
    (immediate (.fwActivate (pk 0x1304 (fs [(2, [37248, 0])]))) (at_ (dev0.onSlot 1 fun s => { s with ended := true })) specFwActivate).isSome ∧
    (immediate (.deviceReset (pk 0x1305 (fs [(2, [37248]), (1, [1, 0])]))) (at_ dev0) specDeviceReset).isSome ∧
    (immediate (.rollbackCommit (pk 0x1306 (fs [(1, [1, 0, 0, 0])]))) (at_ dev0) specRollbackCommit).isSome := by
  decide +kernel

/-! ## Tables of zeros

A table that a load reads from memory that nothing has written is all zeros; its entries are checked by reasoning, not one by one. -/

theorem memRead_zero (a n : Nat) : ∀ b ∈ memRead [] a n, b = 0 := by
  intro b hb
  simp [memRead, memGet] at hb
  exact hb.2

theorem pailRead_zero (d : Dev) (h off n : Nat) (hm : d.hbm.mem = []) (hh : d.pails.hostMem = []) : ∀ b ∈ pailRead d h off n, b = 0 := by
  intro b hb
  unfold pailRead at hb
  split at hb
  · exact (List.mem_replicate.1 hb).2
  · obtain ⟨e, -, he⟩ := List.mem_flatMap.1 hb
    rw [hm, hh, ite_self] at he
    exact memRead_zero _ _ b he

theorem unle_zero : ∀ l : List Byte, (∀ b ∈ l, b = 0) → unle l = 0
  | [], _ => rfl
  | b :: l, h => by
    have hb : b = 0 := h b (by simp)
    have hl : unle l = 0 := unle_zero l fun x hx => h x (by simp [hx])
    simp [unle, hb, hl]

theorem fieldAt_zero (l : List Byte) (o n : Nat) (h : ∀ b ∈ l, b = 0) : fieldAt l o n = 0 :=
  unle_zero _ fun b hb => h b (List.mem_of_mem_drop (List.mem_of_mem_take hb))

theorem firstEntry_none (l : List (Nat × Bool)) (h : ∀ e ∈ l, e.2 = true) : firstEntry l = none := by
  unfold firstEntry
  rw [List.find?_eq_none.2 (by intro e he; simp [h e he])]
  rfl

theorem immediate_of (c : Instr) (s : State) (sp : CmdSpec) (ht : (taken c s).isSome = true)
    (h : (match taken c s with
      | some (q, d) => (refusal d (contextOf d q) q sp).isNone && !sp.stageable (packetBody q.pkt) && !isDryRun q && !sp.raises && !importing d sp (contextOf d q).b
      | none => false) = true)
    (ha : ∀ q d, taken c s = some (q, d) → sp.against d (contextOf d q) = none) : (immediate c s sp).isSome = true := by
  unfold immediate
  rcases e : taken c s with _ | ⟨q, d⟩
  · simp [e] at ht
  · rw [e] at h
    simp only [Bool.and_eq_true, Bool.not_eq_true', Option.isNone_iff_eq_none] at h
    simp [h, stateRefusal, ha q d e]

theorem check_none (r : Option Rsp) (o : Option Nat) (f : Nat → Rsp) (hr : r = none) (ho : o = none) : (r.orElse fun _ => o.map f) = none := by
  subst hr ho
  rfl

theorem ite_none (p q : Prop) [Decidable p] [Decidable q] (x y : Option Rsp) (hp : ¬p) (hq : ¬q) (hy : y = none) :
    (if p then none else if q then x else y) = none := by
  simp [hp, hq, hy]

/-- A load of 3D LUT slot 2, and of 1D LUT slot 2, of stream 0 from pail 1. -/
def load3 : Instr := .lut3dLoad (pk 0x0505 (fs [(2, [0x2000]), (1, [0, 2]), (4, [0x01000001, 0, 0])]))
def load1 : Instr := .lut1dLoad (pk 0x0504 (fs [(2, [0x2000]), (1, [0, 2, 0, 1, 0, 0]), (4, [0x01000001, 0, 0, 0x3F800000])]))

/-- What the loads meet besides the table's entries: memory that nothing has written, a slot that no frame uses, a table that fits. -/
def loadMeets (c : Instr) (op size entry unit field off : Nat) (named : Ctx → Dev → Bool) : Bool := match taken c (at_ devB) with
  | none => false
  | some (q, d) =>
    let x := contextOf d q
    d.hbm.mem.isEmpty && d.pails.hostMem.isEmpty && decide (u8 x.b 2 = 0) && !named x d && decide (x.op = op)
      && (tableFits d (u32 x.b off) (u32 x.b (off + 4)) size entry unit field).isNone

theorem witness_lut3dLoad : (immediate load3 (at_ devB) specLut3dLoad).isSome = true := by
  refine immediate_of _ _ _ (by decide +kernel) (by decide +kernel) fun q d h => ?_
  have m : loadMeets load3 0x0505 lut3Bytes 6 1 4 4 (fun x d => slotNamed d x.stream (u8 x.b 3) (fun y => y.branches.flatMap fun b => b.lut3.toList)
      (stagedLut 0x0505 x.stream)) = true := by decide +kernel
  unfold loadMeets at m
  rw [h] at m
  simp only [Bool.and_eq_true, Bool.not_eq_true', decide_eq_true_eq, List.isEmpty_iff, Option.isNone_iff_eq_none] at m
  obtain ⟨⟨⟨⟨⟨h1, h2⟩, h3⟩, h4⟩, -⟩, h6⟩ := m
  refine ite_none _ _ _ _ (by omega) (by simp [h4]) (check_none _ _ _ h6 (firstEntry_none _ fun e he => ?_))
  obtain ⟨i, -, rfl⟩ := List.mem_map.1 he
  rw [u16, fieldAt_zero _ _ _ (pailRead_zero _ _ _ _ h1 h2)]
  show (f16 0).isSome = true
  decide +kernel

theorem witness_lut1dLoad : (immediate load1 (at_ devB) specLut1dLoad).isSome = true := by
  refine immediate_of _ _ _ (by decide +kernel) (by decide +kernel) fun q d h => ?_
  have m : loadMeets load1 0x0504 16384 4 1 8 8 (fun x d => slotNamed d x.stream (u8 x.b 3) (fun y => y.branches.flatMap fun b => b.pre.toList ++ b.post.toList)
      (stagedLut 0x0504 x.stream)) = true ∧ (match taken load1 (at_ devB) with
        | some (q, d) => decide (u8 (contextOf d q).b 5 = 1)
        | none => false) = true := by decide +kernel
  obtain ⟨m, m'⟩ := m
  unfold loadMeets at m
  rw [h] at m m'
  simp only [Bool.and_eq_true, Bool.not_eq_true', decide_eq_true_eq, List.isEmpty_iff, Option.isNone_iff_eq_none] at m m'
  obtain ⟨⟨⟨⟨⟨h1, h2⟩, h3⟩, h4⟩, -⟩, h6⟩ := m
  simp only [specLut1dLoad]
  rw [if_neg (by omega), h4, m', Nat.mul_one, h6]
  simp only [Bool.false_eq_true, if_false, Option.orElse_none, Option.map_eq_none_iff]
  refine firstEntry_none _ fun e he => ?_
  obtain ⟨i, -, rfl⟩ := List.mem_map.1 he
  simp only [finite32]
  rw [u32, fieldAt_zero _ _ _ (pailRead_zero _ _ _ _ h1 h2)]
  decide +kernel

/-! ## Premises of the statements about rows of the outside world -/

/-- A module whose boot ROM waits for an image. -/
def devRom : Dev := dev0.onBoot fun b => { b with ready := false, rom := { b.rom with state := 1 } }

theorem witness_SpiRows :
    (dev0.boot.ready = true ∧ (List.replicate 23 (0 : Byte)).length < 24) ∧ 24 ≤ (List.replicate 24 (0 : Byte)).length ∧
    (let d := dev0.onSpi fun x => { x with replies := [fs [(4, [7])]] }
     d.boot.ready = true ∧ d.spi.replies = fs [(4, [7])] :: [] ∧ (fs [(4, [7])]).length ≤ 4 ∧ ¬(fs [(4, [7])]).length ≤ 3) ∧
    (romRuns devRom = true ∧ fatal devRom = false ∧ (devRom.boot.rom.state = 1 ∨ devRom.boot.rom.state = 4) ∧ 0x17FFFFC % 4 = 0 ∧ 0x17FFFFC < 0x1800000
      ∧ within 4 4 4096 = true ∧ within 4096 4 4096 = true) := by
  decide +kernel

theorem witness_Bar0Rows :
    bar0Answers dev0 = true ∧ bar0Answers State.reset.dev = false ∧
    (let d := dev0.onRing 0 fun r => { r with size := 0x44 }
     d.bar0.rings.length = 16 ∧ bit 1 0 = true ∧ bit 2 0 = false ∧ bit (d.ring 0).ctrl.toNat 0 = false
      ∧ (within (bits (d.ring 0).size.toNat 3 0) 2 10 && (d.ring 0).sqBaseLo.toNat % 4096 == 0 && (d.ring 0).cqBaseLo.toNat % 4096 == 0) = true) ∧
    (within (bits (dev0.ring 15).size.toNat 3 0) 2 10 = false ∧ bit (dev0.ring 15).ctrl.toNat 0 = false ∧ (dev0.ring 15).runs = false) ∧
    (bar0Answers devRing = true ∧ bit (devRing.ring 0).ctrl.toNat 0 = true ∧ (devRing.ring 0).runs = true ∧ 15 < (devRing.ring 0).slots
      ∧ (devRing.ring 0).slots ≤ 16) := by
  decide +kernel

/-- A controller with I/O queue 1, a completion queue 2 with no submission queue, and reel 1 attached for reading and writing. -/
def devNvme : Dev := { devM with
  mag := { devM.mag with exposure := [(5, 2)], attached := [(1, 2)] }
  nvme := { ({} : Nvme) with cqs := [(1, 64), (2, 64)], sqs := [(1, { cq := 1, size := 64 })], aers := [9], flushes := [{ sqid := 1, cid := 4, nsid := 1 }] } }

/-- The module runs, and its controller takes admin commands. -/
def adminMet (d : Dev) : Prop := Awake (at_ d) 0 d ∧ d.boot.ready = true ∧ fatal d = false ∧ d.faults.paused = false

theorem witness_NvmeAdminRows : adminMet devNvme ∧
    (mapGet devNvme.nvme.sqs 64 = none ∧ mapGet devNvme.nvme.cqs 1 ≠ none ∧ mapGet devNvme.nvme.sqs 1 ≠ none ∧ mapGet devNvme.nvme.cqs 64 = none
      ∧ mapGet devNvme.nvme.cqs 2 ≠ none ∧ ∀ e ∈ devNvme.nvme.sqs, e.2.cq ≠ 2) ∧
    ((reelOf devNvme 1).isSome = true ∧ 9 ∈ devNvme.nvme.aers ∧ ¬((0 : Nat) = 0 ∧ 8 ∈ devNvme.nvme.aers) ∧ (∃ f ∈ devNvme.nvme.flushes, f.sqid = 1 ∧ f.cid = 4)
      ∧ 1 ∈ featureIds ∧ 7 ∈ featureIds) ∧
    (devNvme.nvme.aers.length < 4 ∧ devNvme.nvme.aerPending = [] ∧
      (let d := devNvme.onNvme fun n => { n with aerPending := [(1, 2, 3)] }
       d.nvme.aers.length < 4 ∧ d.nvme.aerPending = (1, 2, 3) :: [])) ∧
    (devNvme.mag.state = .mounted ∧ devNvme.mag.pack.formatted = true ∧ freeNsid devNvme = some 2 ∧ allocAcres devNvme.mag.pack (1024 / 64) = some [(16, 16)]) ∧
    (recordingOf devNvme 1 = none ∧ (reelOf devM 1).any (fun r => modeOf devM r = 0) = true ∧ (reelOf devNvme 1).any (fun r => modeOf devNvme r ≠ 0) = true) := by
  refine ⟨⟨⟨rfl, rfl⟩, ?_⟩, ?_⟩ <;> decide +kernel

theorem witness_NvmeIoRows : Awake (at_ devNvme) 0 devNvme ∧
    (mapGet devNvme.nvme.sqs 1 ≠ none ∧ (∀ e ∈ devNvme.nvme.blocked, e.1 ≠ 1) ∧ 1 ∉ devNvme.nvme.latched ∧ (reelOf devNvme 1).isSome = true) ∧
    (ioRefusal devNvme 1 1023 1 false = none ∧ (∀ e ∈ devNvme.nvme.unrecovered, ¬(e.1 = 1 ∧ 1023 ≤ e.2 ∧ e.2 < 1024))
      ∧ ioRefusal devNvme 1 768 256 true = none ∧ bufferRoom devNvme (.write 1 768 256 [] true) = true ∧ ioRefusal devNvme 1 0 0 false = none
      ∧ ioRefusal devNvme 1 (maxOf (fun e => e.1 + e.2) [(0, 64), (64, 960)]) 0 true = none) := by
  refine ⟨⟨rfl, rfl⟩, ?_⟩
  decide +kernel

theorem witness_NvmeRefusals : adminMet devNvme ∧
    ((0 < 1 ∨ 64 < 0) ∧ mapGet devNvme.nvme.sqs 1 ≠ none ∧ mapGet devNvme.nvme.sqs 64 = none ∧ mapGet devNvme.nvme.cqs 3 = none ∧ mapGet devNvme.nvme.cqs 1 ≠ none
      ∧ (∃ e ∈ devNvme.nvme.sqs, e.2.cq = 1) ∧ 0x7F ∉ featureIds ∧ 0xFF ∉ [0x00, 0x01, 0x02, 0x03, 0x10, 0x11, 0x12] ∧ reelOf devNvme 7 = none) ∧
    4 ≤ (devNvme.onNvme fun n => { n with aers := [1, 2, 3, 4] }).nvme.aers.length ∧
    (State.reset.dev.boot.ready = false ∧
      (let d := devNvme.onFaults fun f => { f with paused := true }
       d.boot.ready = true ∧ fatal d = false ∧ d.faults.paused = true)) ∧
    (mapGet devNvme.nvme.sqs 1 ≠ none ∧ (∀ e ∈ devNvme.nvme.blocked, e.1 ≠ 1) ∧ ioRefusal devNvme 1 1023 2 false = some (.generic 0x80)
      ∧ ioRefusal devNvme 7 0 1 true = some invalidNamespace ∧ bufferRoom devNvme (.write 7 0 1 [] false) = true) ∧
    (let d := devNvme.onNvme fun n => { n with staged := [{ blocks := 65536 }] }
     bufferRoom d (.write 1 0 1 [] false) = false ∧ ∀ e ∈ d.nvme.blocked, e.1 ≠ 1) := by
  refine ⟨⟨⟨rfl, rfl⟩, ?_⟩, ?_⟩ <;> decide +kernel

theorem witness_ResetRows :
    ¬(10000 : Nat) < 10000 ∧ 9999 < 10000 ∧ within (dev0.onFaults fun f => { f with fatalCause := 1 }).faults.fatalCause 1 3 = true
      ∧ within dev0.faults.fatalCause 1 3 = false := by
  decide +kernel

theorem witness_TimerRows :
    (let d := { dev0 with now := 2000000001 }
     let held := fun d : Dev => (match d.fabric.raise with
      | some r => r.session = 0
      | none => false) = true
     mapGet d.ctl.sessions 0 = some sess ∧ sess.deadline < d.now ∧ firmwareRuns d = true ∧ ¬held d) ∧
    (let d := { dev0 with now := 2000000000 }
     mapGet d.ctl.sessions 0 = some sess ∧ d.now ≤ sess.deadline) ∧
    (let d := dev0.onCtl fun c => { c with tombs := [(1, { closedAt := 5 })] }
     mapGet d.ctl.tombs 1 = some { closedAt := 5 } ∧ 5 + tombNs ≤ ({ d with now := 5 + tombNs } : Dev).now ∧ ({ d with now := 4 + tombNs } : Dev).now < 5 + tombNs) ∧
    (let x : Txn := { idleDeadline := 100 }
     let d := dev0.onCtl fun c => { c with txns := [(1, x)] }
     mapGet d.ctl.txns 1 = some x ∧ x.idleDeadline ≤ ({ d with now := 100 } : Dev).now ∧ d.faults.paused = false ∧ ({ d with now := 99 } : Dev).now < x.idleDeadline) := by
  decide +kernel

theorem witness_VcoreRows :
    firmwareRuns dev0 = true ∧ dev0.fabric.raise = none ∧
    (let x : PendingRaise := { step := 700, commanded := 700, started := 10 }
     let d := { (dev0.onFabric fun f => { f with raise := some x }) with now := 5000010 }
     firmwareRuns d = true ∧ d.fabric.raise = some x ∧ confirms x.commanded x.step 690 (List.replicate 12 (kOf 700)) = true ∧ x.started + 5000000 ≤ d.now) ∧
    (let d := { (dev0.onFabric fun f => { f with lapse := some (1, 2), goodSince := some 50 }) with now := 100000050 }
     d.fabric.lapse = some (1, 2) ∧ d.fabric.goodSince = some 50 ∧ 50 + 100000000 ≤ d.now) ∧
    (∀ t, dev0.boot.vregEvent = some t → t + 1000000000 ≤ dev0.now) ∧
    (let d := { (dev0.onBoot fun b => { b with vregEvent := some 3 }) with now := 1000000002 }
     d.boot.vregEvent = some 3 ∧ d.now < 3 + 1000000000) := by
  refine ⟨by decide +kernel, by decide +kernel, by decide +kernel, by decide +kernel, fun t h => ?_, by decide +kernel⟩
  exact absurd h (by simp [show dev0.boot.vregEvent = none from by decide +kernel])

theorem mem_slice_map (f : Nat → Byte) (o n : Nat) (b : Byte) (h : b ∈ slice ((List.range 4096).map f) o n) :
    ∃ a, o ≤ a ∧ a < o + n ∧ a < 4096 ∧ f a = b := by
  unfold slice at h
  obtain ⟨i, hi, rfl⟩ := List.mem_iff_getElem.1 h
  simp at hi
  exact ⟨o + i, by omega, by omega, by omega, by simp⟩

/-- The bytes that `devGo`'s host wrote first: magic number, version 1, a payload of one byte. -/
def imageHead : List Byte := fs [(4, [0x57464D5A]), (2, [1, 0]), (4, [0, 0, 1, 0])]
/-- A boot ROM that has received a header that passes the checks of its bytes. -/
def devGo : Dev := devRom.onBoot fun b => { b with rom := { b.rom with written := [(0, imageHead ++ List.replicate 4072 0)] } }
/-- The image that BOOT_GO takes (R545). -/
def goImage (d : Dev) (n : Nat) (im : ImageIn) : Image :=
  imageOf ((List.range 4096).map fun a => pieceByte d.boot.rom.written (byte (Config.freeNat d.free a)) a) (min n 0x1800000) im

theorem devGo_byte (a : Nat) (x : Byte) (h1 : 24 ≤ a) (h2 : a < 4096) : pieceByte devGo.boot.rom.written x a = 0 := by
  have hl : imageHead.length = 24 := by decide
  have hw : devGo.boot.rom.written = [(0, imageHead ++ List.replicate 4072 0)] := rfl
  rw [hw]
  simp only [pieceByte, List.length_append, List.length_replicate, hl]
  rw [if_pos (by simp; omega), List.getD_eq_getElem?_getD, List.getElem?_append_right (by omega)]
  rw [List.getElem?_replicate, if_pos (by omega)]
  rfl

theorem devGo_reserved : reservedZero ((List.range 4096).map fun a => pieceByte devGo.boot.rom.written (byte (Config.freeNat devGo.free a)) a) = true := by
  unfold reservedZero
  rw [List.all_eq_true]
  intro e he
  rw [List.all_eq_true]
  intro b hb
  obtain ⟨a, h1, h2, h3, rfl⟩ := mem_slice_map _ _ _ _ hb
  by_cases h : 24 ≤ a
  · simp [devGo_byte a _ h h3]
  · simp at he
    have : a ∈ [6, 7, 13, 14, 15] := by
      rcases he with rfl | rfl | rfl | rfl | rfl <;> simp at h1 h2 ⊢ <;> omega
    simp at this
    rcases this with rfl | rfl | rfl | rfl | rfl <;> decide +kernel

theorem witness_SpiRows_boot :
    romRuns devGo = true ∧ fatal devGo = false ∧ verifyImage devGo.boot (goImage devGo 4097 { signatureOk := true, payloadOk := true }) = 0
      ∧ verifyImage devGo.boot (goImage devGo 4096 { signatureOk := true, payloadOk := true }) = 6 := by
  unfold goImage imageOf
  rw [devGo_reserved]
  decide +kernel

/-- Furrow 0 of mode 0 running with two lanes, frame 3 under way, started at 1,000. -/
def devRun : Dev := { (devL.onFurrow 0 fun f =>
  { f with state := .running, maps := tabMod f.maps 0 fun _ => [{ source := 0 }, { source := 1, plane := 1 }], lastSof := some 1000
           current := some { number := 3 } }) with now := 20000000 }
/-- The same in mode 1. -/
def devCsi : Dev := devRun.onFurrow 0 fun f => { f with config := f.config.map fun c => { c with mode := 1 } }

/-- A start-of-frame sequence at a depth of 12 bits with the default codes (Table 5.2). -/
def sof12 : SyncIn := { words := [4095, 0, 0, 0xABC] }
/-- A row of the two lanes of `devRun`: SOL, a word, EOL. -/
def row12 : RowIn :=
  let lane : LaneRow := { start := [4095, 0, 0, 0x801], words := [1], stop := [4095, 0, 0, 0x9D3] }
  { lanes := [lane, lane], overflow := true }
/-- What training finds on a lane that locks with the default training word. -/
def trained12 : TrainIn := { word := 0xCB1, run := 1024, skew := 3 }

theorem test_syncCodes :
    (devRun.furrow 0).sync.shown 12 sof12.words = .code 0 ∧ (devRun.furrow 0).sync.shown 12 [4095, 0, 0, 0x9D3] = .code 3
      ∧ (devRun.furrow 0).sync.shown 12 [4095, 0, 0, 0x100] = .unmatched ∧ (devRun.furrow 0).sync.shown 12 [4095, 0, 1, 0xABC] = .nothing := by decide
theorem test_trainLocks :
    trainLocks {} furrow0 trained12 20 = true ∧ trainLocks {} furrow0 trained12 19 = false
      ∧ trainLocks {} furrow0 { trained12 with word := 0xCB0 } 20 = false ∧ trainLocks {} furrow0 { trained12 with skew := 4 } 20 = false := by decide

theorem witness_FurrowRows :
    (let c : FurrowConfig := { furrow0 with mode := 1 }
     (devCsi.furrow 0).config = some c ∧ (devCsi.furrow 0).runs = true ∧ c.mode = 1 ∧ (tabGet [({ frameStart := true } : SyncIn)] 0).frameStart = true) ∧
    ((devRun.furrow 0).config = some furrow0 ∧ (devRun.furrow 0).runs = true ∧ furrow0.mode ≠ 1 ∧ (devRun.furrow 0).activeMap.length < 2 *
      ((indexed (devRun.furrow 0).activeMap).map fun e => (devRun.furrow 0).sync.shown furrow0.depthBits (tabGet [sof12, sof12] e.1).words).count (.code 0)) ∧
    (let d := devRun.onFurrow 0 fun f => { f with lineNo := 1 }
     rowBegins (d.furrow 0) furrow0 {} = false ∧ rowBegins (d.furrow 0) furrow0 row12 = true ∧ rowEndsFrame (d.furrow 0) furrow0 row12 = false
      ∧ ((noteRow 0 furrow0 row12 d).furrow 0).current = some { number := 3 } ∧ ({ number := 3 } : FrameInProgress).rows < furrow0.height
      ∧ (noteRow 0 furrow0 row12 d).fabric.lapse = none ∧ (noteRow 0 furrow0 row12 (d.onFabric fun f => { f with lapse := some (0, 0) })).fabric.lapse.isSome = true) ∧
    (let d := devRun.onFurrow 0 fun f => { f with current := none }
     rowBegins (d.furrow 0) furrow0 row12 = true ∧ ((noteRow 0 furrow0 row12 d).furrow 0).current = none) ∧
    (let d := devRun.onFurrow 0 fun f => { f with current := some { number := 3, rows := furrow0.height } }
     ((noteRow 0 furrow0 row12 d).furrow 0).current = some { number := 3, rows := furrow0.height }) ∧
    (let fr : FrameInProgress := { number := 3 }
     (devRun.furrow 0).current = some fr ∧ (devRun.furrow 0).lastSof = some 1000 ∧ 3 * (devRun.stream 0).maxPeriod ≤ 2 * (({ devRun with now := 25501000 } : Dev).now - 1000)) ∧
    (let fr : FrameInProgress := { number := 2, fillFrom := some 100, fillAt := some 5 }
     let d := devRun.onFurrow 0 fun f => { f with ending := [fr] }
     (d.furrow 0).ending.find? (fun x => x.fillAt.isSome) = some fr ∧ fr.fillFrom = some 100 ∧ fr.fillAt = some 5
      ∧ 5 + fillTime furrow0 (furrow0.height - 100) ≤ d.now) ∧
    (let fr : FrameInProgress := { number := 2 }
     let d := devRun.onFurrow 0 fun f => { f with ending := [fr] }
     (d.furrow 0).ending.head? = some fr ∧ fr.fillAt = none) ∧
    (let d := { (devRun.onFurrow 0 fun f => { f with current := none }) with now := 25501000 }
     (d.furrow 0).config = some furrow0 ∧ (d.furrow 0).lastSof = some 1000 ∧ (d.furrow 0).runs = true ∧ (d.furrow 0).silent = false ∧ (d.furrow 0).current = none
      ∧ (d.furrow 0).ending = [] ∧ 3 * (d.stream 0).maxPeriod ≤ 2 * (d.now - max 1000 ((d.furrow 0).lastEnd.getD 0))) ∧
    (let d := devF.onFurrow 0 fun f => { f with state := .training }
     (d.furrow 0).state = .training ∧ (d.furrow 0).config = some furrow0) ∧
    ((devRun.furrow 0).config = some furrow0 ∧ furrow0.mode = 0 ∧ (devRun.furrow 0).rowsOver = true ∧ (devRun.furrow 0).lastRow = none
      ∧ (devRun.furrow 0).recentreBy = []) ∧
    (let d := devRun.onFurrow 0 fun f => { f with lastRow := some 19990000 }
     19990000 + 2000 ≤ d.now ∧ (d.furrow 0).lastSof = some 1000 ∧ ¬19990000 + 20000 ≤ 1000 + (d.stream furrow0.stream).minPeriod) ∧
    ¬((devRun.onFurrow 0 fun f => { f with rowsOver := false }).furrow 0).rowsOver = true := by
  decide +kernel

theorem witness_SensorRows :
    (let d := devF.onFurrow 0 fun f => { f with pins := tabMod (tabMod f.pins 0 fun p => { p with function := 5 }) 4 fun p => { p with function := 6 } }
     ((tabGet (d.furrow 0).pins 0).function = (if true then 5 else 6) ∧ (tabGet (d.furrow 0).pins 0).pulseUntil = none)
      ∧ (tabGet (d.furrow 0).pins 4).function = (if false then 5 else 6) ∧ (tabGet (d.furrow 0).pins 4).pulseUntil = none) ∧
    (let d := devF.onFurrow 0 fun f => { f with pins := tabMod f.pins 1 fun p => { p with function := 3, periodNs := 1000000, widthNs := 100 } }
     let p := tabGet (d.furrow 0).pins 1
     p.function = 3 ∧ p.pulseUntil = none ∧ pinPeriod d 0 p.periodNs ≠ 0 ∧ domainNow d (furrowDomain d 0) % pinPeriod d 0 p.periodNs = p.phaseNs) ∧
    (let x : GroupWrite := { writes := [(16, [1])] }
     let c : Commit := { txn := 1, groups := [x] }
     let d := devF.onCtl fun k => { k with commits := [c] }
     commitWith d 0 0 (fun _ x => !x.started && x.confirmed < x.writes.length) = some (c, x) ∧ windowOpen d c x = true
      ∧ startsInTime d x = true ∧ inOrder d c x = true) ∧
    (let r : Restore := { writes := [(16, [1])] }
     let d := devF.onCtl fun k => { k with restores := [r] }
     (d.furrow 0).reading = none ∧ (d.ctl.restores.find? fun r => r.furrow = (0 : Fin 16).val && r.group = 0) = some r) ∧
    (let x : GroupWrite := { writes := [(16, [1])], started := true }
     let c : Commit := { txn := 1, groups := [x] }
     let d := devF.onCtl fun k => { k with commits := [c] }
     (d.furrow 0).reading = none ∧ (d.ctl.restores.find? fun r => r.furrow = (0 : Fin 16).val && r.group = 0) = none
      ∧ commitWith d 0 0 (fun c x => x.started && x.confirmed < x.writes.length && inOrder d c x) = some (c, x)) ∧
    (let x : SensorRead := { length := 2, waits := true, begun := true }
     let d := devF.onFurrow 0 fun f => { f with reading := some x }
     (d.furrow 0).reading = some x ∧ x.begun = true ∧ d.now ≤ x.request.pkt.time + 2000000) ∧
    (let x : GroupWrite := { writes := [(16, [1])], closeFrame := some 2 }
     let c : Commit := { txn := 1, groups := [x] }
     let d := (devRun.onCtl fun k => { k with commits := [c] }).onStream 0 fun s => { s with started := true, frame := 3, lastSof := some 1000 }
     commitWith d 0 0 (fun _ x => x.confirmed < x.writes.length && x.closeFrame.isSome) = some (c, x) ∧ timedStream d 0 = some 0
      ∧ groupDesc d 0 0 = some { group := 0, delay := 1 } ∧ x.closeFrame = some 2
      ∧ (windowClose d 0 { group := 0, delay := 1 } 2 ≤ (timelineNow d (.stream 0) : Int) ∨ 2 < (d.stream 0).frame)) := by
  decide +kernel

/-- Furrow 0's stream with frame 3 in progress, all of its lines in. -/
def work3 : FrameWork := { number := 3, rowsIn := 256, lineAt := [(0, 1000)] }
def devW : Dev := devRun.onStream 0 fun s => { s with work := [work3] }
/-- The same with the motion stage on and its first band ready. -/
def work4 : FrameWork := { work3 with settings := { work3.settings with motion := { work3.settings.motion with enable := true } } }
def field4 : MotionField := { frame := 3, bands := .waiting :: List.replicate 15 .written }
def devMotion : Dev := devRun.onStream 0 fun s => { s with work := [work4], fields := [field4, {}] }

theorem witness_JobRows_fabric :
    (rowWork devW (0 : Fin 24) 0 = some work3 ∧ srcSize devW 0 = some (512, 256) ∧ mapGet work3.lineAt 0 = some 1000 ∧ 1000 ≤ devW.now
      ∧ bandsSettled (devW.stream 0) work3 (512, 256) 0 = true) ∧
    (rowWork devMotion (0 : Fin 24) 0 = some work4 ∧ furrowOf devMotion 0 = some (0, furrow0) ∧ mapGet work4.lineAt 0 = some 1000
      ∧ (if rowClass devMotion 0 work4 = 0 then 1000 + 150000 else 1000 + (devMotion.stream 0).minPeriod) ≤ devMotion.now) ∧
    (furrowOf devMotion 0 = some (0, furrow0)
      ∧ (devMotion.stream 0).work.find? (fun w => !w.withdrawn && (match fieldOfWork (devMotion.stream 0) w with
        | some f => f.bands.getD (bandIndex furrow0.width 0 0) .written = .waiting
        | none => false)) = some work4 ∧ fieldOfWork (devMotion.stream 0) work4 = some field4 ∧ bandReady devMotion 0 furrow0 work4 field4 0 0 = true) ∧
    (let d := devMotion.onFabric fun f => { f with harrows := f.harrows.set 15 (some { frame := 3 }) }
     d.fabric.harrows.getD 15 none = some { frame := 3 }) ∧
    (let j : Job := { frame := 3 }
     let freed := fun d : Dev => count (0xD000 + 383) 0 1 (d.onFabric fun f => { f with drills := tabMod f.drills 383 fun x => { x with job := none } })
     let d := devW.onFabric fun f => { f with drills := tabMod f.drills 383 fun x => { x with job := some j } }
     (tabGet d.fabric.drills 383).lost = false ∧ (tabGet d.fabric.drills 383).job = some j ∧ workOf (freed d) j.stream j.frame = some work3
      ∧ srcSize (freed d) j.stream = some (512, 256) ∧ work3.withdrawn = false) ∧
    (let j : Job := { frame := 3 }
     let w : FrameWork := { work3 with withdrawn := true }
     let freed := fun d : Dev => count (0xD000 + 383) 0 1 (d.onFabric fun f => { f with drills := tabMod f.drills 383 fun x => { x with job := none } })
     let d := (devW.onStream 0 fun s => { s with work := [w] }).onFabric fun f => { f with drills := tabMod f.drills 383 fun x => { x with job := some j } }
     (tabGet d.fabric.drills 383).job = some j ∧ workOf (freed d) j.stream j.frame = some w ∧ srcSize (freed d) j.stream = some (512, 256) ∧ w.withdrawn = true) ∧
    ((tabGet dev0.fabric.drills 0).lost = false ∧ (tabGet dev0.fabric.drills 0).job = none) := by
  decide +kernel

/-- An encoder session that codes frame 3 of branch 0, whose rows are done, in LIVE_YIELD. -/
def enc3 (yield_ : Bool) : Encoder :=
  let c : EncConfig := { source := 0x3000, liveYield := yield_, noSeeds := true, pail := 0x01000001 }
  { ({} : Encoder) with codec := 2, configured := true, enc := c, frames := [{ number := 3, w := 512, h := 256, enc := c, swaths := [{}] }] }
def devEnc (yield_ : Bool) : Dev := devB.onCodecs fun x =>
  { x with encoders := [(64, enc3 yield_)], tines := x.tines.set 63 (some { cls := 0, deadline := 0, session := 0x5040, frame := 3 }) }
/-- A playback stream of decoder 0. -/
def devPlay : Dev := { (devE.onStream 16 fun s => { s with admission := .admitted, minPeriod := 16000000, decoder := some 0, playStart := 100 }) with now := 100 }

theorem witness_JobRows_codecs :
    (let d := devEnc false
     mapGet d.codecs.encoders (64 : Fin 96).val = some (enc3 false)
      ∧ (enc3 false).frames.find? (fun f => f.swaths.any fun x => !x.released) = (enc3 false).frames.head?
      ∧ ((enc3 false).frames.headD {}).swaths.findIdx? (fun x => !x.released) = some 0 ∧ swathReady d 64 (enc3 false) ((enc3 false).frames.headD {}) 0 = true
      ∧ ¬((enc3 false).codec ≠ 0 ∧ (enc3 false).enc.cls = 2 ∧ ((enc3 false).frames.headD {}).enc.liveYield = true ∧ (0 : Nat) = 0 ∧ liveTineLate d = true)) ∧
    (let d := { devEnc true with now := 1 }
     mapGet d.codecs.encoders (64 : Fin 96).val = some (enc3 true) ∧ swathReady d 64 (enc3 true) ((enc3 true).frames.headD {}) 0 = true
      ∧ (enc3 true).codec ≠ 0 ∧ (enc3 true).enc.cls = 2 ∧ ((enc3 true).frames.headD {}).enc.liveYield = true ∧ liveTineLate d = true
      ∧ (d.codecs.tines.getD (63 : Fin 64) none).isSome = true) ∧
    ((playbackDecoder devPlay 16).isSome = true ∧ (playbackDecoder devPlay 16).all (fun e => playbackStart (devPlay.stream 16) e.2 = some 100) = true
      ∧ (devPlay.stream 16).admission = .admitted
      ∧ (playbackDecoder devPlay 16).all (fun e => domainNow { devPlay with now := 99 } e.2.domain < 100 + (devPlay.stream 16).frame * (devPlay.stream 16).minPeriod) = true
      ∧ (playbackDecoder devPlay 16).all (fun e => 100 + (devPlay.stream 16).frame * (devPlay.stream 16).minPeriod ≤ domainNow devPlay e.2.domain) = true) := by
  decide +kernel

/-- Raster 0 running, its first frame in the air with plane 0 on lines 0 to 63. -/
def plane0 : AirPlane := { set := { mode := 2, cropW := 64, cropH := 64 }, width := 64, height := 64 }
def air1 (aborted : Option Nat) : AirFrame := { frame := 1, planes := [some plane0, none, none, none], before := [some plane0, none, none, none], aborted }
def devAir (aborted : Option Nat) : Dev := devR.onRaster 0 fun r => { r with running := true, frame := 1, latchedFrame := 1, air := [air1 aborted] }
/-- SDI input 0 enabled and locked, storing pictures of 16 by 8 into pail 1. -/
def devSdi : Dev := devP.onDisplay fun p => { p with sdiIn := tabMod p.sdiIn 0 fun s => { s with enabled := true, locked := true, depth := 2, pail := 0x01000001 } }

theorem witness_RasterRows :
    (let d := (devAir none).onRaster 0 fun r => { r with stopping := true }
     (d.raster 0).running = true ∧ (d.raster 0).stopping = true ∧ (d.raster 0).frame ≠ 0) ∧
    ((devAir none).raster 0).running = true ∧ ((devAir none).raster 0).stopping = false ∧ (devR.raster 0).running = false ∧ leadsTimeline (devAir none) 0 = true ∧
    ((63 : Nat) < ((devAir none).raster 0).timing.vActive ∧ dueAir (devAir none) ((devAir none).raster 0) 63 = some (air1 none) ∧ (air1 none).aborted = none
      ∧ (1 : Nat) < 2 ∧ (air1 none).planes.getD (0 : Fin 4) none = some plane0 ∧ plane0.onLine 63 = true ∧ ((1 : Nat) = 0 → plane0.rowsThere (devAir none) 63 = false)) ∧
    (dueAir (devAir (some 63)) ((devAir (some 63)).raster 0) 63 = some (air1 (some 63)) ∧ (air1 (some 63)).aborted = some 63 ∧ 63 ≤ 63
      ∧ ((air1 (some 63)).before.getD (0 : Fin 4) none).isSome = true) ∧
    ((tabGet dev0.display.hdmi (1 : Fin 2)).plugged = false ∧
      (let d := (onHdmi 1 (fun x => { x with plugged := true, retryAt := some 5 }) devP).onRaster 0 fun r => { r with outputs := [{ output := 0x11, link := 1 }] }
       (tabGet d.display.hdmi (1 : Fin 2)).plugged = true ∧ (tabGet d.display.hdmi (1 : Fin 2)).trained = false
        ∧ (tabGet d.display.hdmi (1 : Fin 2)).retryAt = some 5 ∧ 5 ≤ ({ d with now := 5 } : Dev).now ∧ frlBound d (1 : Fin 2) = true)) ∧
    (let d := onSdi 0 (fun s => { s with locked := false }) devSdi
     (tabGet d.display.sdiIn (0 : Fin 4)).enabled = true ∧ (tabGet d.display.sdiIn (0 : Fin 4)).locked = false) ∧
    (tabGet devSdi.display.sdiIn (0 : Fin 4)).enabled = true ∧ (tabGet devSdi.display.sdiIn (0 : Fin 4)).locked = true ∧
    (mappedPail devSdi 0x01000001).elim 0 (·.2.size) < 2 * formatSlot 0x30 32768 4352 ∧
    2 * formatSlot 0x30 16 8 ≤ (mappedPail devSdi 0x01000001).elim 0 (·.2.size)
      ∧ (takeSlot (sdiRef 0) 0x01000001 2 (formatSlot 0x30 16 8) devSdi).1 = some 0 := by
  decide +kernel

/-- PTP on time domain 0, acquiring, with the second port in use as well; ports 0 and 1. -/
def devPtp (state : DomainState) (gm : Nat) (otherOk : Bool) : Dev :=
  (dev0.onDomain 0 fun x => { x with state }).onTime fun t =>
    { t with ptp := tabMod t.ptp 0 fun p =>
        { p with configured := true, portA := 0, portB := 1, activePort := 0, grandmaster := gm, validA := true, validB := otherOk, goodRunB := if otherOk then 16 else 0 } }
/-- Timecode in and out on time domain 5, the words 1/30 s apart. -/
def devLtc : Dev := (dev0.onDomain 5 fun x => { x with state := .free }).onTime fun t =>
  { t with ltc := { t.ltc with input := { t.ltc.input with enabled := true, domain := 5 }, output := { t.ltc.output with enabled := true, domain := 5 } } }

theorem witness_TimeRows :
    devLtc.time.ltc.input.enabled = true ∧
    (let on := fun d : Dev => (tabGet d.time.ptp 0).configured = true ∧ (d.domain 0).state ≠ .disabled
     let was := fun (d : Dev) (b : Bool) => if b then (tabGet d.time.ptp 0).validB else (tabGet d.time.ptp 0).validA
     let other := fun (d : Dev) (b : Bool) => (if b then (tabGet d.time.ptp 0).validA = true ∧ 16 ≤ (tabGet d.time.ptp 0).goodRun
      else (tabGet d.time.ptp 0).validB = true ∧ 16 ≤ (tabGet d.time.ptp 0).goodRunB) ∧ (tabGet d.time.ptp 0).gmA = (tabGet d.time.ptp 0).gmB
     let d := devPtp .acquiring 0 true
     (on d ∧ ¬(true = true ∧ (tabGet d.time.ptp 0).portB = 0xFF) ∧ (tabGet d.time.ptp 0).isActive true = false ∧ (tabGet d.time.ptp 0).isActive false = true)
      ∧ (tabGet d.time.ptp 0).grandmaster = 0 ∧ ((tabGet (devPtp .locked 8 false).time.ptp 0).grandmaster ≠ 0 ∧ (tabGet (devPtp .locked 8 false).time.ptp 0).grandmaster ≠ 7)
      ∧ (was d true = true ∧ was d false = true) ∧ other d false ∧ ¬other (devPtp .locked 8 false) false) ∧
    (let w := 0x0102
     let follows := fun d : Dev => (d.time.ltc.lastFrame.all fun p => decide (ltcLabel d.time.ltc.input.rate w = nextLabel d.time.ltc.input.rate p)) = true
     let noted := fun d : Dev => d.onTime fun t => { t with ltc := { t.ltc with lastFrame := some (ltcLabel d.time.ltc.input.rate w) } }
     let last := fun n : Nat => devLtc.onTime fun t => { t with ltc := { t.ltc with lastFrame := some n } }
     (follows devLtc ∧ (ltcEdge (noted devLtc)).2.valid = true) ∧ follows (last 11) ∧ ¬follows (last 12) ∧
      (let d := { (devLtc.onTime fun t => { t with ltc := { t.ltc with ref := { t.ltc.ref with lastValid := some 0 } } }) with now := 1 }
       follows d ∧ (ltcEdge (noted d)).2.valid = false)) ∧
    (devLtc.time.ltc.output.enabled = true ∧ (devLtc.domain devLtc.time.ltc.output.domain).state ≠ .disabled) ∧
    (let d := devLtc.onDomain 5 fun x => { x with pendingStep := some (-3) }
     dueStep d (5 : Fin 6) = some (-3, false) ∧ dueStep devLtc (5 : Fin 6) = none) ∧
    (let l : Launch := { id := 3, domain := 5 }
     let d := devLtc.onTime fun t => { t with launches := [l] }
     d.time.launches.find? (fun l => l.id = 3) = some l ∧ (d.domain l.domain).state ≠ .disabled ∧ d.time.launches.find? (fun l => l.id = 4) = none) ∧
    ((dev0.domain (0 : Fin 6)).state = .disabled ∧ (dev0.domain (0 : Fin 6)).state.held = false) ∧
    (let d := { (dev0.onDomain 0 fun x => { x with state := .holdover, heldSince := 5 }) with now := 600000000005 }
     (d.domain (0 : Fin 6)).state.held = true ∧ (d.domain (0 : Fin 6)).extended = false ∧ (d.domain (0 : Fin 6)).heldSince + 600000000000 ≤ d.now) := by
  decide +kernel

/-- Receiver 0 running, with settings of one essence. -/
def recv (essence : Nat) (f : Flow → Flow) : Flow := f { config := { ({} : FlowConfig) with essence, dual := true, periodNs := 16000000 }, running := true }
def devRecv (f : Flow) : Dev := devN.onNet fun n => { n with flows := mapSet n.flows 64 f }
/-- How far a sequence number is from the flow's, as RTP's serial numbers count. -/
def seqAway (f : Flow) (seq : Nat) : Int := (((seq % 65536 : Nat) : Int) - f.extSeq + 32768).emod 65536 - 32768

theorem witness_NetRows :
    (let f : Flow := { (devN.flow? 0).getD {} with running := true }
     let d := devN.onFlow 0 fun _ => f
     d.flow? (0 : Fin 64) = some f ∧ f.running = true ∧ f.bound = true ∧ waitsTurn d (0 : Fin 64) f = false) ∧
    (let f := recv 0 id
     (devRecv f).flow? (64 + (0 : Fin 64).val) = some f ∧ f.running = true ∧ ¬(true = true ∧ f.config.dual = false) ∧ f.config.essence = 0) ∧
    (let f := recv 1 id
     (devRecv f).flow? 64 = some f ∧ f.config.essence ≠ 0 ∧ f.seqKnown = false) ∧
    (let f := recv 1 fun f => { f with seqKnown := true, extSeq := 65535 }
     (devRecv f).flow? 64 = some f ∧ f.config.essence ≠ 0 ∧ f.seqKnown = true ∧ seqAway f 2999 = 3000 ∧ seqAway f 62535 = -3000 ∧ f.held = none
      ∧ 3000 < (seqAway f 3000).natAbs ∧ 3000 < (seqAway f 62534).natAbs) ∧
    (let f := recv 1 fun f => { f with seqKnown := true, extSeq := 65535, held := some (9999, 5, []) }
     f.held = some (9999, 5, []) ∧ (9999 + 1) % 65536 = 10000 % 65536 ∧ 3000 < (seqAway f 10000).natAbs) ∧
    (let r : RecvFrame := { stamp := 90, instant := 1000 }
     let f := recv 1 fun f => { f with receiving := [r] }
     (devRecv f).flow? 64 = some f ∧ f.config.essence ≠ 2 ∧ oldestFrame f = some r
      ∧ closeTime f.config r.instant ≤ domainNow { devRecv f with now := 16001000 } f.config.domain
      ∧ domainNow { devRecv f with now := 16000999 } f.config.domain < closeTime f.config r.instant) ∧
    (let f := recv 2 fun f => { f with lastClosed := some 48, config := { f.config with channels := 2 } }
     let d := { devRecv f with now := 20000000 }
     d.flow? 64 = some f ∧ f.config.essence = 2 ∧ f.lastClosed = some 48
      ∧ closeTime f.config (ceilDiv (48 * 1000000000) (flowClock f.config)) ≤ domainNow d f.config.domain ∧ oldestFrame f = none) ∧
    (let r : RecvFrame := { stamp := 48, instant := 1000000 }
     let f := recv 2 fun f => { f with lastClosed := some 48, receiving := [r], config := { f.config with channels := 2 } }
     let d := { devRecv f with now := 20000000 }
     d.flow? 64 = some f ∧ oldestFrame f = some r ∧ r.stamp < 48 + packetSamples f.config ∧ closeTime f.config r.instant ≤ domainNow d f.config.domain) ∧
    (let f := recv 1 id
     let d := { devRecv f with now := 100000000 }
     (if true then f.lostB else f.lostA) = false ∧ ¬(true = true ∧ f.config.dual = false) ∧ ((if true then f.lastPathB else f.lastPathA).getD f.startedAt) + 100000000 ≤ d.now) := by
  decide +kernel

theorem witness_AudioRows :
    ((tabGet devN.net.ports (0 : Fin 5)).link ≠ (true && decide ((tabGet devN.net.ports (0 : Fin 5)).speed ≠ 0))) ∧
    (let d := devN.onNet fun n => { n with ports := tabMod n.ports 4 fun x => { x with link := true, ipv4 := 0x0A000001, ipv4Prefix := 24 } }
     (portAnswer d (4 : Fin 5) (.arp 0x0A000001 0x0A000002)).isSome = true) ∧
    (let d := devN.onPort 0 fun p => { p with state := .running, config := { p.config with direction := 1, clockMode := 1 } }
     let first := fun d : Dev => d.onPort 0 fun x => { x with leaving := 0 }
     ((first d).port (0 : Fin 16)).on = true ∧ (d.port (0 : Fin 16)).on = true ∧ (d.port (0 : Fin 16)).config.clockMode ≠ 0 ∧ (d.port (0 : Fin 16)).asrc.enable = false) ∧
    (let d := devN.onPort 0 fun p => { p with state := .running, config := { p.config with direction := 1, clockMode := 1 }, asrc := { p.asrc with enable := true } }
     (d.port (0 : Fin 16)).on = true ∧ (d.port (0 : Fin 16)).asrc.enable = true ∧ (d.port (0 : Fin 16)).ref.lost = false) ∧
    ((devN.onPort 15 fun x => { x with leaving := 0 }).port (15 : Fin 16)).on = false ∧ (devN.port (15 : Fin 16)).on = false := by
  decide +kernel

theorem witness_FrameMemoryRows :
    (counterOf (count (rankObj 0) 0 1 dev0) (rankObj 0) 0 < (dev0.rank (0 : Fin 192)).threshold) ∧
    (let d := dev0.onRank 0 fun r => { r with threshold := 1 }
     (d.rank (0 : Fin 192)).raised = false ∧ (d.rank (0 : Fin 192)).threshold ≤ counterOf (count (rankObj 0) 0 1 d) (rankObj 0) 0) ∧
    (let m : Migration := { source := 0, dest := some 47 }
     let d := dev0.onHbm fun h => { h with migration := some m }
     d.hbm.migration = some m ∧ slotOf d m.source = some 0 ∧ ¬(m.dest = none ∧ regionBusy d = true) ∧ m.bits + 1 < m.rows) ∧
    (let m : Migration := { source := 0, dest := some 47, bits := rankRows - 1 }
     let d := dev0.onHbm fun h => { h with migration := some m }
     d.hbm.migration = some m ∧ slotOf d m.source = some 0 ∧ ¬(m.dest = none ∧ regionBusy d = true) ∧ m.rows ≤ m.bits + 1) ∧
    (let m : Migration := { source := 0, dest := none }
     let own : Pail := { size := 65536, pages := [poolBase + poolBytes - 65536] }
     let d := (dev0.onHbm fun h => { h with migration := some m, regions := h.regions + 1 }).onPails fun t => { t with table := [(1, own)] }
     d.hbm.migration = some m ∧ m.dest = none ∧ regionBusy d = true) ∧
    (nextMultiple (tabGet dev0.hbm.stackStates (0 : Fin 2)).multiple 250 = (tabGet dev0.hbm.stackStates (0 : Fin 2)).multiple
      ∧ nextMultiple (tabGet dev0.hbm.stackStates (0 : Fin 2)).multiple 1050 ≠ (tabGet dev0.hbm.stackStates (0 : Fin 2)).multiple) ∧
    (dev0.faults.paused = false ∧ nextScrub dev0 dev0.hbm.scrubLine < scrubSteps ∧ (dev0.onFaults fun f => { f with paused := true }).faults.paused = true) ∧
    (let d := dev0.onHbm fun h => { h with ranks := h.ranks.map fun r => { r with state := .retired } }
     d.faults.paused = false ∧ scrubSteps ≤ nextScrub d d.hbm.scrubLine) ∧
    (let p : Pail := { size := 65536, pages := [0x40000000], withering := true }
     let d := dev0.onPails fun t => { t with table := [(1, p)] }
     mappedPail d 0x01000001 = some (1, p) ∧ p.withering = true ∧ pailRefs d 0x01000001 = 0) ∧
    ((mappedPail devB 0x01000001).isSome = true ∧ pailRefs devB 0x01000001 ≠ 0) ∧
    (let p : Pail := { host := true, size := 65536, importing := some ({ op := 0xE01 }, 0x1000) }
     let d := dev0.onPails fun t => { t with table := [(1, p)] }
     let cells : List (Nat × Byte) := [(0x1002, 1)]
     mappedPail (hostWrites cells d) 0x01000001 = some (1, p) ∧ p.importing = some ({ op := 0xE01 }, 0x1000)
      ∧ pagesOk (pageList (hostWrites cells d) 0x1000 (p.size / 65536)) = true ∧ pagesOk (pageList (hostWrites [(0x1000, 1)] d) 0x1000 (p.size / 65536)) = false) ∧
    ((dev0.onPails fun t => { t with zeroing := [(0x40000000, 65536)] }).pails.zeroing ≠ []) ∧
    (let d := devP.onDma fun x => { x with movers := x.movers.set 7 (some 63) }
     tabGet d.dma.movers (7 : Fin 8) = some 63) ∧
    (let d := devP.onChannel 0 fun h => { h with state := .running, sheaves := [{ number := 1, descriptors := [{ op := 0, len := 64, src := 0x01000001, dst := 0x01000001, next := 0xFFFFFFFF }] }] }
     tabGet d.dma.movers (0 : Fin 8) = none ∧ tabGet (takeBurst (0 : Fin 8) (hostWrites [] d)).dma.movers (0 : Fin 8) = some 0) ∧
    (let d := devP.onChannel 63 fun h => { h with state := .waiting }
     (d.channel (63 : Fin 64)).state = .waiting ∧ (d.channel (0 : Fin 64)).state ≠ .waiting) := by
  decide +kernel

/-- The magazine with an acre write that its die serves, at the physical acre 0. -/
def devProgram (w : AcreWrite) : Dev := devM.onMag fun m => { m with writes := [w], dies := [(0, { serving := some { write := some w.id } })] }
/-- The magazine with block 1 of die 0 filled, one acre of it valid or none. -/
def devFull (valid : Nat) : Dev := devM.onPack fun p =>
  { p with blocks := [(blockKey 0 1, { programmed := 4, valid })], map := if valid = 0 then [] else [(3, physicalAcre 0 4)] }

theorem witness_MagazineRows :
    (dev0.mag.state = .absent ∧ devM.mag.state ≠ .absent) ∧
    (let d := devM.onMag fun m => { m with state := .mounting }
     let e := d.onPack fun p => { p with dies := List.replicate 31 1 }
     d.mag.state = .mounting ∧ e.mag.state = .mounting ∧ fitOutFault (packFound {} e).dies {} = some (31, 0, 2) ∧ fitOutFault (packFound {} d).dies {} = none
       ∧ fitOutFault (packFound {} d).dies { differing := [(4, 0, { planes := 2 })] } = some (4, 0, 0)) ∧
    (let w : AcreWrite := { id := 1, logical := 3, stripe := some 0, physical := some 0 }
     let d := devProgram w
     magUsable d = true ∧ d.mag.writes.find? (fun w => w.logical = 3 && !w.programmed && servesWrite d.mag w) = some w) ∧
    (let d := devM.onMag fun m => { m with erases := [(0, 1)], dies := [(0, { serving := some { block := 1 } })] }
     d.mag.format = none ∧ servesErase d.mag 0 1 = true ∧ (eraseDone 0 1 true d).mag.format = none ∧ servesErase d.mag 0 2 = false
      ∧ (devM.onMag fun m => { m with format := some { op := 0x1001 } }).mag.format.isSome = true
      ∧ (eraseDone 0 1 true (devM.onMag fun m => { m with format := some { op := 0x1001 } })).mag.format = some { op := 0x1001 } ∧ (reelOf devM 1).isSome = true) ∧
    (let r : Recording := { reel := 1, clip := 1, lastDirectory := 5 }
     let d := { (devM.onMag fun m => { m with recordings := [r] }) with now := 1000000005 }
     nthReel d (0 : Fin 16) = some 1 ∧ nthReel d (15 : Fin 16) = none ∧ recordingOf d 1 = some r ∧ r.ending = false ∧ r.lastDirectory + 1000000000 ≤ d.now) ∧
    ((devM.onMag fun m => { m with sinceCheckpoint := 262144 }).mag.sinceCheckpoint = 262144 ∧ devM.mag.sinceCheckpoint < 262144) ∧
    (let next := fun d : Dev => d.mag.pack.map.find? fun e => d.mag.pack.acreKey e.2 = blockKey 0 1 && (newestWrite d e.1).isNone
     magUsable (devFull 1) = true ∧ (devFull 1).faults.paused = false ∧ churnChoice (devFull 1).mag 0 1 = some false
      ∧ next (gleanChunk 1 (devFull 1)) = some (3, physicalAcre 0 4) ∧ churnChoice (devFull 0).mag 0 1 = some false ∧ next (gleanChunk 1 (devFull 0)) = none
      ∧ mayErase (gleanChunk 1 (devFull 0)).mag 0 1 = true ∧ churnChoice devM.mag 0 1 = none) := by
  decide +kernel

theorem witness_LongRunRows :
    ((tabGet dev0.fabric.drills (383 : Fin 384)).lost = false ∧ (tabGet dev0.fabric.drills (383 : Fin 384)).job = none) ∧
    (let d := dev0.onFabric fun f => { f with drills := tabMod f.drills 0 fun x => { x with lost := true } }
     (tabGet d.fabric.drills (0 : Fin 384)).lost = true) ∧
    (∀ l ∈ dev0.faults.lanes, l.fenced = false) ∧
    (let d := dev0.onFaults fun f => { f with lanes := tabMod f.lanes 2 fun l => { l with fenced := true } }
     (tabGet d.faults.lanes (0 : Fin 3)).fenced = false ∧ (∃ l ∈ d.faults.lanes, l.fenced = true) ∧ (tabGet d.faults.lanes (2 : Fin 3)).fenced = true) ∧
    ((dev0.onFaults fun f => { f with standby := .failed }).faults.standby = .failed ∧ dev0.faults.standby ≠ .failed) ∧
    (fatal dev0 = false ∧ dev0.boot.ready = true ∧ dev0.faults.standby ≠ .ready ∧ (dev0.onFaults fun f => { f with standby := .ready }).faults.standby = .ready) ∧
    (firmwareRuns dev0 = true ∧ firmwareRuns State.reset.dev = false ∧ dev0.faults.thermalTrip = false) ∧
    (let d := dev0.onBar0 fun b => { b with evSize := 6 }
     eventSlots d.bar0 ≠ 0 ∧ d.faults.paused = false ∧ eventSlots dev0.bar0 = 0) ∧
    (let d := dev0.onBoot fun b => { b with update := some { erasing := some { op := 0x1301 } } }
     d.boot.update = some { erasing := some { op := 0x1301 } }) ∧
    (let d := dev0.onBoot fun b => { b with update := some { checking := some { op := 0x1303 } } }
     d.boot.update = some { checking := some { op := 0x1303 } }) := by
  decide +kernel

/-! ## Pieces of chapters 10 to 12 and 20 -/

/-- R270: a 12-bit source at 10 bits is scaled by 1/4, rounded half up and clamped; a 10-bit one at 12 bits by 4. -/
theorem test_coded_depth : codedAt 10 12 4095 = 1023 ∧ codedAt 10 12 2 = 1 ∧ codedAt 10 12 1 = 0 ∧ codedAt 12 10 1023 = 4092 := by decide +kernel

/-- R248: a CFA codestream's header says its picture size, depth and sampling, and lies in the subset. -/
theorem test_cfa_header :
    let x : XsHead := { w := 64, h := 32, chroma := 3, bits := 14, profile := 5, size := 4096, precincts := 4, cpih := 3 }
    ((readXsHead (x.bytes id ++ xsSlice 0)).map fun r => (r.head.w, r.head.h, r.head.bits, r.sampling, r.inSubset)) = some (64, 32, 14, some 3, true) := by
  decide +kernel

/-- R302: without WPP or tiles a slice is lost from its first error to the start of the next decodable slice. -/
theorem test_lost_to_next_slice :
    let p : DecPlan := { unitW := 16, unitH := 16, starts := [0, 8], jobs := [{ y := 0, first := 0, count := 4, width := 4 }, { y := 1, first := 4, count := 4, width := 4 },
      { y := 2, first := 8, count := 4, width := 4 }] }
    p.lost (fun k => if k = 0 then some 3 else none) = [3, 4, 5, 6, 7] := by decide +kernel

/-- R462: churn's operation gives way to a record's program, is suspended once, and yields no more after its eighth suspension. -/
theorem test_churn_gives_way :
    let s : NandDie := { serving := some { write := some 1, rank := 2 } }
    s.yields 1000 = true ∧ ((s.suspend 1000).take 1000 [{ write := some 2, rank := 0 }]).serving = some { write := some 2, rank := 0 } ∧
    (s.suspend 1000).suspended.map (·.suspensions) = some 1 ∧
    ({ s with serving := some { write := some 1, rank := 2, suspensions := 8 } } : NandDie).yields 1000 = false := by decide +kernel

end Sys2Proof.Tests
end

section
/-! PROOF. A packet that is taken in the step of its arrival (R54, R61, R76, R79, R82): no other waits, its endpoint has its turn, intake
meets it, and a packet that steps 1 to 7 accept is executed. -/

namespace Sys2Proof

/-- A sum is the sum of the values. -/
theorem sumOf_eq_sum {β : Type} (f : β → Nat) (l : List β) : sumOf f l = (l.map f).sum := by
  rw [sumOf, List.sum_eq_foldl, List.foldl_map]

/-- A sum is zero where each value is. -/
theorem sumOf_eq_zero_iff {β : Type} {f : β → Nat} {l : List β} : sumOf f l = 0 ↔ ∀ x ∈ l, f x = 0 := by
  rw [sumOf_eq_sum, List.sum_eq_zero_iff]
  simp

/-- Where each value is zero, the sum with one entry changed is that entry's value. -/
theorem sumOf_set_of_zero {β : Type} {f : β → Nat} {l : List β} (h : ∀ x ∈ l, f x = 0) {i : Nat} (hi : i < l.length) (y : β) :
    sumOf f (l.set i y) = f y := by
  rw [sumOf_eq_sum]
  induction l generalizing i with
  | nil => simp at hi
  | cons x l ih =>
    have rest : (l.map f).sum = 0 := by rw [← sumOf_eq_sum]; exact sumOf_eq_zero_iff.2 fun z hz => h z (List.mem_cons_of_mem x hz)
    cases i with
    | zero => simp [rest]
    | succ i =>
      rw [List.set_cons_succ, List.map_cons, List.sum_cons, h x (List.mem_cons_self ..), Nat.zero_add]
      exact ih (fun z hz => h z (List.mem_cons_of_mem x hz)) (by simpa using hi)

end Sys2Proof

namespace Sys2Proof.Machine

variable {d : Dev}

/-! ## Rings -/

/-- A ring reads as changed. -/
theorem Dev.ring_onRing_same {i : Nat} (f : Ring → Ring) (h : i < d.bar0.rings.length) : (d.onRing i f).ring i = f (d.ring i) :=
  tabGet_tabMod_same _ f h

/-- Every other ring reads as before. -/
theorem Dev.ring_onRing_other {i j : Nat} (f : Ring → Ring) (h : i ≠ j) : (d.onRing i f).ring j = d.ring j := tabGet_tabMod_other _ f h

/-- Two changes of one ring are one. -/
theorem Dev.onRing_onRing (i : Nat) (f g : Ring → Ring) : (d.onRing i f).onRing i g = d.onRing i fun r => g (f r) := by
  simp only [Dev.onRing, Dev.onBar0, tabMod_tabMod]

/-- A ring changed in two ways that agree on it is the same. -/
theorem Dev.onRing_congr {i : Nat} {f g : Ring → Ring} (h : f (d.ring i) = g (d.ring i)) : d.onRing i f = d.onRing i g := by
  simp only [Dev.onRing, Dev.onBar0, tabMod]
  rw [show f (tabGet d.bar0.rings i) = g (tabGet d.bar0.rings i) from h]

/-- The UDP transport changed in two ways that agree on it is the same. -/
theorem Dev.onUdp_congr {f g : UdpTransport → UdpTransport} (h : f d.udp = g d.udp) : d.onUdp f = d.onUdp g := by
  simp only [Dev.onUdp, h]

/-! ## No packet waits -/

/-- No packet waits: every ring's posted requests, the datagrams held and the SPI target's input are empty. -/
theorem waitingPackets_eq_zero_iff :
    waitingPackets d = 0 ↔ (∀ r ∈ d.bar0.rings, r.posted = []) ∧ d.udp.held = [] ∧ d.spi.input = [] := by
  simp [waitingPackets, sumOf_eq_zero_iff, and_assoc]

/-- Where every ring of the table is empty, so is the ring of any number. -/
theorem ring_posted_eq_nil (h : ∀ r ∈ d.bar0.rings, r.posted = []) (i : Nat) : (d.ring i).posted = [] := by
  by_cases hi : i < d.bar0.rings.length
  · have mem : d.ring i ∈ d.bar0.rings := by simp [Dev.ring, tabGet, hi]
    exact h _ mem
  · simp [Dev.ring, tabGet, hi]
    rfl

/-- The first entry that passes a test that only one value passes. -/
theorem find?_eq_some_of_only {β : Type} {p : β → Bool} {l : List β} {a : β} (mem : a ∈ l) (pass : p a = true) (only : ∀ b, p b = true → b = a) :
    l.find? p = some a := by
  obtain ⟨b, hb⟩ := Option.isSome_iff_exists.1 (List.find?_isSome.2 ⟨a, mem, pass⟩)
  rw [hb, only b (List.find?_some hb)]

/-- One packet waits, on an endpoint whose turn it can have: intake meets it, and nothing is left. -/
theorem drainAll_of_one {d' : Dev} {q : Request} {e : Endpoint} (one : waitingPackets d = 1) (free : takes d = true) (turn : e ∈ d.ctl.turns)
    (ready : endpointReady d e = true) (only : ∀ x, endpointReady d x = true → x = e) (reads : slotFails d e = none)
    (taken : takeFrom e d = some (q, d')) : drainAll d = intake q (turnOver e d') := by
  simp [drainAll, one, drain, free, find?_eq_some_of_only turn ready only, reads, taken]

/-! ## The three transports -/

/-- A ring with a request posted at its tail. -/
def Ring.post (tail : Reg) (q : Request) (r : Ring) : Ring := { r with sqTail := tail, posted := r.posted ++ [q] }

@[simp] theorem Ring.post_posted (tail : Reg) (q : Request) (r : Ring) : (r.post tail q).posted = r.posted ++ [q] := rfl
@[simp] theorem Ring.post_runs (tail : Reg) (q : Request) (r : Ring) : (r.post tail q).runs = r.runs := rfl
@[simp] theorem Ring.post_replyRoom (tail : Reg) (q : Request) (r : Ring) : (r.post tail q).replyRoom = r.replyRoom := rfl

/-- A request posted on a ring that runs and has room for a reply, with nothing else waiting. -/
theorem drainAll_post {i : Fin 16} (tail : Reg) (q : Request) (free : takes d = true) (alone : waitingPackets d = 0) (table : d.bar0.rings.length = 16)
    (runs : (d.ring i).runs = true) (room : (d.ring i).replyRoom = true) (turn : Endpoint.ring i ∈ d.ctl.turns) (reads : q.pkt.hostFailed = false) :
    drainAll (d.onRing i (Ring.post tail q)) =
      intake q ((d.onRing i fun r => { r with sqTail := tail, sqHead := BitVec.ofNat 32 ((r.sqHead.toNat + 1) % r.slots) }).onCtl fun x =>
        { x with turns := x.turns.erase (.ring i) ++ [.ring i] }) := by
  obtain ⟨rings, held, input⟩ := waitingPackets_eq_zero_iff.1 alone
  have inTable : (i : Nat) < d.bar0.rings.length := by omega
  have empty := ring_posted_eq_nil rings
  have here : (d.onRing i (Ring.post tail q)).ring i = (d.ring i).post tail q := Dev.ring_onRing_same _ inTable
  have posted : ((d.onRing i (Ring.post tail q)).ring i).posted = [q] := by simp [here, empty]
  have one : waitingPackets (d.onRing i (Ring.post tail q)) = 1 := by
    have sum := sumOf_set_of_zero (f := fun r : Ring => r.posted.length) (fun r hr => by simp [rings r hr]) inTable ((d.ring i).post tail q)
    simp only [waitingPackets, Dev.onRing_udp, Dev.onRing_spi, held, input]
    rw [show (d.onRing i (Ring.post tail q)).bar0.rings = d.bar0.rings.set i ((d.ring i).post tail q) from rfl, sum]
    simp [empty]
  have only : ∀ x, endpointReady (d.onRing i (Ring.post tail q)) x = true → x = .ring i := by
    intro x hx
    cases x with
    | ring j =>
      by_cases hj : i = j
      · rw [hj]
      · rw [endpointReady, Dev.ring_onRing_other _ (fun h => hj (Fin.ext h))] at hx
        simp [ringReady, empty] at hx
    | udp => simp [endpointReady, held] at hx
    | spi => simp [endpointReady, input] at hx
  have ready : endpointReady (d.onRing i (Ring.post tail q)) (.ring i) = true := by simp [endpointReady, ringReady, here, runs, room]
  have pulled : takeFrom (.ring i) (d.onRing i (Ring.post tail q)) = some (q, (d.onRing i (Ring.post tail q)).onRing i fun r =>
      { r with posted := [], sqHead := BitVec.ofNat 32 ((r.sqHead.toNat + 1) % r.slots) }) := by simp only [takeFrom, posted]
  rw [drainAll_of_one one free turn ready only (by simp [slotFails, posted, reads]) pulled, Dev.onRing_onRing]
  have passed : (d.onRing i fun r => { r.post tail q with posted := [], sqHead := BitVec.ofNat 32 (((r.post tail q).sqHead.toNat + 1) % (r.post tail q).slots) }) =
      d.onRing i fun r => { r with sqTail := tail, sqHead := BitVec.ofNat 32 ((r.sqHead.toNat + 1) % r.slots) } :=
    Dev.onRing_congr (by rw [← empty i]; rfl)
  rw [passed]
  rfl

/-- The turns once a UDP endpoint was served: it leaves, whether it stood there before or joined with its packet (R61). -/
theorem turns_joined_erase (e : Endpoint) (l : List Endpoint) : (if e ∈ l then l else l ++ [e]).erase e = l.erase e := by
  split
  · rfl
  · next h => rw [List.erase_append_right _ h, List.erase_of_not_mem h]; simp

/-- A UDP endpoint that has nothing left leaves the turns. -/
theorem turnOver_udp {port : Fin 5} {addr up : Nat} (h : d.udp.held = []) :
    turnOver (.udp port addr up) d = d.onCtl fun x => { x with turns := x.turns.erase (.udp port addr up) } := by
  simp [turnOver, h]

/-- A whole datagram to the transport's port, with nothing else waiting. -/
theorem takeDatagram_alone {port : Fin 5} {addr up : Nat} (q : Request) (free : takes d = true) (alone : waitingPackets d = 0)
    (source : q.pkt.endpoint = .udp port addr up) (dest : q.pkt.toPort = d.udp.udpPort) (sound : q.pkt.checksumBad = false) :
    takeDatagram port q d = intake q (d.onCtl fun x => { x with turns := x.turns.erase (.udp port addr up) }) := by
  obtain ⟨rings, held, input⟩ := waitingPackets_eq_zero_iff.1 alone
  have empty := ring_posted_eq_nil rings
  have holds : holdDatagram port q d = (d.onUdp fun u => { u with held := [q] }).onCtl fun x =>
      { x with turns := if .udp port addr up ∈ x.turns then x.turns else x.turns ++ [.udp port addr up] } := by
    simp [holdDatagram, held, source, Dev.onUdp]
  have waits : (holdDatagram port q d).udp.held = [q] := by rw [holds]; rfl
  have rings' : ∀ j, ((holdDatagram port q d).ring j).posted = [] := by rw [holds]; exact empty
  have one : waitingPackets (holdDatagram port q d) = 1 := by
    have zero : sumOf (fun r : Ring => r.posted.length) d.bar0.rings = 0 := sumOf_eq_zero_iff.2 fun r hr => by simp [rings r hr]
    simp [holds, waitingPackets, zero, input]
  have turn : .udp port addr up ∈ (holdDatagram port q d).ctl.turns := by
    simp only [holds, Dev.onCtl_ctl]
    split
    · assumption
    · simp
  have only : ∀ x, endpointReady (holdDatagram port q d) x = true → x = .udp port addr up := by
    intro x hx
    cases x with
    | ring j => simp [endpointReady, ringReady, rings'] at hx
    | udp =>
      simp only [endpointReady, waits, List.any_cons, List.any_nil, Bool.or_false, decide_eq_true_eq] at hx
      exact hx.symm.trans source
    | spi => simp [holds, endpointReady, input] at hx
  have pulled : takeFrom (.udp port addr up) (holdDatagram port q d) = some (q, (holdDatagram port q d).onUdp fun u => { u with held := [] }) := by
    have found : ((holdDatagram port q d).udp.held.find? fun x => x.pkt.endpoint = .udp port addr up) = some q := by simp [waits, source]
    simp only [takeFrom, found]
    rw [Dev.onUdp_congr (g := fun u => { u with held := [] }) (by simp only [waits, List.erase_cons_head])]
  rw [takeDatagram, if_neg (not_not.2 dest), if_neg (by simp [sound]),
    drainAll_of_one one (by rw [holds]; exact free) turn (by simp [endpointReady, waits, source]) only rfl pulled, turnOver_udp rfl, holds]
  have same : (d.onUdp fun u => { u with held := [] }) = d := by rw [← held]; rfl
  calc _ = intake q ((d.onUdp fun u => { u with held := [] }).onCtl fun x =>
        { x with turns := (if .udp port addr up ∈ x.turns then x.turns else x.turns ++ [.udp port addr up]).erase (.udp port addr up) }) := rfl
    _ = _ := by simp only [turns_joined_erase, same]

/-- A packet on the SPI target with a place for its reply and nothing else waiting. -/
theorem spiArrives_alone (q : Request) (free : takes d = true) (alone : waitingPackets d = 0) (room : d.spi.replies.length < 8)
    (turn : Endpoint.spi ∈ d.ctl.turns) (len : q.pkt.len = 24 + q.pkt.paramLength) :
    spiArrives q d = intake q (d.onCtl fun x => { x with turns := x.turns.erase .spi ++ [.spi] }) := by
  obtain ⟨rings, held, input⟩ := waitingPackets_eq_zero_iff.1 alone
  have empty := ring_posted_eq_nil rings
  have queued : spiArrives q d = drainAll (d.onSpi fun s => { s with input := [q] }) := by simp [spiArrives, input, len, Dev.onSpi]
  have one : waitingPackets (d.onSpi fun s => { s with input := [q] }) = 1 := by
    have zero : sumOf (fun r : Ring => r.posted.length) d.bar0.rings = 0 := sumOf_eq_zero_iff.2 fun r hr => by simp [rings r hr]
    simp [waitingPackets, zero, held]
  have only : ∀ x, endpointReady (d.onSpi fun s => { s with input := [q] }) x = true → x = .spi := by
    intro x hx
    cases x with
    | ring j =>
      have stands : ((d.onSpi fun s => { s with input := [q] }).ring j).posted = [] := empty j
      simp [endpointReady, ringReady, stands] at hx
    | udp => simp [endpointReady, held] at hx
    | spi => rfl
  rw [queued, drainAll_of_one (d' := (d.onSpi fun s => { s with input := [q] }).onSpi fun s => { s with input := [] }) one free turn
    (by simp [endpointReady, room]) only rfl rfl]
  have same : ((d.onSpi fun s => { s with input := [q] }).onSpi fun s => { s with input := [] }) = d := by rw [← input]; rfl
  rw [same]
  rfl

/-! ## Arrival -/

/-- What a path that takes a packet has shown, the packet waiting alone. -/
theorem arrivalTaken_iff {p : Packet} : arrivalTaken p d = true ↔
    pathTakes p d = true ∧ takes d = true ∧ waitingPackets d = 0 ∧ p.len = 24 + p.paramLength := by
  simp [arrivalTaken, and_assoc]

/-- Host writes leave the rings. -/
theorem ring_hostWrites (cells : List (Nat × Byte)) (i : Nat) : (hostWrites cells d).ring i = d.ring i := rfl

/-- From command-ready on, a packet goes to its endpoint once what its host wrote before is in memory. -/
theorem arrive_of_ready (op : Nat) (p : Packet) (h : d.boot.ready = true) :
    arrive op p d =
      let e := hostWrites p.host d
      match p.endpoint with
      | .ring i =>
        let next := ((e.ring i).sqTail.toNat + 1) % (e.ring i).slots
        if (e.ring i).runs && next ≠ (e.ring i).sqHead.toNat then drainAll (e.onRing i (Ring.post (BitVec.ofNat 32 next) (asTaken op p p.time))) else e
      | .udp port addr _ => udpArrives port addr (asTaken op p p.time) e
      | .spi => spiArrives (asTaken op p p.time) e := by
  have ready : (hostWrites p.host d).boot.ready = true := h
  simp only [arrive, ready] <;> rfl

/-- A packet that is taken in the step of its arrival meets intake (R54, R61). -/
theorem arrive_of_arrivalTaken {op : Nat} {p : Packet} (h : arrivalTaken p d = true) : arrive op p d = intake (asTaken op p p.time) (pathTaken p d) := by
  obtain ⟨path, free, alone, len⟩ := arrivalTaken_iff.1 h
  have ready : d.boot.ready = true := by
    simp only [takes, Bool.and_eq_true] at free
    exact free.1.1.1.1
  rw [arrive_of_ready op p ready]
  cases he : p.endpoint with
  | ring i =>
    simp only [pathTakes, he, Bool.and_eq_true, beq_iff_eq, Bool.not_eq_true', decide_eq_true_eq, bne_iff_ne] at path
    obtain ⟨⟨⟨⟨⟨table, runs⟩, room⟩, reads⟩, turn⟩, slot⟩ := path
    simp only [pathTaken, slotPassed, turnsAfter, he, ring_hostWrites]
    exact (if_pos (Bool.and_eq_true_iff.2 ⟨runs, decide_eq_true slot⟩)).trans
      (drainAll_post (d := hostWrites p.host d) _ (asTaken op p p.time) free alone table runs room turn reads)
  | udp port addr up =>
    simp only [pathTakes, he, Bool.and_eq_true, beq_iff_eq, Bool.not_eq_true', Option.isNone_iff_eq_none] at path
    obtain ⟨⟨⟨⟨served, passes⟩, whole⟩, dest⟩, sound⟩ := path
    have arrives : udpArrives port addr (asTaken op p p.time) (hostWrites p.host d) = takeDatagram port (asTaken op p p.time) (hostWrites p.host d) := by
      have served' : bit (hostWrites p.host d).udp.ports port = true := served
      have passes' : udpPasses (hostWrites p.host d).udp addr = true := passes
      have whole' : (asTaken op p p.time).pkt.frag = none := whole
      simp [udpArrives, served', passes', whole']
    simp only [pathTaken, slotPassed, turnsAfter, he, arrives]
    exact takeDatagram_alone (d := hostWrites p.host d) (asTaken op p p.time) free alone he dest sound
  | spi =>
    simp only [pathTakes, he, Bool.and_eq_true, decide_eq_true_eq] at path
    obtain ⟨room, turn⟩ := path
    simp only [pathTaken, slotPassed, turnsAfter, he]
    exact spiArrives_alone (d := hostWrites p.host d) (asTaken op p p.time) free alone room turn len

end Sys2Proof.Machine
end

section
/-! PROOF. A packet that steps 1 to 7 accept is executed (R54 to R60), and what carrying it out comes to: an immediate command (steps 9 to 14), a
dry run, and a stageable command outside a transaction whose parts apply at once (R93, R98). -/

namespace Sys2Proof.Machine

variable {d : Dev}

/-! ## Steps 1 to 7 -/

/-- Steps 5 to 7: a packet that its session takes is executed. -/
theorem inSession_of_takes {q : Request} {x : Session} (hx : mapGet d.ctl.sessions (sessionIndex q.pkt.session) = some x)
    (takes_ : sessionTakes x q.pkt d = true) : inSession q d = execute q false (acceptedIn x q.pkt d) := by
  simp only [sessionTakes, Bool.and_eq_true, beq_iff_eq, decide_eq_true_eq, Option.isNone_iff_eq_none] at takes_
  obtain ⟨⟨⟨⟨⟨⟨id, endpoint⟩, lease⟩, low⟩, high⟩, new⟩, room⟩ := takes_
  have window : ¬(seqDistance q.pkt.seq x.h > 1024 ∨ seqDistance q.pkt.seq x.h ≤ -1024) := by omega
  have known : ¬(q.pkt.session ≠ sessionId (sessionIndex q.pkt.session) x.gen ∨ x.endpoint ≠ q.pkt.endpoint) := by
    simp only [ne_eq, not_or, not_not]
    exact ⟨id, endpoint⟩
  simp only [inSession, hx, acceptIn, new, Bool.or_eq_true, decide_eq_true_eq, if_neg known, if_neg window, if_neg (Nat.not_lt.2 lease), if_neg (Nat.not_le.2 room)]
  rfl

/-- Steps 1 to 5 of a sound packet: it reaches its session, or runs without one (R54, R64). -/
theorem intake_of_sound {op : Nat} {p : Packet} {t : Nat} (len : p.len = 24 + p.paramLength) (magic : p.magic = 0xB7E5) (fits : p.paramLength ≤ 4080)
    (crc : p.crc = packetCrc op p) (version : p.version = 1) :
    intake (asTaken op p t) d =
      let q := asTaken op p d.now
      let e := if bit p.flags 1 then count 0 3 1 d else d
      if p.session ≠ noSession then inSession q e
      else if op = 0x0001 || op = 0x0010 then execute q false e
      else answer q { status := 0x0201 } e := by
  have framed : (decide ((asTaken op p d.now).pkt.len < 24) || decide ((asTaken op p d.now).pkt.magic ≠ 0xB7E5)) = false := by
    simp [asTaken, len, magic]
  have whole : (decide ((asTaken op p d.now).pkt.paramLength > 4080) || decide ((asTaken op p d.now).pkt.paramLength + 24 ≠ (asTaken op p d.now).pkt.len)) = false := by
    simp [asTaken, len, fits, Nat.add_comm]
  have at_now : (asTaken op p t).at_ d.now = asTaken op p d.now := rfl
  have crc' : (asTaken op p d.now).pkt.crc = packetCrc (asTaken op p d.now).op (asTaken op p d.now).pkt := crc
  simp only [intake, at_now, framed, whole, ← crc', Bool.false_eq_true, if_false, ne_eq, not_true_eq_false]
  simp only [asTaken, version, not_true_eq_false, if_false]

/-- The path takes no time. -/
@[simp] theorem pathTaken_now (p : Packet) : (pathTaken p d).now = d.now := by
  simp only [pathTaken, Dev.onCtl_now, slotPassed]
  split <;> rfl

/-- A packet that steps 1 to 7 accept in the step of its arrival is that of its row's opcode, and is executed. -/
theorem arrive_of_accepted {c : Instr} {s : State} {q : Request} (h : accepted c s = some (q, d)) :
    ∃ op p, c.kievo = some (op, p) ∧ q = asTaken op p (s.dev.clock p.time).now ∧ arrive op p (s.dev.clock p.time) = execute q false d := by
  cases hk : c.kievo with
  | none => simp [accepted, hk] at h
  | some x =>
    obtain ⟨op, p⟩ := x
    simp only [accepted, hk] at h
    split at h
    · simp at h
    · next checks =>
      simp only [Bool.or_eq_true, Bool.not_eq_true', bne_iff_ne, decide_eq_true_eq, not_or, not_not, Bool.not_eq_false, Nat.not_lt] at checks
      obtain ⟨⟨⟨⟨arrives, magic⟩, fits⟩, crc⟩, version⟩ := checks
      obtain ⟨_, _, _, len⟩ := arrivalTaken_iff.1 arrives
      have at_intake := (arrive_of_arrivalTaken (op := op) arrives).trans (intake_of_sound len magic fits crc version)
      rw [pathTaken_now] at at_intake
      refine ⟨op, p, rfl, ?_⟩
      split at h
      · next sessionless =>
        split at h
        · next opens =>
          obtain ⟨rfl, rfl⟩ := Prod.mk.inj (Option.some.inj h)
          exact ⟨rfl, at_intake.trans (by simp only [sessionless, opens, ne_eq, not_true_eq_false, if_false, if_true]; rfl)⟩
        · simp at h
      · next inOne =>
        split at h
        · simp at h
        · next x hx =>
          split at h
          · next takes_ =>
            obtain ⟨rfl, rfl⟩ := Prod.mk.inj (Option.some.inj h)
            exact ⟨rfl, at_intake.trans (by simp only [ne_eq, inOne, not_false_eq_true, if_true]; exact inSession_of_takes hx takes_)⟩
          · simp at h

/-- An accepted packet is executed (R54). -/
theorem exec_of_accepted {c : Instr} {s : State} {q : Request} (h : accepted c s = some (q, d)) : exec c s = .next (s.set (execute q false d)) := by
  obtain ⟨op, p, hk, _, executed⟩ := arrive_of_accepted h
  rw [exec_kievo hk, always_eq, executed]

/-- An accepted packet with no host write to wait for is carried out from step 8 on, under its row's opcode. -/
theorem exec_of_taken {c : Instr} {s : State} {q : Request} (h : taken c s = some (q, d)) : exec c s = .next (s.set (executeNow q false d)) := by
  obtain ⟨ha, free⟩ := Option.filter_eq_some_iff.1 h
  rw [exec_of_accepted ha]
  have none_waits : (d.nvme.staged.filter fun w => w.nsid ∈ startsOn d q).isEmpty = true := free
  simp only [execute, none_waits, if_true]

/-- The request of a taken packet carries its row's opcode. -/
theorem op_of_taken {c : Instr} {s : State} {q : Request} {op : Nat} {p : Packet} (h : taken c s = some (q, d)) (hk : c.kievo = some (op, p)) :
    q.op = op := by
  obtain ⟨op', p', hk', rfl, _⟩ := arrive_of_accepted (Option.filter_eq_some_iff.1 h).1
  rw [hk] at hk'
  exact (Prod.mk.inj (Option.some.inj hk')).1.symm

/-! ## From step 8 on -/

/-- Steps 9 to 14 of a command that no check refuses. -/
theorem executeNow_of_accepted {q : Request} {sp : CmdSpec} {r : Rsp} {d' : Dev} (hs : commandSpec q.op = some sp)
    (hr : refusal d (contextOf d q) q sp = none) (hc : carryOut (contextOf d q) sp d = (d', some r)) : executeNow q false d = finish q false r d' := by
  simp only [executeNow, hs, hr, hc]

/-- A STREAM_ADMIT that is a dry run is answered and nothing else (R45, R574). -/
theorem carryOut_of_dryRun {q : Request} (sp : CmdSpec) (h : isDryRun q = true) :
    carryOut (contextOf d q) sp d = (d, some (dryRun (contextOf d q) d)) := by
  have dry : (decide ((contextOf d q).op = 0x0201) && bit (u16 (contextOf d q).b 2) 0) = true := h
  simp only [carryOut, dry, if_true]

/-- An immediate command that is not a dry run. -/
theorem carryOut_of_immediate {q : Request} {sp : CmdSpec} (hd : isDryRun q = false) (hs : sp.stageable (packetBody q.pkt) = false) :
    carryOut (contextOf d q) sp d = carryImmediate (contextOf d q) sp d := by
  have dry : (decide ((contextOf d q).op = 0x0201) && bit (u16 (contextOf d q).b 2) 0) = false := hd
  have now_ : sp.stageable (contextOf d q).b = false := hs
  simp only [carryOut, dry, now_, Bool.false_eq_true, if_false]

/-- A stageable command outside a transaction. -/
theorem carryOut_of_alone {q : Request} {sp : CmdSpec} (hd : isDryRun q = false) (hs : sp.stageable (packetBody q.pkt) = true) (ht : q.pkt.txn = 0) :
    carryOut (contextOf d q) sp d = commitOne (contextOf d q) sp d := by
  have dry : (decide ((contextOf d q).op = 0x0201) && bit (u16 (contextOf d q).b 2) 0) = false := hd
  have staged : sp.stageable (contextOf d q).b = true := hs
  have alone : (contextOf d q).txn = 0 := ht
  simp only [carryOut, dry, staged, alone, Bool.false_eq_true, if_false, if_true]

/-! ## Immediate commands -/

/-- What an immediate command has shown that passes every step of Table 3.2: it was taken on a module, and its effect meets that module, with
its admission noted where the command raises demand. -/
theorem of_immediate {c : Instr} {s : State} {sp : CmdSpec} {q : Request} (h : immediate c s sp = some (q, d)) :
    ∃ e, taken c s = some (q, e) ∧ refusal e (contextOf e q) q sp = none ∧ sp.stageable (packetBody q.pkt) = false ∧ isDryRun q = false
      ∧ stateRefusal e (contextOf e q) sp = none
      ∧ (sp.raises = false ∧ d = e ∨ sp.raises = true ∧ ∃ x, admission (contextOf e q) sp e = some x ∧ d = admitted x.1 e) := by
  cases ht : taken c s with
  | none => simp [immediate, ht] at h
  | some x =>
    obtain ⟨q', e⟩ := x
    simp only [immediate, ht] at h
    split at h
    · simp at h
    · next checks =>
      simp only [Bool.or_eq_true, Option.isSome_iff_ne_none, not_or, ne_eq, not_not, Bool.not_eq_true] at checks
      obtain ⟨⟨⟨accepts, stageable⟩, dry⟩, state⟩ := checks
      split at h
      · next raises =>
        obtain ⟨x, hx, he⟩ := Option.map_eq_some_iff.1 h
        obtain ⟨rfl, rfl⟩ := Prod.mk.inj he
        exact ⟨e, rfl, accepts, stageable, dry, state, .inr ⟨raises, x, hx, rfl⟩⟩
      · next raises =>
        obtain ⟨rfl, rfl⟩ := Prod.mk.inj (Option.some.inj h)
        exact ⟨_, rfl, accepts, stageable, dry, state, .inl ⟨by simpa using raises, rfl⟩⟩

/-- The module that an immediate command leaves after its effect, before its reply. -/
def afterAct (c : Ctx) (sp : CmdSpec) (d d' : Dev) : Dev := syncPool (claimTargets c.session sp (sp.targets d c.b) d')

/-- Step 14 of an immediate command that raises no demand. -/
theorem carryImmediate_of_act {c : Ctx} {sp : CmdSpec} {d' : Dev} {r : Rsp} (hs : stateRefusal d c sp = none) (hr : sp.raises = false)
    (ha : sp.act c d = (d', some r)) (good : r.good = true) : carryImmediate c sp d = (afterAct c sp d d', some r) := by
  simp only [carryImmediate, hs, hr, ha, good, afterAct, Bool.false_eq_true, if_false, if_true]

/-- Step 14 of an immediate command whose admission passes at the admission step in force. -/
theorem carryImmediate_of_admission {c : Ctx} {sp : CmdSpec} {d' : Dev} {r : Rsp} {x : Dev × Nat} (hs : stateRefusal d c sp = none)
    (hr : sp.raises = true) (hx : admission c sp d = some x) (ha : sp.act c (admitted x.1 d) = (d', some r)) (good : r.good = true) :
    carryImmediate c sp d = (afterAct c sp (admitted x.1 d) d', some r) := by
  simp only [admission] at hx
  split at hx
  · simp at hx
  · next deep =>
    split at hx
    · simp at hx
    · next v verdict =>
      split at hx
      · next fits =>
        obtain rfl := Option.some.inj hx
        simp only [admitted] at ha
        simp only [carryImmediate, hs, hr, deep, verdict, ha, good, afterAct, admitted, gt_iff_lt, Nat.not_lt.2 fits, Bool.false_eq_true, if_false, if_true]
      · simp at hx

/-- An immediate command that passes its checks and whose effect answers with a good status is carried out (R53, R73, R92). -/
theorem exec_of_immediate {c : Instr} {s : State} {sp : CmdSpec} {q : Request} {d' : Dev} {r : Rsp} (h : immediate c s sp = some (q, d))
    (hs : commandSpec q.op = some sp) (ha : sp.act (contextOf d q) d = (d', some r)) (good : r.good = true) :
    exec c s = .next (s.set (carried q sp d d' r)) := by
  obtain ⟨e, ht, accepts, stageable, dry, state, meets⟩ := of_immediate h
  have acts : carryImmediate (contextOf e q) sp e = (afterAct (contextOf e q) sp d d', some r) := by
    obtain ⟨raises, rfl⟩ | ⟨raises, x, hx, rfl⟩ := meets
    · exact carryImmediate_of_act state raises ha good
    · exact carryImmediate_of_admission state raises hx ha good
  rw [exec_of_taken ht, executeNow_of_accepted hs accepts ((carryOut_of_immediate dry stageable).trans acts)]
  rfl

/-- An immediate command runs where its row carries its opcode and its effect answers as named with a good status. -/
theorem runsWhere_of_act {mk : Packet → Instr} {sp : CmdSpec} {cond : Ctx → Dev → Prop} {eff : Ctx → Dev → Dev × Rsp} (op : Nat)
    (row : ∀ p, (mk p).kievo = some (op, p)) (hs : commandSpec op = some sp)
    (acts : ∀ c d, cond c d → sp.act c d = ((eff c d).1, some (eff c d).2) ∧ (eff c d).2.good = true) : RunsWhere mk sp cond eff := by
  intro p s q d h hc
  obtain ⟨e, ht, _⟩ := of_immediate h
  obtain ⟨act, good⟩ := acts _ _ hc
  exact exec_of_immediate h (by rw [op_of_taken ht (row p)]; exact hs) act good

/-- An immediate command that only answers. -/
theorem answers_of_act {mk : Packet → Instr} {sp : CmdSpec} {reply : Ctx → Dev → List Byte} (op : Nat) (row : ∀ p, (mk p).kievo = some (op, p))
    (hs : commandSpec op = some sp) (acts : ∀ c d, sp.act c d = (d, some (.ok (reply c d)))) : Answers mk sp reply :=
  runsWhere_of_act (cond := fun _ _ => True) (eff := fun c d => (d, .ok (reply c d))) op row hs fun c d _ => ⟨acts c d, rfl⟩

end Sys2Proof.Machine
end

section
/-! PROOF. A transaction of one command whose parts apply at once (R93, R94, R98, R99): nothing is timed, no check of Table 4.4 refuses, and the
commit is entered. -/

namespace Sys2Proof.Machine

variable {d : Dev}

/-! ## Noting an admission -/

/-- Noting an admission changes the fabric alone. -/
theorem admitted_eq (trial d : Dev) (kind : AdmitKind) : ∃ f, admitted trial d kind = d.onFabric f := by
  simp only [admitted, settleAdmission]
  split
  · exact ⟨_, rfl⟩
  · exact ⟨id, rfl⟩

/-- No timeline depends on the fabric (R94). -/
theorem keyTimeline_onFabric (f : Fabric → Fabric) (k : Nat) : keyTimeline (d.onFabric f) k = keyTimeline d k := rfl

/-! ## Checks of one command -/

/-- Neither of two answers is there. -/
theorem orElse_eq_none_iff {β : Type} {o : Option β} {f : Unit → Option β} : o.orElse f = none ↔ o = none ∧ f () = none := by
  cases o <;> simp [Option.orElse]

/-- A command that steps 9 to 13 do not refuse changes only objects that are unowned or its sender's (R73). -/
theorem ownerRefusal_of_refusal {c : Ctx} {q : Request} {sp : CmdSpec} (h : refusal d c q sp = none) :
    ownerRefusal d c.session (sp.targets d c.b) sp.device = none := by
  simp only [refusal] at h
  split at h
  · simp at h
  · split at h
    · simp at h
    · simp only [orElse_eq_none_iff] at h
      exact h.2.2.2

/-- Without the device's own owner check nothing more is refused. -/
theorem ownerRefusal_objects {session : Nat} {keys : List Nat} {device : Bool} (h : ownerRefusal d session keys device = none) :
    ownerRefusal d session keys false = none := by
  simp only [ownerRefusal] at h ⊢
  split at h
  · simp at h
  · simpa using h

/-- A staged command none of whose targets has a timeline. -/
def untimed (d : Dev) (s : Staged) : Prop := ∀ k ∈ stagedKeys d s, keyTimeline d k = .untimed

theorem stagedTimeline_of_untimed {s : Staged} (h : untimed d s) : stagedTimeline d s = (.untimed, 0) := by
  have none_timed : ((stagedKeys d s).find? fun k => keyTimeline d k ≠ .untimed) = none := by
    rw [List.find?_eq_none]
    intro k hk
    simp [h k hk]
  simp only [stagedTimeline, none_timed]

/-- A command other than SENSOR_REG_WRITE writes no sensor. -/
theorem groupWrites_of_ne {s : Staged} (h : s.op ≠ 0x0307) : groupWrites [s] = [] := by simp [groupWrites, indexed, h]

/-- A commit of one untimed command that writes no sensor has no anchor (R96). -/
theorem anchorOf_of_untimed {q : CommitRequest} {s : Staged} (hq : q.cmds = [s]) (ht : untimed d s) (hs : s.op ≠ 0x0307) :
    anchorOf d q = (.untimed, 0) := by
  simp [anchorOf, hq, stagedTimeline_of_untimed ht, groupWrites_of_ne hs]

/-- A commit of one untimed command that no check of Table 4.4 refuses, and whose load fits the admission step in force, passes. -/
theorem tryCommit_of_untimed {q : CommitRequest} {s : Staged} {x : Dev} {v : Nat} (one : Bool) (hq : q.cmds = [s]) (together : q.split = false)
    (fresh : q.versions = []) (unowned : q.owned = []) (ht : untimed d s) (hs : s.op ≠ 0x0307)
    (owner : ownerRefusal d q.ctx.session (stagedKeys d s) false = none) (checks : checkStaged q.ctx.sid q.txn [] d (baseDev d) s = .ok x)
    (admits : admitTest (baseDev d) x (wantsNoRaise [s]) (admitKind [s]) = .step v) (fits : v ≤ d.fabric.admStep) :
    tryCommit one q d =
      ((passCommit q none (admitted x d (admitKind [s]))).1, some (passCommit q none (admitted x d (admitKind [s]))).2) := by
  have anchor := anchorOf_of_untimed hq ht hs
  have no_span : ((indexed [s]).find? fun e => (stagedTimeline d e.2).1 ≠ .untimed && !locked d (stagedTimeline d e.2).1 .untimed) = none := by
    simp [indexed, stagedTimeline_of_untimed ht]
  have unchanged : ((indexed [s]).findSome? fun e => ((stagedKeys d e.2).find? fun k =>
      mapGetD ([] : NMap Nat) k (keyVersion d k) ≠ keyVersion d k).map fun k => (e.1, keyObj k)) = none := by
    simp [indexed, mapGetD, mapGet]
  have set_ok : checkSet q.ctx.sid q.txn [] d [s] 0 none (baseDev d) = .ok x := by simp only [checkSet, checks]
  have unforeign : ((indexed [s]).findSome? fun e => ((ownerRefusal d q.ctx.session (stagedKeys d e.2) false).orElse fun _ =>
      ((stagedKeys d e.2).find? fun k => k ∈ ([] : List Nat) && keyOwner d k ≠ some q.ctx.session).map fun k =>
        Rsp.notOwner (keyOwner d k)).map fun r => (e.1, r)) = none := by
    simp [indexed, owner]
  simp only [tryCommit, hq, anchor, together, fresh, unowned, groupWrites_of_ne hs, Bool.false_eq_true, if_false, no_span, unchanged, unforeign, set_ok, admits,
    gt_iff_lt, Nat.not_lt.2 fits, decide_true, Bool.true_or, if_true]
  rfl

/-- A commit with nothing timed and no sensor write answers in one step, with its epoch and no frame (Table 4.5). -/
theorem passCommit_reply {q : CommitRequest} (anchor : anchorOf d q = (.untimed, 0)) (groups : groupWrites q.cmds = []) :
    (passCommit q none d).2 = .ok (commitParams d.ctl.nextEpoch 0 0) := by
  simp only [passCommit, anchor, groups]
  rfl

/-! ## A stageable command outside a transaction -/

/-- What a stageable command has shown that commits at once: it was taken, no step of Table 3.2 and no check of Table 4.4 refuses it, nothing that it
changes has a timeline, and its load fits the admission step in force. -/
theorem of_atOnce {c : Instr} {s : State} {sp : CmdSpec} {q : Request} {x : Dev} (h : atOnce c s sp = some (q, d, x)) :
    taken c s = some (q, d) ∧ q.pkt.txn = 0 ∧ refusal d (contextOf d q) q sp = none ∧ sp.stageable (packetBody q.pkt) = true ∧ isDryRun q = false
      ∧ txnCount d < 32 ∧ q.op ≠ 0x0307 ∧ (∀ k ∈ sp.targets d (packetBody q.pkt), keyTimeline d k = .untimed)
      ∧ checkStaged q.pkt.session (takeTxn d).1 [] d (baseDev d) (asStaged q) = .ok x
      ∧ ∃ v, admitTest (baseDev d) x (wantsNoRaise [asStaged q]) (admitKind [asStaged q]) = .step v ∧ v ≤ d.fabric.admStep := by
  cases ht : taken c s with
  | none => simp [atOnce, ht] at h
  | some e =>
    obtain ⟨q', e⟩ := e
    simp only [atOnce, ht] at h
    split at h
    · next passes =>
      simp only [Bool.and_eq_true, Bool.not_eq_true', decide_eq_true_eq, Option.isNone_iff_eq_none, List.all_eq_true] at passes
      obtain ⟨⟨⟨⟨⟨⟨⟨alone, accepts⟩, stageable⟩, dry⟩, room⟩, _⟩, sensor⟩, still⟩ := passes
      split at h
      · simp at h
      · next trial checks =>
        split at h
        · simp at h
        · next v admits =>
          split at h
          · next fits =>
            obtain ⟨rfl, modules⟩ := Prod.mk.inj (Option.some.inj h)
            obtain ⟨rfl, rfl⟩ := Prod.mk.inj modules
            exact ⟨rfl, alone, accepts, stageable, dry, room, sensor, still, checks, v, admits, fits⟩
          · simp at h
    · simp at h

/-- A transaction of one untimed command that passes is entered, and answered with the command's own parameters, those of Table 4.5 and its number
(R93). The targets are assumed not to depend on the fabric, which an admission changes. -/
theorem commitOne_of_untimed {q : Request} {sp : CmdSpec} {x : Dev} {v : Nat} (spec : engineSpec q.op = some sp)
    (targets : ∀ (f : Fabric → Fabric) (b : List Byte), sp.targets (d.onFabric f) b = sp.targets d b) (accepts : refusal d (contextOf d q) q sp = none)
    (room : txnCount d < 32) (sensor : q.op ≠ 0x0307) (still : ∀ k ∈ sp.targets d (packetBody q.pkt), keyTimeline d k = .untimed)
    (checks : checkStaged q.pkt.session (takeTxn d).1 [] d (baseDev d) (asStaged q) = .ok x)
    (admits : admitTest (baseDev d) x (wantsNoRaise [asStaged q]) (admitKind [asStaged q]) = .step v) (fits : v ≤ d.fabric.admStep) :
    commitOne (contextOf d q) sp d = (committed q d x, some (commitAnswer q sp d x)) := by
  have keys : stagedKeys d (asStaged q) = sp.targets d (packetBody q.pkt) := by simp only [stagedKeys, asStaged, spec]
  have still' : untimed d (asStaged q) := fun k hk => still k (keys ▸ hk)
  have owner : ownerRefusal d (oneCommand q d).ctx.session (stagedKeys d (asStaged q)) false = none :=
    keys ▸ ownerRefusal_objects (ownerRefusal_of_refusal accepts)
  have passes := tryCommit_of_untimed (q := oneCommand q d) true rfl rfl rfl rfl still' sensor owner checks admits fits
  obtain ⟨f, noted⟩ := admitted_eq x d (admitKind [asStaged q])
  have still'' : untimed (d.onFabric f) (asStaged q) := fun k hk => by
    have same : stagedKeys (d.onFabric f) (asStaged q) = stagedKeys d (asStaged q) := by simp only [stagedKeys, asStaged, spec, targets]
    rw [keyTimeline_onFabric]
    exact still' k (same ▸ hk)
  have reply : (passCommit (oneCommand q d) none (admitted x d (admitKind [asStaged q]))).2 = .ok (commitParams d.ctl.nextEpoch 0 0) := by
    rw [noted, passCommit_reply (anchorOf_of_untimed rfl still'' sensor) (groupWrites_of_ne sensor)]
    rfl
  have request : CommitRequest.mk (takeTxn d).1 [⟨(contextOf d q).op, (contextOf d q).seq, (contextOf d q).b⟩] (24 + (contextOf d q).b.length) [] [] 0 false none
      (contextOf d q) = oneCommand q d := rfl
  simp only [commitOne, ge_iff_le, Nat.not_le.2 room, if_false, request, passes, reply]
  rfl

/-- A stageable command settles where its row carries its opcode, its targets do not depend on the fabric, and its effect is the one named. -/
theorem settles_of_settle {mk : Packet → Instr} {sp : CmdSpec} {eff : Ctx → Dev → Dev} (row : ∀ p, (mk p).kievo = some (sp.op, p))
    (command : commandSpec sp.op = some sp) (engine : engineSpec sp.op = some sp)
    (targets : ∀ (d : Dev) (f : Fabric → Fabric) (b : List Byte), sp.targets (d.onFabric f) b = sp.targets d b)
    (settle : ∀ c d, sp.settle c d = eff c d) : Settles mk sp eff where
  commits p s q d x h := by
    obtain ⟨ht, alone, accepts, stageable, dry, room, sensor, still, checks, v, admits, fits⟩ := of_atOnce h
    have op := op_of_taken ht (row p)
    have commits := commitOne_of_untimed (op ▸ engine) (targets d) accepts room sensor still checks admits fits
    rw [exec_of_taken ht, executeNow_of_accepted (op ▸ command) accepts ((carryOut_of_alone dry stageable alone).trans commits)]
  applies sid txn seq b d _ := by
    simp only [settleStaged, engine, stagedCtx, settle]

end Sys2Proof.Machine
end

section
/-! PROOF. Streams and admission (R44 to R47, R574): the commands of area 0x02, and O22. -/

namespace Sys2Proof.Machine

/-- STREAM_ADMIT with DRY_RUN changes nothing but its reply (R45, R574). -/
theorem exec_streamAdmit_dryRun {p : Packet} {s : State} {q : Request} {d : Dev} (ht : taken (.streamAdmit p) s = some (q, d))
    (accepts : refusal d (contextOf d q) q specStreamAdmit = none) (dry : bit (u16 (packetBody q.pkt) 2) 0 = true) :
    exec (.streamAdmit p) s = .next (s.set (finish q false (dryRun (contextOf d q) d) d)) := by
  have op : q.op = 0x0201 := op_of_taken ht rfl
  have isDry : isDryRun q = true := by simp [isDryRun, op, dry]
  rw [exec_of_taken ht, executeNow_of_accepted (by rw [op]; rfl) accepts (carryOut_of_dryRun _ isDry)]

/-- Settles O22: the two stageable commands settle as their spec records say, the dry run is answered alone, and the queries only answer. -/
theorem streamCommands : Obligations.StreamCommands := by
  unfold Obligations.StreamCommands
  refine ⟨?_, fun p s q d => exec_streamAdmit_dryRun, ?_, ?_, ?_, ?_⟩
  · exact settles_of_settle (fun _ => rfl) rfl rfl (fun _ _ _ => rfl) fun _ _ => rfl
  · exact settles_of_settle (fun _ => rfl) rfl rfl (fun _ _ _ => rfl) fun _ _ => rfl
  · exact answers_of_act 0x0200 (fun _ => rfl) rfl fun _ _ => rfl
  · exact answers_of_act 0x0203 (fun _ => rfl) rfl fun _ _ => rfl
  · exact answers_of_act 0x0204 (fun _ => rfl) rfl fun _ _ => rfl

end Sys2Proof.Machine
end

section
/-! PROOF. How a row of an engine is settled: by what `after` carries out on an awake module. -/

namespace Sys2Proof.Machine

/-- A row that is carried out by `after` happens as its effect does on the awake module. -/
theorem happens_of_after {mk : Nat → Instr} {cond : Dev → Prop} {eff f : Dev → Dev} (hexec : ∀ t s, exec (mk t) s = after t f s)
    (heff : ∀ d, cond d → f d = eff d) : Happens mk cond eff := fun s t d awake hc => by
  rw [hexec, after_awake awake, heff d hc]

end Sys2Proof.Machine
end

section
/-! PROOF. VCORE: what each of firmware's readings and time-outs does (R19, R23 to R26, R36, R37, R561), and O47. -/

namespace Sys2Proof.Machine

variable {d : Dev}

/-! ## VCORE -/

/-- A reading of the pacers while firmware runs (R23, R26). -/
theorem pacerReading_of_runs (l : List Nat) (h : firmwareRuns d = true) :
    pacerReading l d =
      let speeds := (List.range 12).map fun f => l.getD f 0
      let x := (indexed speeds).foldl (fun r e => readPacer e.1 e.2 r) (false, d)
      lowerStep (releaseExtra speeds (if x.1 then takeExtra x.2 else x.2)) := by
  simp [pacerReading, h]

/-- R25: the step that an admission waits for is confirmed. -/
theorem raiseConfirmed_of_confirms {v : Nat} {l : List Nat} {x : PendingRaise} (hr : d.fabric.raise = some x)
    (hc : confirms x.commanded x.step v l = true) :
    raiseConfirmed v l d =
      drainAll (execute x.request x.replay (d.onFabric fun f => { f with admStep := x.step, raise := none, vout := v, extraGoodSince := none })) := by
  simp [raiseConfirmed, hr, hc]

/-- A reading that no admission waits for. -/
theorem raiseConfirmed_of_none (v : Nat) (l : List Nat) (hr : d.fabric.raise = none) : raiseConfirmed v l d = stepConfirmed v l d := by
  simp [raiseConfirmed, hr]

/-- R25, R46: 5 ms pass without a confirmation of the step that an admission waits for. -/
theorem raiseTimedOut_of_late {x : PendingRaise} (hr : d.fabric.raise = some x) (ht : x.started + 5000000 ≤ d.now) :
    raiseTimedOut d =
      let why := (denial 11 4 x.step 0 x.step d.fabric.admStep).rsp
      let r := if x.request.op = 0x0101 then commitRefusal false [] none why else why
      let back := if d.fabric.extra then min 900 (d.fabric.admStep + 10) else d.fabric.admStep
      drainAll (finish x.request x.replay r (reopenTxn x.request r ((commandStep back 0 d).onFabric fun f => { f with raise := none }))) := by
  simp [raiseTimedOut, hr, Nat.not_lt.2 ht]

/-- A time-out with no admission waiting. -/
theorem raiseTimedOut_of_none (hr : d.fabric.raise = none) : raiseTimedOut d = stepReverted d := by
  simp [raiseTimedOut, hr]

/-- A reading of READ_VOUT and of the sensors while firmware runs (R36). -/
theorem voutPoll_of_runs (v : Nat) (tj a b : Int) (h : firmwareRuns d = true) :
    voutPoll v tj [a, b] d = judgeGuarantee (d.onFabric fun f => { f with vout := v, tj, stackTj := [a, b] }) := by
  simp [voutPoll, h]

/-- R37: a guarantee whose conditions have held again for 100 ms is restored. -/
theorem guaranteeRestored_of_held {since lapsed cause : Nat} (h : firmwareRuns d = true) (hl : d.fabric.lapse = some (lapsed, cause))
    (hg : d.fabric.goodSince = some since) (ht : since + 100000000 ≤ d.now) :
    guaranteeRestored d =
      raise 0x0283 0 0 (le 4 (min 4294967295 ((since - lapsed) / 1000))) (d.onFabric fun f => { f with lapse := none, goodSince := none }) := by
  simp [guaranteeRestored, h, hl, hg, ht]

/-- R561: an alert at least a second after the last VREG_ALERT raises it again. -/
theorem pmbAlert_of_due (word v i : Nat) (h : firmwareRuns d = true) (hdue : ∀ t, d.boot.vregEvent = some t → t + 1000000000 ≤ d.now) :
    pmbAlert word v i d = judgeGuarantee (raise 0x1283 3 0 (le 2 word ++ le 2 v ++ le 2 i ++ le 2 0)
      ((d.onBoot fun b => { b with vregUv := vregFaults word, iout := i, vregEvent := some d.now }).onFabric fun f => { f with vout := v })) := by
  cases hv : d.boot.vregEvent with
  | none => simp [pmbAlert, h, hv]
  | some t => simp [pmbAlert, h, hv, Nat.not_lt.2 (hdue t hv)]

/-- R561: within a second of the last VREG_ALERT only the readings change. -/
theorem pmbAlert_of_recent (word v i : Nat) {last : Nat} (h : firmwareRuns d = true) (hv : d.boot.vregEvent = some last)
    (ht : d.now < last + 1000000000) :
    pmbAlert word v i d =
      judgeGuarantee ((d.onBoot fun b => { b with vregUv := vregFaults word, iout := i }).onFabric fun f => { f with vout := v }) := by
  simp [pmbAlert, h, hv, ht]

/-- Settles O47: each row is carried out by `after`, and its case's lemma says what firmware does. -/
theorem vcoreRows : Obligations.VcoreRows := by
  unfold Obligations.VcoreRows
  refine ⟨fun l => ?_, fun v l x => ⟨?_, ?_, ?_⟩, ?_, fun v tj a b => ?_, fun lapsed cause since => ?_, fun word v i => ⟨?_, fun last => ?_⟩⟩
  · exact happens_of_after (fun _ _ => rfl) fun d h => pacerReading_of_runs l h
  · exact happens_of_after (fun _ _ => rfl) fun d ⟨h, hr, hc⟩ => by simp only [h, if_true, raiseConfirmed_of_confirms hr hc]
  · exact happens_of_after (fun _ _ => rfl) fun d ⟨h, hr⟩ => by simp only [h, if_true, raiseConfirmed_of_none v l hr]
  · exact happens_of_after (fun _ _ => rfl) fun d ⟨h, hr, ht⟩ => by simp only [h, if_true, raiseTimedOut_of_late hr ht]
  · exact happens_of_after (fun _ _ => rfl) fun d ⟨h, hr⟩ => by simp only [h, if_true, raiseTimedOut_of_none hr]
  · exact happens_of_after (fun _ _ => rfl) fun d h => voutPoll_of_runs v tj a b h
  · exact happens_of_after (fun _ _ => rfl) fun d ⟨h, hl, hg, ht⟩ => guaranteeRestored_of_held h hl hg ht
  · exact happens_of_after (fun _ _ => rfl) fun d ⟨h, hdue⟩ => pmbAlert_of_due word v i h hdue
  · exact happens_of_after (fun _ _ => rfl) fun d ⟨h, hv, ht⟩ => pmbAlert_of_recent word v i h hv ht

end Sys2Proof.Machine
end

section
/-! PROOF. The engines' jobs: tile-rows, bands, drills, tines, playback and access faults (chapters 02, 07, 10 to 12, 18 and 22), and O50. -/

namespace Sys2Proof.Machine

variable {d : Dev}

/-! ## Tile-rows (R28, R194) -/

/-- R28: a tile-row whose line has come and whose bands are settled goes to the drills. -/
theorem releaseRowOf_of_settled {n row t0 : Nat} {size : Nat × Nat} {w : FrameWork} (hw : rowWork d n row = some w) (hs : srcSize d n = some size)
    (ht : mapGet w.lineAt row = some t0) (hnow : t0 ≤ d.now) (hb : bandsSettled (d.stream n) w size row = true) :
    releaseRowOf n row d = queueRow n w row d := by
  simp [releaseRowOf, hw, hs, ht, hnow, hb]

/-- R194: when the wait for its bands ends, a tile-row goes without them. -/
theorem waitTimeout_of_late {n row t0 k : Nat} {w : FrameWork} {c : FurrowConfig} (hw : rowWork d n row = some w) (hc : furrowOf d n = some (k, c))
    (ht : mapGet w.lineAt row = some t0) (hnow : (if rowClass d n w = 0 then t0 + 150000 else t0 + (d.stream n).minPeriod) ≤ d.now) :
    waitTimeout n row d = queueRow n w row (forfeitBands n w c row d) := by
  simp only [waitTimeout, hw, hc, ht, hnow, if_true]

/-! ## Harrows (R186, R193) -/

/-- The oldest frame in flight whose field still waits for a band. -/
def bandWork (s : Stream) (band : Nat) : Option FrameWork :=
  s.work.find? fun w => !w.withdrawn && (match fieldOfWork s w with
    | some f => f.bands.getD band .written = .waiting
    | none => false)

/-- R186: a band that may be released is queued for the harrows. -/
theorem releaseBand_of_ready {n row span k : Nat} {c : FurrowConfig} {w : FrameWork} {f : MotionField} (hc : furrowOf d n = some (k, c))
    (hw : bandWork (d.stream n) (bandIndex c.width row span) = some w) (hf : fieldOfWork (d.stream n) w = some f)
    (hr : bandReady d n c w f row span = true) :
    releaseBand n row span d =
      queueBand { stream := n, frame := w.number, row, span, cls := (bandUrgency d n (c.width, c.height) w row).1
                  deadline := (bandUrgency d n (c.width, c.height) w row).2, laneFill := w.laneFill }
        (setBand n w (bandIndex c.width row span) .queued d) := by
  have unfolded : releaseBand n row span d = match bandWork (d.stream n) (bandIndex c.width row span) with
      | none => d
      | some w => match fieldOfWork (d.stream n) w with
        | none => d
        | some f =>
          if !bandReady d n c w f row span then d
          else queueBand { stream := n, frame := w.number, row, span, cls := (bandUrgency d n (c.width, c.height) w row).1
                           deadline := (bandUrgency d n (c.width, c.height) w row).2, laneFill := w.laneFill }
            (setBand n w (bandIndex c.width row span) .queued d) := by
    simp only [releaseBand, hc] <;> rfl
  simp [unfolded, hw, hf, hr]

/-- A harrow that completes its band takes the next. -/
theorem harrowDone_of_job {i : Nat} {j : BandJob} (hj : d.fabric.harrows.getD i none = some j) :
    harrowDone i d = dispatchHarrows (finishWork j.stream j.frame (noteMiss j.stream j.frame j.cls j.deadline
      (finishBand j (d.onFabric fun f => { f with harrows := f.harrows.set i none })))) := by
  simp only [harrowDone, hj]

/-! ## Drills (R33, R510, R511) -/

/-- The module with a drill's job taken off it and counted. -/
def drillFreed (i : Nat) (d : Dev) : Dev :=
  count (0xD000 + i) 0 1 (d.onFabric fun f => { f with drills := tabMod f.drills i fun x => { x with job := none } })

/-- A drill that finishes the job of a frame in flight writes its result. -/
theorem drillDone_of_work {i : Nat} {j : Job} {w : FrameWork} {size : Nat × Nat} (hj : (tabGet d.fabric.drills i).job = some j)
    (hw : workOf (drillFreed i d) j.stream j.frame = some w) (hs : srcSize (drillFreed i d) j.stream = some size) (hin : w.withdrawn = false) :
    drillDone i d =
      let e := runJob w size j (drillFreed i d)
      settleJob j (noteLate size.2 ((workOf e j.stream j.frame).getD w) j e) := by
  unfold drillFreed at hw hs
  simp [drillDone, hj, hw, hs, hin, drillFreed]

/-- The job of a withdrawn frame writes nothing (R154). -/
theorem drillDone_of_withdrawn {i : Nat} {j : Job} {w : FrameWork} {size : Nat × Nat} (hj : (tabGet d.fabric.drills i).job = some j)
    (hw : workOf (drillFreed i d) j.stream j.frame = some w) (hs : srcSize (drillFreed i d) j.stream = some size) (hout : w.withdrawn = true) :
    drillDone i d = settleJob j (drillFreed i d) := by
  unfold drillFreed at hw hs
  simp [drillDone, hj, hw, hs, hout, drillFreed]

/-- R510: a checker error on a drill with no job. -/
theorem drillTimeout_of_idle {i : Nat} (hl : (tabGet d.fabric.drills i).lost = false) (hj : (tabGet d.fabric.drills i).job = none) :
    drillTimeout i 0 d = loseDrill i 0 3 d := by
  simp [drillTimeout, hl, hj]

/-- R510, R511: a drill is lost and its job aborted. -/
theorem drillTimeout_of_job {i : Nat} {j : Job} (cause : Nat) (hl : (tabGet d.fabric.drills i).lost = false)
    (hj : (tabGet d.fabric.drills i).job = some j) : drillTimeout i cause d = abortJob 2 j (loseDrill i (min cause 1) j.cls d) := by
  simp [drillTimeout, hl, hj]

/-! ## Tines (R254, R298) -/

/-- A frame yields to live work at its first swath. -/
def yieldsToLive (e : Encoder) (f : EncFrame) (swath : Nat) (d : Dev) : Bool :=
  e.codec ≠ 0 && e.enc.cls = 2 && f.enc.liveYield && swath = 0 && liveTineLate d

theorem yieldsToLive_iff {e : Encoder} {f : EncFrame} {k : Nat} :
    yieldsToLive e f k d = true ↔ e.codec ≠ 0 ∧ e.enc.cls = 2 ∧ f.enc.liveYield = true ∧ k = 0 ∧ liveTineLate d = true := by
  simp [yieldsToLive, and_assoc]

/-- R254: the next swath of a session starts and its segments are queued for the tines, unless its frame yields to live work. -/
theorem releaseSwath_of_ready {n k : Nat} {e : Encoder} {f : EncFrame} (he : mapGet d.codecs.encoders n = some e)
    (hf : (e.frames.find? fun f => f.swaths.any fun x => !x.released) = some f) (hk : f.swaths.findIdx? (fun x => !x.released) = some k)
    (hr : swathReady d n e f k = true) :
    releaseSwath n k d =
      if yieldsToLive e f k d then yieldFrame n f d
      else
        let a := if f.activity.isEmpty then startFrame n e f d else (f, d)
        let b := startSwath n e.codec k a.1 a.2
        let d2 := onEncFrame n b.1.number (fun _ => b.1) b.2
        (List.range (b.1.segments e.codec)).foldl (fun d x =>
          queueTine { session := 0x5000 + n, frame := b.1.number, swath := k, segment := x, cls := b.1.cls e.codec
                      deadline := swathDeadline d2 e b.1 k, ref := encodeTime e.codec b.1.chroma (b.1.pixels e.codec k x) } d) d2 := by
  have due : (decide (f.swaths.findIdx? (fun x => !x.released) ≠ some k) || !swathReady d n e f k) = false := by simp [hk, hr]
  simp only [releaseSwath, he, hf, due, Bool.false_eq_true, if_false] <;> rfl

/-- R254, R298: a tine that finishes its job takes the next. -/
theorem tineDone_of_job {i : Nat} {j : TineJob} (r : TineResult) (hj : d.codecs.tines.getD i none = some j) :
    tineDone i r d =
      let e := d.onCodecs fun c => { c with tines := c.tines.set i none }
      dispatchTines (if objType j.session = 5 then encodeDone j r false e else decodeDone j r e) := by
  simp only [tineDone, hj]

/-! ## Access faults (R431) -/

/-- An access fault is told where its engine has work, and handled; a DMA channel tells its own. -/
theorem engineFault_eq (e : EngineRef) (k : AccessFault) (dva h : Nat) (d : Dev) :
    engineFault e k dva h d =
      let off := dva - (mappedPail d h).elim 0 fun x => x.2.dva
      match faultNote e k off h d with
      | some n => handleFault e k off h (pailFault n.engine (faultKind k) n.outcome dva h n.cls d)
      | none => match e with
        | .channel _ => handleFault e k off h d
        | _ => d := by
  unfold engineFault
  cases mappedPail d h <;> rfl

/-! ## Playback (R308) -/

/-- A playback stream's frame does not start before its instant. -/
theorem playbackFrame_of_early {m i start : Nat} {q : Decoder} (hq : playbackDecoder d m = some (i, q)) (hs : playbackStart (d.stream m) q = some start)
    (hnow : domainNow d q.domain < start + (d.stream m).frame * (d.stream m).minPeriod) : playbackFrame m d = d := by
  simp [playbackFrame, hq, hs, hnow]

/-- Settles O50: each row goes through the lemma of its engine; a playback frame that is due is formed as `playbackFrame` says. -/
theorem jobRows : Obligations.JobRows := by
  unfold Obligations.JobRows
  refine ⟨fun n row t0 w0 h0 w => ?_, fun n row t0 k w c => ?_, fun n row span k c w f => ?_, fun i j => ?_, fun i j w w0 h0 => ⟨?_, ?_, ?_, fun cause => ?_⟩,
    fun n k e f => ⟨?_, ?_⟩, fun i j r => ?_, fun n i start q => ⟨?_, ?_⟩, fun e k dva h => ?_⟩
  · exact happens_of_after (fun _ _ => rfl) fun d ⟨hw, hs, ht, hnow, hb⟩ => releaseRowOf_of_settled hw hs ht hnow hb
  · exact happens_of_after (fun _ _ => rfl) fun d ⟨hw, hc, ht, hnow⟩ => waitTimeout_of_late hw hc ht hnow
  · exact happens_of_after (fun _ _ => rfl) fun d ⟨hc, hw, hf, hr⟩ => releaseBand_of_ready hc hw hf hr
  · exact happens_of_after (fun _ _ => rfl) fun d hj => harrowDone_of_job hj
  · exact happens_of_after (fun _ _ => rfl) fun d ⟨hj, hw, hs, hin⟩ => drillDone_of_work hj hw hs hin
  · exact happens_of_after (fun _ _ => rfl) fun d ⟨hj, hw, hs, hout⟩ => drillDone_of_withdrawn hj hw hs hout
  · exact happens_of_after (fun _ _ => rfl) fun d ⟨hl, hj⟩ => drillTimeout_of_idle hl hj
  · exact happens_of_after (fun _ _ => rfl) fun d ⟨hl, hj⟩ => drillTimeout_of_job cause hl hj
  · refine happens_of_after (fun _ _ => rfl) fun d ⟨he, hf, hk, hr, hy⟩ => ?_
    rw [releaseSwath_of_ready he hf hk hr, if_neg (mt yieldsToLive_iff.1 hy)]
  · refine happens_of_after (fun _ _ => rfl) fun d ⟨he, hf, hk, hr, hy⟩ => ?_
    rw [releaseSwath_of_ready he hf hk hr, if_pos (yieldsToLive_iff.2 hy)]
  · exact happens_of_after (fun _ _ => rfl) fun d hj => tineDone_of_job r hj
  · exact happens_of_after (fun _ _ => rfl) fun d ⟨⟨hq, hs, _⟩, hnow⟩ => playbackFrame_of_early hq hs hnow
  · refine happens_of_after (fun _ _ => rfl) fun d ⟨⟨hq, hs, ha⟩, hdue⟩ => ?_
    have due : ¬domainNow d q.domain < start + (d.stream (16 + n.val)).frame * (d.stream (16 + n.val)).minPeriod := Nat.not_lt.2 hdue
    simp only [playbackFrame, hq, hs, ha, Nat.add_sub_cancel, due] <;> rfl
  · exact happens_of_after (fun _ _ => rfl) fun d _ => engineFault_eq e k dva h d

end Sys2Proof.Machine
end

section
/-! PROOF. Packets (R52, R54 to R60, R64, R85, R486): how a packet reaches intake, the acceptance order step by step, the sequence window, and what becomes
of a packet that is accepted: O8 to O15. -/

namespace Sys2Proof.Machine

variable {d : Dev} {q : Request}

/-! ## Arrival -/

/-- Before command-ready a packet is lost; what its host wrote is in memory (R543, R545, R546). -/
theorem arrive_of_not_ready (op : Nat) (p : Packet) (h : d.boot.ready = false) : arrive op p d = hostWrites p.host d := by
  have ready : (hostWrites p.host d).boot.ready = false := h
  simp only [arrive, ready, Bool.not_false, if_true]

/-- Settles O8: a packet that its path takes meets intake, and one before command-ready is lost. -/
theorem arrivingPacketReachesIntake : Obligations.ArrivingPacketReachesIntake := by
  unfold Obligations.ArrivingPacketReachesIntake
  refine ⟨fun c s op p hk arrives => ?_, fun c s op p hk waits => ?_⟩
  · rw [exec_kievo hk, always_eq, arrive_of_arrivalTaken arrives]
  · have early : (s.dev.clock p.time).boot.ready = false := waits
    rw [exec_kievo hk, always_eq, arrive_of_not_ready op p early]

/-! ## Steps 1 to 5 of Table 3.2 -/

/-- Step 1: the packet has a header's length and the magic number. -/
def Framed (p : Packet) : Prop := 24 ≤ p.len ∧ p.magic = 0xB7E5

/-- Step 2: its length is the one that its header names. -/
def Fits (p : Packet) : Prop := Framed p ∧ p.paramLength ≤ 4080 ∧ p.paramLength + 24 = p.len

/-- Step 3: its CRC is right. -/
def Whole (op : Nat) (p : Packet) : Prop := Fits p ∧ p.crc = packetCrc op p

/-- A framed packet with RETRY is counted (R51). -/
def retryCounted (p : Packet) (d : Dev) : Dev := if bit p.flags 1 then count 0 3 1 d else d

/-- Step 1: a packet that is not framed is discarded and counted. -/
theorem intake_of_unframed (h : ¬Framed q.pkt) : intake q d = count 0 0 1 d := by
  have short : q.pkt.len < 24 ∨ q.pkt.magic ≠ 0xB7E5 := by
    simpa only [Framed, not_and_or, Nat.not_le] using h
  have bad : (decide (q.pkt.len < 24) || decide (q.pkt.magic ≠ 0xB7E5)) = true := by simpa using short
  exact if_pos bad

/-- A framed packet goes on to steps 2 to 5, counted where it has RETRY. -/
theorem intake_of_framed (h : Framed q.pkt) :
    intake q d =
      if q.pkt.paramLength > 4080 || q.pkt.paramLength + 24 ≠ q.pkt.len then answer (q.at_ d.now) (.badLength 0xFFFF) (retryCounted q.pkt d)
      else if q.pkt.crc ≠ packetCrc q.op q.pkt then answer (q.at_ d.now) { status := 0x0101 } (retryCounted q.pkt d)
      else if q.pkt.version ≠ 1 then answer (q.at_ d.now) { status := 0x0106, detail := 1 } (retryCounted q.pkt d)
      else if q.pkt.session ≠ noSession then inSession (q.at_ d.now) (retryCounted q.pkt d)
      else if q.op = 0x0001 || q.op = 0x0010 then execute (q.at_ d.now) false (retryCounted q.pkt d)
      else answer (q.at_ d.now) { status := 0x0201 } (retryCounted q.pkt d) := by
  obtain ⟨len, magic⟩ := h
  have framed : ¬(decide (q.pkt.len < 24) || decide (q.pkt.magic ≠ 0xB7E5)) = true := by simp [Nat.not_lt.2 len, magic]
  exact if_neg framed

/-- A packet of the right length passes step 2. -/
theorem passesLength_of_fits {p : Packet} (h : Fits p) : ¬(decide (p.paramLength > 4080) || decide (p.paramLength + 24 ≠ p.len)) = true := by
  obtain ⟨_, room, len⟩ := h
  simp [room, len]

/-- Step 2: a packet of another length than its header names is answered BAD_LENGTH. -/
theorem intake_of_misfit (framed : Framed q.pkt) (h : ¬Fits q.pkt) : intake q d = answer (q.at_ d.now) (.badLength 0xFFFF) (retryCounted q.pkt d) := by
  have unequal : q.pkt.paramLength ≤ 4080 → q.pkt.paramLength + 24 ≠ q.pkt.len := fun room len => h ⟨framed, room, len⟩
  rw [intake_of_framed framed, if_pos]
  simpa only [Bool.or_eq_true, decide_eq_true_eq, gt_iff_lt, ← Nat.not_le, ← imp_iff_not_or] using unequal

/-- Step 3: a packet whose CRC is wrong is answered BAD_CRC. -/
theorem intake_of_badCrc (fits : Fits q.pkt) (h : ¬Whole q.op q.pkt) : intake q d = answer (q.at_ d.now) { status := 0x0101 } (retryCounted q.pkt d) := by
  rw [intake_of_framed fits.1, if_neg (passesLength_of_fits fits), if_pos fun crc => h ⟨fits, crc⟩]

/-- Step 4: a packet of another version is answered with the version that there is. -/
theorem intake_of_otherVersion (whole : Whole q.op q.pkt) (h : q.pkt.version ≠ 1) :
    intake q d = answer (q.at_ d.now) { status := 0x0106, detail := 1 } (retryCounted q.pkt d) := by
  obtain ⟨fits, crc⟩ := whole
  rw [intake_of_framed fits.1, if_neg (passesLength_of_fits fits), if_neg (not_not.2 crc), if_pos h]

/-- Step 5: a sound packet without a session runs if it is OPEN_SESSION or QUERY_DEVICE, and is refused otherwise (R64). -/
theorem intake_of_sessionless (whole : Whole q.op q.pkt) (version : q.pkt.version = 1) (h : q.pkt.session = noSession) :
    intake q d =
      if q.op = 0x0001 ∨ q.op = 0x0010 then execute (q.at_ d.now) false (retryCounted q.pkt d)
      else answer (q.at_ d.now) { status := 0x0201 } (retryCounted q.pkt d) := by
  obtain ⟨fits, crc⟩ := whole
  rw [intake_of_framed fits.1, if_neg (passesLength_of_fits fits), if_neg (not_not.2 crc), if_neg (not_not.2 version), if_neg (not_not.2 h)]
  simp only [Bool.or_eq_true, decide_eq_true_eq]

/-- Step 5: a sound packet that names a session reaches it. -/
theorem intake_of_session (whole : Whole q.op q.pkt) (version : q.pkt.version = 1) (h : q.pkt.session ≠ noSession) :
    intake q d = inSession (q.at_ d.now) (retryCounted q.pkt d) := by
  obtain ⟨fits, crc⟩ := whole
  rw [intake_of_framed fits.1, if_neg (passesLength_of_fits fits), if_neg (not_not.2 crc), if_neg (not_not.2 version), if_pos h]

/-- A session that is neither open nor a tombstone is answered NO_SESSION (R65, R70). -/
theorem inSession_of_unknown (shut : mapGet d.ctl.sessions (sessionIndex q.pkt.session) = none)
    (forgotten : mapGet d.ctl.tombs (sessionIndex q.pkt.session) = none) : inSession q d = answer q { status := 0x0201 } d := by
  simp only [inSession, shut, forgotten]

/-- Settles O9, one lemma for each step of Table 3.2. -/
theorem acceptanceOrder : Obligations.AcceptanceOrder := by
  unfold Obligations.AcceptanceOrder
  intro q d
  exact ⟨intake_of_unframed, intake_of_misfit, intake_of_badCrc, intake_of_otherVersion,
    fun whole version none_named opens => (intake_of_sessionless whole version none_named).trans (if_pos opens),
    fun whole version none_named other => (intake_of_sessionless whole version none_named).trans (if_neg other),
    fun whole version named shut forgotten => (intake_of_session whole version named).trans (inSession_of_unknown shut forgotten)⟩

/-- Settles O10: step 5 of a sound packet without RETRY. -/
theorem sessionlessOpcodes : Obligations.SessionlessOpcodes := by
  unfold Obligations.SessionlessOpcodes
  intro q d len magic first fits crc version session
  have whole : Whole q.op q.pkt := ⟨⟨⟨by omega, magic⟩, fits, by omega⟩, crc⟩
  have uncounted : retryCounted q.pkt d = d := by simp [retryCounted, first]
  rw [intake_of_sessionless whole version session, uncounted]

/-! ## Steps 6 and 7: the sequence window -/

/-- A sequence number lies out of a session's window (R57). -/
abbrev OutOfWindow (x : Session) (seq : Nat) : Prop := seqDistance seq x.h > 1024 ∨ seqDistance seq x.h ≤ -1024

/-- R57: a number out of the window is answered with h. -/
theorem acceptIn_of_outside {x : Session} (i : Nat) (h : OutOfWindow x q.pkt.seq) :
    acceptIn i x q d = answer q { status := 0x0104, params := le 4 x.h } (count (sessionObj i) 2 1 d) := by
  simp only [acceptIn, Bool.or_eq_true, decide_eq_true_eq, if_pos h]

/-- R58, R59: a number that was accepted before is counted, and answered DUPLICATE once its reply exists. -/
theorem acceptIn_of_known {x : Session} {r : SeqRec} (i : Nat) (window : ¬OutOfWindow x q.pkt.seq)
    (known : (x.recs.find? fun r => r.seq = q.pkt.seq) = some r) :
    acceptIn i x q d =
      if r.done then answer q { status := 0x0105, detail := r.status
                                params := le 2 r.detail ++ le 2 (boolNat r.cached.isNone) ++ r.cached.getD [] } (count (sessionObj i) 1 1 d)
      else count (sessionObj i) 1 1 d := by
  simp only [acceptIn, Bool.or_eq_true, decide_eq_true_eq, if_neg window, known]
  cases r.done <;> rfl

/-- R60: beyond 64 outstanding requests a new one is refused and not recorded. -/
theorem acceptIn_of_full {x : Session} (i : Nat) (window : ¬OutOfWindow x q.pkt.seq) (new : (x.recs.find? fun r => r.seq = q.pkt.seq) = none)
    (full : 64 ≤ x.recs.countP fun r => !r.done) : acceptIn i x q d = answer q (.busy 1) d := by
  simp only [acceptIn, Bool.or_eq_true, decide_eq_true_eq, if_neg window, new, ge_iff_le, if_pos full]

/-- R57: any other number is entered, and its request executed. -/
theorem acceptIn_of_new {x : Session} (i : Nat) (window : ¬OutOfWindow x q.pkt.seq) (new : (x.recs.find? fun r => r.seq = q.pkt.seq) = none)
    (room : (x.recs.countP fun r => !r.done) < 64) :
    acceptIn i x q d = execute q false (count (sessionObj i) 0 1
      (d.onCtl fun c => { c with sessions := mapSet c.sessions i (acceptSeq q.pkt.seq x) })) := by
  simp only [acceptIn, Bool.or_eq_true, decide_eq_true_eq, if_neg window, new, ge_iff_le, if_neg (Nat.not_le.2 room)]

/-- Settles O11: the three cases of the window. -/
theorem duplicatesNeverRunAgain : Obligations.DuplicatesNeverRunAgain := by
  unfold Obligations.DuplicatesNeverRunAgain
  intro i x q d
  exact ⟨acceptIn_of_outside i, fun window _ known => acceptIn_of_known i window known, fun window new room => acceptIn_of_new i window new room⟩

/-- Settles O12: the limit of the outstanding requests comes before a number is entered. -/
theorem outstandingRequestsAreBounded : Obligations.OutstandingRequestsAreBounded := by
  unfold Obligations.OutstandingRequestsAreBounded
  intro i x q d window new full
  exact acceptIn_of_full i window new full

/-! ## From step 8 on -/

/-- A request that starts a recording waits where host writes to its reels are not durable (R486). -/
theorem execute_of_waits {replay : Bool} (h : writesBefore q d ≠ []) :
    execute q replay d = d.onMag fun m => { m with startWait := some (q, replay, (writesBefore q d).map (·.order)) } := by
  have some_wait : ¬(d.nvme.staged.filter fun w => w.nsid ∈ startsOn d q).isEmpty = true := by
    rw [List.isEmpty_iff]
    exact h
  simp only [execute, if_neg some_wait]
  rfl

/-- A request that waits for no host write is taken. -/
theorem taken_of_accepted {c : Instr} {s : State} (h : accepted c s = some (q, d)) (free : writesBefore q d = []) : taken c s = some (q, d) := by
  simp [taken, h, free]

/-- R85: an opcode outside Table 3.13 is refused. -/
theorem executeNow_of_unknown {replay : Bool} (h : commandSpec q.op = none) : executeNow q replay d = finish q replay { status := 0x0103 } d := by
  simp only [executeNow, h]

/-- Steps 9 to 13: a refused command leaves its refusal's reply (R55). -/
theorem executeNow_of_refused {sp : CmdSpec} {r : Rsp} {replay : Bool} (hs : commandSpec q.op = some sp)
    (hr : refusal d (contextOf d q) q sp = some r) : executeNow q replay d = finish q replay r d := by
  simp only [executeNow, hs, hr]

/-- Settles O13: an accepted packet is executed, at once or when no host write is waited for. -/
theorem acceptedPacketIsExecuted : Obligations.AcceptedPacketIsExecuted := by
  unfold Obligations.AcceptedPacketIsExecuted
  refine ⟨fun c s q d h free => exec_of_taken (taken_of_accepted h free), fun c s q d h waits => ?_, fun op p s q d ht unknown => ?_⟩
  · rw [exec_of_accepted h, execute_of_waits waits]
  · rw [exec_of_taken ht, executeNow_of_unknown (by rw [op_of_taken ht rfl]; exact unknown)]

/-- Settles O14: whatever the command, a refusal of steps 9 to 13 comes before its effect. -/
theorem refusedCommandHasNoEffect : Obligations.RefusedCommandHasNoEffect := by
  unfold Obligations.RefusedCommandHasNoEffect
  intro c s q d sp r ht hs hr
  rw [exec_of_taken ht, executeNow_of_refused hs hr]

/-- Settles O15, by the general form of an immediate command. -/
theorem immediateCommandIsCarriedOut : Obligations.ImmediateCommandIsCarriedOut := by
  unfold Obligations.ImmediateCommandIsCarriedOut
  exact fun c s q d d' sp r => exec_of_immediate

end Sys2Proof.Machine
end

section
/-! PROOF. Sessions and ownership (R63 to R74, R418, R572): the commands of area 0x00, and O19 and O20. -/

namespace Sys2Proof.Machine

variable {d : Dev}

/-! ## Commands whose effect refuses -/

/-- An immediate command whose effect answers with an error leaves what its effect leaves: it claims nothing and no version moves (R55). -/
theorem exec_of_immediate_refused {c : Instr} {s : State} {sp : CmdSpec} {q : Request} {d' : Dev} {r : Rsp} (h : immediate c s sp = some (q, d))
    (hs : commandSpec q.op = some sp) (raises : sp.raises = false) (ha : sp.act (contextOf d q) d = (d', some r)) (bad : r.good = false) :
    exec c s = .next (s.set (finish q false r d')) := by
  obtain ⟨e, ht, accepts, stageable, dry, state, ⟨_, rfl⟩ | ⟨rises, _⟩⟩ := of_immediate h
  · have acts : carryImmediate (contextOf d q) sp d = (d', some r) := by
      simp only [carryImmediate, state, raises, ha, bad, Bool.false_eq_true, if_false]
    rw [exec_of_taken ht, executeNow_of_accepted hs accepts ((carryOut_of_immediate dry stageable).trans acts)]
  · rw [raises] at rises
    cases rises

/-- The request of an immediate command carries its row's opcode. -/
theorem op_of_immediate {c : Instr} {s : State} {sp : CmdSpec} {q : Request} {op : Nat} {p : Packet} (h : immediate c s sp = some (q, d))
    (hk : c.kievo = some (op, p)) : q.op = op := by
  obtain ⟨e, ht, _⟩ := of_immediate h
  exact op_of_taken ht hk

/-- An immediate command of a fixed row, refused by its effect with nothing changed, leaves its answer alone. -/
theorem exec_of_answered {mk : Packet → Instr} {sp : CmdSpec} (op : Nat) (row : ∀ p, (mk p).kievo = some (op, p)) (hs : commandSpec op = some sp)
    (raises : sp.raises = false) {p : Packet} {s : State} {q : Request} {r : Rsp} (h : immediate (mk p) s sp = some (q, d))
    (ha : sp.act (contextOf d q) d = (d, some r)) (bad : r.good = false) : exec (mk p) s = .next (s.set (finish q false r d)) :=
  exec_of_immediate_refused h (by rw [op_of_immediate h (row p)]; exact hs) raises ha bad

/-! ## Sessions -/

/-- The session that OPEN_SESSION opens at an index, with its lease as asked for or 2 s (R63, R66). -/
def openedSession (i : Nat) (c : Ctx) (d : Dev) : Session :=
  let gen := nextGeneration d i
  let lease := if u32 c.b 8 = 0 then 2000 else u32 c.b 8
  { gen, endpoint := c.endpoint, nonce := u64 c.b 0, leaseMs := lease, policy := u16 c.b 12, name := slice c.b 16 16
    deadline := d.now + lease * 1000000, h := c.seq, recs := [{ seq := c.seq, done := true }]
    openParams := le 2 (sessionId i gen) ++ le 2 0 ++ le 4 lease ++ le 4 c.seq ++ le 2 4080 ++ le 2 64, cursor := d.events.next }

/-- R66: with a new nonce and a free index the session opens there. -/
theorem openSession_act_of_new {c : Ctx} {i : Nat} (new : sameNonce d c.endpoint (u64 c.b 0) = none) (index : newSessionIndex d = some i) :
    specOpenSession.act c d =
      (raise 0x0080 0 (sessionObj i) (le 2 (sessionId i (nextGeneration d i)) ++ endpointBytes c.endpoint)
        ((clearCounters (sessionObj i) d).onCtl fun x =>
          { x with sessions := mapSet x.sessions i (openedSession i c d), tombs := mapDel x.tombs i
                   generations := mapSet x.generations i (nextGeneration d i) }),
       some (.ok (openedSession i c d).openParams)) := by
  simp only [specOpenSession, new, index]
  rfl

/-- R67: with the nonce of an open session of the endpoint the original reply is repeated. -/
theorem openSession_act_of_same {c : Ctx} {x : Session} (same : sameNonce d c.endpoint (u64 c.b 0) = some x) :
    specOpenSession.act c d = (d, some { status := 0x0105, params := le 2 0 ++ le 2 0 ++ x.openParams }) := by
  simp only [specOpenSession, same]

/-- Settles O19: each command's effect is that of its spec record; a repeated OPEN_SESSION is answered alone. -/
theorem sessionCommands : Obligations.SessionCommands := by
  unfold Obligations.SessionCommands
  refine ⟨fun i => ?_, fun p s q d x h same => ?_, ?_, ?_, ?_, ?_⟩
  · exact runsWhere_of_act 0x0001 (fun _ => rfl) rfl fun c d ⟨new, index⟩ => ⟨openSession_act_of_new new index, rfl⟩
  · exact exec_of_answered 0x0001 (fun _ => rfl) rfl rfl h (openSession_act_of_same same) rfl
  · exact runsWhere_of_act 0x0002 (fun _ => rfl) rfl fun _ _ _ => ⟨rfl, rfl⟩
  · exact answers_of_act 0x0003 (fun _ => rfl) rfl fun _ _ => rfl
  · exact answers_of_act 0x0007 (fun _ => rfl) rfl fun _ _ => rfl
  · exact answers_of_act 0x0010 (fun _ => rfl) rfl fun _ _ => rfl

/-! ## Ownership -/

/-- OBJ_CLAIM with FORCE from the session that owns the device (R74). -/
def forcesClaim (c : Ctx) (d : Dev) : Bool := bit (u16 c.b 2) 0 && keyOwner d 0 = some c.session

/-- The first listed object that another session owns, and that session. -/
def firstTaken (c : Ctx) (d : Dev) : Option (Nat × Nat) :=
  (indexed (claimList c.b)).findSome? fun e => (otherOwner d c.session e.2).map fun w => (e.1, w)

/-- The first listed object that is not the sender's, and its owner. -/
def firstForeign (c : Ctx) (d : Dev) : Option (Nat × Option Nat) :=
  (indexed (claimList c.b)).findSome? fun e => ((objKeys d e.2).find? fun k => keyOwner d k ≠ some c.session).map fun k => (e.1, keyOwner d k)

/-- R74: every listed object is claimed where FORCE holds or no other session owns one. -/
theorem objClaim_act_of_free {c : Ctx} (h : forcesClaim c d = true ∨ firstTaken c d = none) :
    specObjClaim.act c d = (((claimList c.b).flatMap (objKeys d)).foldl (fun d k => setOwner k (some c.session) d) d, some .ok) := by
  have none_refuses : (if forcesClaim c d then none else firstTaken c d) = none := by
    rcases h with force | free
    · rw [if_pos force]
    · rw [free, ite_self]
  unfold forcesClaim firstTaken at none_refuses
  simp only [specObjClaim, none_refuses]

/-- R74: without FORCE nothing is claimed where another session owns a listed object. -/
theorem objClaim_act_of_taken {c : Ctx} {i w : Nat} (force : forcesClaim c d = false) (h : firstTaken c d = some (i, w)) :
    specObjClaim.act c d = (d, some { status := 0x0601, detail := sessionObj w, params := le 2 i }) := by
  unfold forcesClaim at force
  unfold firstTaken at h
  simp only [specObjClaim, force, h, Bool.false_eq_true, if_false]

/-- R572: every listed object is left unowned where the sender owns them all. -/
theorem objRelease_act_of_own {c : Ctx} (h : firstForeign c d = none) :
    specObjRelease.act c d = (((claimList c.b).flatMap (objKeys d)).foldl (fun d k => setOwner k none d) d, some .ok) := by
  unfold firstForeign at h
  simp only [specObjRelease, h]

/-- R572: nothing is released where a listed object is not the sender's. -/
theorem objRelease_act_of_foreign {c : Ctx} {i : Nat} {w : Option Nat} (h : firstForeign c d = some (i, w)) :
    specObjRelease.act c d = (d, some { Rsp.notOwner w with params := le 2 i }) := by
  unfold firstForeign at h
  simp only [specObjRelease, h]

/-- Settles O20: both outcomes of OBJ_CLAIM and of OBJ_RELEASE, and the query. -/
theorem ownershipCommands : Obligations.OwnershipCommands := by
  unfold Obligations.OwnershipCommands
  refine ⟨?_, fun p s q d i w h force taken => ?_, ?_, fun p s q d i w h foreign => ?_, ?_⟩
  · exact runsWhere_of_act 0x0004 (fun _ => rfl) rfl fun c d free => ⟨objClaim_act_of_free free, rfl⟩
  · exact exec_of_answered 0x0004 (fun _ => rfl) rfl rfl h (objClaim_act_of_taken force taken) rfl
  · exact runsWhere_of_act 0x0005 (fun _ => rfl) rfl fun c d own => ⟨objRelease_act_of_own own, rfl⟩
  · exact exec_of_answered 0x0005 (fun _ => rfl) rfl rfl h (objRelease_act_of_foreign foreign) rfl
  · exact answers_of_act 0x0006 (fun _ => rfl) rfl fun _ _ => rfl

end Sys2Proof.Machine
end

section
/-! PROOF. What reset leaves (Table 3.8, R75) and the packet's CRC (R52): O3 and O7. -/

namespace Sys2Proof

/-- Every entry of a table of equal entries. -/
theorem tabGet_replicate {β : Type} [Inhabited β] {n i : Nat} (x : β) (h : i < n) : tabGet (List.replicate n x) i = x := by
  simp [tabGet, List.getD, h]

end Sys2Proof

namespace Sys2Proof.Machine

/-! ## Reset -/

/-- After reset every ring is as its declaration says. -/
theorem reset_ring {i : Nat} (h : i < 16) : State.reset.dev.ring i = {} := tabGet_replicate (n := 16) ({} : Ring) h

/-- After reset every stream is as its declaration says. -/
theorem reset_stream {n : Nat} (h : n < 24) : State.reset.dev.stream n = {} := tabGet_replicate (n := 24) ({} : Stream) h

/-- After reset every DMA channel is as its declaration says. -/
theorem reset_channel {c : Nat} (h : c < 64) : State.reset.dev.channel c = {} := tabGet_replicate (n := 64) ({} : Channel) h

/-- A word of ring `i`'s block in BAR0 is read from that ring (Table 3.9). -/
theorem bar0Read_ring (d : Dev) {i off : Nat} (hi : i < 16) (ho : off < 64) : bar0Read d (0x1000 + 64 * i + off) = ringRead (d.ring i) off := by
  have below : ¬(0x8000 ≤ 0x1000 + 64 * i + off ∧ 0x1000 + 64 * i + off < 0x8130) := by omega
  have apart : ¬(0x9000 ≤ 0x1000 + 64 * i + off ∧ 0x1000 + 64 * i + off < 0x9008) := by omega
  have inside : 0x1000 ≤ 0x1000 + 64 * i + off ∧ 0x1000 + 64 * i + off < 0x1400 := by omega
  have block : (0x1000 + 64 * i + off - 0x1000) / 64 = i := by omega
  have word : (0x1000 + 64 * i + off - 0x1000) % 64 = off := by omega
  simp only [bar0Read, if_neg below, if_neg apart, if_pos inside, block, word]
  rfl

/-- Every word of a ring that was never set up reads as 0. -/
theorem ringRead_empty (off : Nat) : ringRead {} off = 0 := by
  unfold ringRead
  split <;> rfl

/-- Settles O3: the tables are read entry by entry; everything else stands at its declared value. -/
theorem resetLeavesManualValues : Obligations.ResetLeavesManualValues := by
  unfold Obligations.ResetLeavesManualValues
  refine ⟨rfl, ⟨rfl, rfl, rfl, rfl, rfl, rfl, rfl, rfl, rfl, rfl⟩, fun i hi k hk => ?_, rfl, rfl, rfl, rfl, fun n hn => ?_, rfl, rfl, rfl,
    fun c hc => ?_, rfl, rfl, rfl⟩
  · rw [bar0Read_ring _ hi (by omega), reset_ring hi, ringRead_empty]
  · rw [reset_stream hn]
    exact ⟨rfl, rfl, rfl, rfl⟩
  · rw [reset_channel hc]
    exact ⟨rfl, rfl, rfl, rfl⟩

/-! ## The packet's CRC -/

/-- The check value of CRC-32C, that of the nine digits. -/
theorem crc32c_nine_digits : crc32c ((List.range 9).map fun k => byte (0x31 + k)) = 0xE3069283 := by decide +kernel

/-- Settles O7. -/
theorem packetCrcIsCastagnoli : Obligations.PacketCrcIsCastagnoli := by
  unfold Obligations.PacketCrcIsCastagnoli
  exact ⟨crc32c_nine_digits, fun _ _ => rfl⟩

end Sys2Proof.Machine
end

section
/-! PROOF. The transports (R75 to R83, R545): BAR0, the SPI target with its boot ROM commands, and the timers of sessions, transactions and
reassembly (R68 to R70, R80, R110): O40, O41 and O46. -/

namespace Sys2Proof.Machine

variable {d : Dev}

/-- A row that a thermal trip does not stop happens as its effect does. -/
theorem happensAlways_of_always {mk : Nat → Instr} {cond : Dev → Prop} {eff f : Dev → Dev} (hexec : ∀ t s, exec (mk t) s = always t f s)
    (heff : ∀ d, cond d → f d = eff d) : HappensAlways mk cond eff := fun s t hc => by
  rw [hexec, always_eq, heff _ hc]

/-! ## The SPI target (R82, R83) -/

/-- WRITE_PACKET that is shorter than a header is discarded. -/
theorem spiWrite_of_short {bs : List Byte} (ready : d.boot.ready = true) (short : bs.length < 24) :
    spiWrite bs d = spiDiscard (clockOut (List.replicate bs.length 0xFF) d) := by
  have ready' : (clockOut (List.replicate bs.length 0xFF) d).boot.ready = true := ready
  simp only [spiWrite, ready', short, Bool.not_true, Bool.false_eq_true, if_false, if_true]

/-- WRITE_PACKET with a header takes the rest as its parameters. -/
theorem spiWrite_of_header {bs : List Byte} (ready : d.boot.ready = true) (long : 24 ≤ bs.length) :
    spiWrite bs d =
      let q := slotRequest bs
      spiArrives { q with pkt := { q.pkt with len := bs.length, time := d.now, endpoint := .spi, params := bs.drop 24 } }
        (clockOut (List.replicate bs.length 0xFF) d) := by
  have ready' : (clockOut (List.replicate bs.length 0xFF) d).boot.ready = true := ready
  simp only [spiWrite, ready', Nat.not_lt.2 long, Bool.not_true, Bool.false_eq_true, if_false]
  rfl

/-- READ_REPLY clocks the first reply out, and takes it from its FIFO once it is read whole. -/
theorem readReply_of_reply {n : Nat} {r : List Byte} {l : List (List Byte)} (ready : d.boot.ready = true) (hr : d.spi.replies = r :: l) :
    readReply n d =
      let out := [0xFF] ++ le 2 r.length ++ (r ++ List.replicate n 0xFF).take n
      if r.length ≤ n then drainAll (flushSpi (d.onSpi fun x => { x with replies := l, out })) else d.onSpi fun x => { x with out } := by
  have bytes : replyOut d n = [0xFF] ++ le 2 r.length ++ (r ++ List.replicate n 0xFF).take n := by simp only [replyOut, hr, List.headD_cons]
  simp only [readReply, ready, clockOut, Dev.onSpi_spi, Dev.onSpi_boot, Dev.onSpi_onSpi, hr, bytes, Bool.not_true, Bool.false_eq_true, if_false, if_true,
    ge_iff_le]

/-- READ_STATUS shows the status word and clears OVERRUN. -/
theorem readStatus_of_ready (ready : d.boot.ready = true) :
    readStatus d = d.onSpi fun x => { x with overrun := false, out := [0xFF, byte (spiStatus d)] } := by
  simp only [readStatus, ready, if_true]
  rfl

/-! ## Host boot (R545) -/

/-- BOOT_STATUS while the boot ROM runs. -/
theorem bootStatus_of_rom (runs : romRuns d = true) :
    bootStatus d = d.onSpi fun x => { x with out := [0xFF] ++ (le 1 d.boot.rom.state ++ le 1 d.boot.rom.result ++ le 2 0 ++ le 4 d.boot.rom.received) } := by
  simp only [bootStatus, runs, if_true]
  rfl

/-- The boot ROM takes an image from the host: it runs, is not fatal, and waits for an image or has refused one. -/
def takesImage (d : Dev) : Prop := romRuns d = true ∧ fatal d = false ∧ (d.boot.rom.state = 1 ∨ d.boot.rom.state = 4)

/-- BOOT_WRITE with a legal place and length. -/
theorem bootWrite_of_legal {off : Nat} {data : List Byte} (h : takesImage d) (aligned : off % 4 = 0) (inside : off < 0x1800000)
    (size : within data.length 4 4096 = true) (words : data.length % 4 = 0) :
    bootWrite off data d = d.onBoot fun b =>
      { b with rom := { state := 1, result := 0, received := (if b.rom.state = 4 then 0 else b.rom.received) + data.length
                        written := (off, data) :: b.rom.written } } := by
  obtain ⟨runs, alive, state⟩ := h
  have state' : (decide (d.boot.rom.state = 1) || decide (d.boot.rom.state = 4)) = true := by simpa using state
  simp only [bootWrite, runs, alive, state', aligned, inside, size, words, decide_true, Bool.not_false, Bool.and_true, if_true, decide_eq_true_eq]
  rfl

/-- The image that BOOT_GO names: what the host never wrote of its header are free values. -/
def hostImage (n : Nat) (im : ImageIn) (d : Dev) : Image :=
  imageOf ((List.range 4096).map fun a => pieceByte d.boot.rom.written (byte (Config.freeNat d.free a)) a) (min n 0x1800000) im

/-- BOOT_GO starts an image that passes its checks, and states the result of one that does not. -/
theorem bootGo_of_takesImage (n : Nat) (im : ImageIn) (h : takesImage d) :
    bootGo n im d =
      let e := (takeFree d).2
      if verifyImage d.boot (hostImage n im d) = 0 then
        logPast e (commandReady { slot := 2, image := hostImage n im d, directory := d.boot.directory } d.boot.disabledChannels (d.faults.standby ≠ .failed) e)
      else e.onBoot fun b => { b with rom := { b.rom with state := 4, result := verifyImage d.boot (hostImage n im d) } } := by
  obtain ⟨runs, alive, state⟩ := h
  have state' : (decide (d.boot.rom.state = 1) || decide (d.boot.rom.state = 4)) = true := by simpa using state
  simp only [bootGo, runs, alive, state', Bool.not_true, Bool.or_false, Bool.false_eq_true, if_false]
  rfl

/-- Settles O40: each row through the lemma of its command. -/
theorem spiRows : Obligations.SpiRows := by
  unfold Obligations.SpiRows
  refine ⟨fun bs => ?_, fun bs => ?_, fun n r l => ?_, fun n r l => ?_, ?_, ?_, ?_, fun off data => ?_, fun n im => ⟨?_, ?_⟩⟩
  · exact happensAlways_of_always (fun _ _ => rfl) fun d ⟨ready, short⟩ => spiWrite_of_short ready short
  · exact happensAlways_of_always (fun _ _ => rfl) fun d ⟨ready, long⟩ => spiWrite_of_header ready long
  · exact happensAlways_of_always (fun _ _ => rfl) fun d ⟨ready, hr, all⟩ => (readReply_of_reply ready hr).trans (if_pos all)
  · exact happensAlways_of_always (fun _ _ => rfl) fun d ⟨ready, hr, part⟩ => (readReply_of_reply ready hr).trans (if_neg (Nat.not_le.2 part))
  · exact happensAlways_of_always (fun _ _ => rfl) fun d ready => readStatus_of_ready ready
  · exact happensAlways_of_always (f := fun d => if d.boot.ready then spiDiscard d else d) (fun _ _ => rfl) fun d ready => if_pos ready
  · exact happensAlways_of_always (fun _ _ => rfl) fun d runs => bootStatus_of_rom runs
  · exact happensAlways_of_always (fun _ _ => rfl) fun d ⟨runs, alive, state, aligned, inside, size, words⟩ =>
      bootWrite_of_legal ⟨runs, alive, state⟩ aligned inside size words
  · exact happensAlways_of_always (fun _ _ => rfl) fun d ⟨takes_, passes⟩ => (bootGo_of_takesImage n im takes_).trans (if_pos passes)
  · exact happensAlways_of_always (fun _ _ => rfl) fun d ⟨takes_, fails⟩ => (bootGo_of_takesImage n im takes_).trans (if_neg fails)

/-! ## BAR0 (R75 to R78, R530) -/

/-- Where BAR0 answers, a host access has its effect. -/
theorem happensAlways_of_access {mk : Nat → Instr} {cond : Dev → Prop} {eff f : Dev → Dev} (hexec : ∀ t s, exec (mk t) s = always t (onHostAccess f) s)
    (answers : ∀ d, cond d → bar0Answers d = true) (heff : ∀ d, cond d → f d = eff d) : HappensAlways mk cond eff :=
  happensAlways_of_always hexec fun d hc => (if_pos (answers d hc)).trans (heff d hc)

/-- Where BAR0 does not answer, a host access is lost. -/
theorem happensAlways_of_lost {mk : Nat → Instr} {f : Dev → Dev} (hexec : ∀ t s, exec (mk t) s = always t (onHostAccess f) s) :
    HappensAlways mk (fun d => bar0Answers d = false) id :=
  happensAlways_of_always hexec fun _ silent => if_neg (Bool.eq_false_iff.1 silent)

/-- A ring that is turned on: its pointers stand at 0 and nothing waits. -/
def ringTurnedOn (i : Nat) (d : Dev) : Dev :=
  d.onRing i fun r => { r with ctrl := 1, sqTail := 0, sqHead := 0, cqTail := 0, cqHead := 0, status := 0, posted := [], waiting := [] }

/-- A ring's size and bases are allowed (Table 3.9). -/
def Ring.sound (r : Ring) : Bool := within (bits r.size.toNat 3 0) 2 10 && r.sqBaseLo.toNat % 4096 == 0 && r.cqBaseLo.toNat % 4096 == 0

/-- RING_CTRL without ENABLE turns a ring off. -/
theorem ringCtrl_of_off {i v : Nat} (off : bit v 0 = false) : ringCtrl i v d = d.onRing i fun r => { r with ctrl := 0 } := by
  simp only [ringCtrl, off, Bool.false_and, Bool.false_eq_true, if_false]
  rfl

/-- ENABLE of a ring that has it changes nothing more. -/
theorem ringCtrl_of_kept {i v : Nat} (on : bit v 0 = true) (was : bit (d.ring i).ctrl.toNat 0 = true) :
    ringCtrl i v d = d.onRing i fun r => { r with ctrl := 1 } := by
  simp only [ringCtrl, on, was, Bool.not_true, Bool.and_false, Bool.false_eq_true, if_false]
  rfl

/-- ENABLE of a ring without it turns the ring on, and stops it with error 3 where its size or a base is not allowed (R77). -/
theorem ringCtrl_of_turned {i v : Nat} (on : bit v 0 = true) (was : bit (d.ring i).ctrl.toNat 0 = false) :
    ringCtrl i v d = if (d.ring i).sound then ringTurnedOn i d else stopRing i 3 (ringTurnedOn i d) := by
  simp only [ringCtrl, on, was, Bool.not_false, Bool.and_true, if_true, Dev.onRing_onRing]
  rfl

/-- CQ_HEAD within a running ring frees slots for the replies that wait. -/
theorem cqHead_of_within {i : Fin 16} {v : Nat} (runs : (d.ring i).runs = true) (h : v < (d.ring i).slots) :
    cqHead i v d = drainAll (flushRing i (d.onRing i fun r => { r with cqHead := BitVec.ofNat 32 v })) := by
  simp only [cqHead, runs, ge_iff_le, Nat.not_le.2 h, Bool.not_true, Bool.false_eq_true, if_false]

/-- CQ_HEAD beyond a running ring stops it with error 1 (R77). -/
theorem cqHead_of_beyond {i : Fin 16} {v : Nat} (runs : (d.ring i).runs = true) (h : (d.ring i).slots ≤ v) :
    cqHead i v d = stopRing i 1 (d.onRing i fun r => { r with cqHead := BitVec.ofNat 32 v }) := by
  simp only [cqHead, runs, ge_iff_le, h, Bool.not_true, Bool.false_eq_true, if_false, if_true]

/-- CQ_HEAD of a ring that does not run is only held. -/
theorem cqHead_of_stopped {i : Fin 16} {v : Nat} (stopped : (d.ring i).runs = false) :
    cqHead i v d = d.onRing i fun r => { r with cqHead := BitVec.ofNat 32 v } := by
  simp only [cqHead, stopped, Bool.not_false, if_true]

/-- SQ_TAIL within a running ring posts the requests up to it. -/
theorem sqTail_of_within {i : Fin 16} {v : Nat} (runs : (d.ring i).runs = true) (h : v < (d.ring i).slots) :
    sqTail i v d = drainAll (d.onRing i fun r => { r with sqTail := BitVec.ofNat 32 v, posted := postedUpTo i v d }) := by
  simp only [sqTail, runs, ge_iff_le, Nat.not_le.2 h, Bool.not_true, Bool.false_eq_true, if_false]

/-- SQ_TAIL beyond a running ring stops it with error 1 (R77). -/
theorem sqTail_of_beyond {i : Fin 16} {v : Nat} (runs : (d.ring i).runs = true) (h : (d.ring i).slots ≤ v) :
    sqTail i v d = stopRing i 1 (d.onRing i fun r => { r with sqTail := BitVec.ofNat 32 v }) := by
  simp only [sqTail, runs, ge_iff_le, h, Bool.not_true, Bool.false_eq_true, if_false, if_true, id]

/-- SQ_TAIL of a ring that does not run is only held. -/
theorem sqTail_of_stopped {i : Fin 16} {v : Nat} (stopped : (d.ring i).runs = false) :
    sqTail i v d = d.onRing i fun r => { r with sqTail := BitVec.ofNat 32 v } := by
  simp only [sqTail, stopped, Bool.not_false, if_true, id]

/-- The registers below the ring blocks, up to EV_TAIL (Table 3.8). -/
theorem bar0Write_of_low {off : Nat} (v : Nat) (low : off < 0x30) :
    bar0Write off v d =
      if off = 0x10 then d.onBar0 fun b => { b with intStatus := b.intStatus &&& ~~~ BitVec.ofNat 32 v }
      else if off = 0x14 then d.onBar0 fun b => { b with intMask := BitVec.ofNat 32 v }
      else if off = 0x20 then d.onBar0 fun b => { b with evBaseLo := BitVec.ofNat 32 v }
      else if off = 0x24 then d.onBar0 fun b => { b with evBaseHi := BitVec.ofNat 32 v }
      else if off = 0x28 then d.onBar0 fun b => { b with evSize := BitVec.ofNat 32 (v % 32) } else d := by
  have no_msix : ¬(0x8000 ≤ off ∧ off < 0x8130) := by omega
  have no_ring : ¬(0x1000 ≤ off ∧ off < 0x1400) := by omega
  simp only [bar0Write, if_neg no_msix, if_neg no_ring]
  split
  case h_6 => omega
  case h_7 n10 n14 n20 n24 n28 _ => rw [if_neg n10, if_neg n14, if_neg n20, if_neg n24, if_neg n28]
  all_goals rfl

/-- Settles O41: each row through the lemma of its register. -/
theorem bar0Rows : Obligations.Bar0Rows := by
  unfold Obligations.Bar0Rows
  refine ⟨fun v => ?_, fun i v => ⟨?_, ?_, ?_, ?_, ?_, ?_, ?_, ?_, ?_, ?_, ?_⟩, fun v => ?_, fun off v => ⟨?_, ?_⟩, fun v => ?_⟩
  · exact happensAlways_of_access (fun _ _ => rfl) (fun _ => id) fun _ _ => rfl
  · exact happensAlways_of_access (fun _ _ => rfl) (fun _ h => h.1) fun d ⟨_, off⟩ => ringCtrl_of_off off
  · exact happensAlways_of_access (fun _ _ => rfl) (fun _ h => h.1) fun d ⟨_, _, on, was, sound⟩ => (ringCtrl_of_turned on was).trans (if_pos sound)
  · exact happensAlways_of_access (fun _ _ => rfl) (fun _ h => h.1) fun d ⟨_, _, on, was, unsound⟩ => (ringCtrl_of_turned on was).trans (if_neg unsound)
  · exact happensAlways_of_access (fun _ _ => rfl) (fun _ h => h.1) fun d ⟨_, on, was⟩ => ringCtrl_of_kept on was
  · exact happensAlways_of_access (fun _ _ => rfl) (fun _ ⟨⟨answers, _⟩, _⟩ => answers) fun d ⟨⟨_, runs⟩, h⟩ => cqHead_of_within runs h
  · exact happensAlways_of_access (fun _ _ => rfl) (fun _ ⟨⟨answers, _⟩, _⟩ => answers) fun d ⟨⟨_, runs⟩, h⟩ => cqHead_of_beyond runs h
  · exact happensAlways_of_access (fun _ _ => rfl) (fun _ h => h.1) fun d ⟨_, stopped⟩ => cqHead_of_stopped stopped
  · exact happensAlways_of_access (fun _ _ => rfl) (fun _ ⟨⟨answers, _⟩, _⟩ => answers) fun d ⟨⟨_, runs⟩, h⟩ => sqTail_of_within runs h
  · exact happensAlways_of_access (fun _ _ => rfl) (fun _ ⟨⟨answers, _⟩, _⟩ => answers) fun d ⟨⟨_, runs⟩, h⟩ => sqTail_of_beyond runs h
  · exact happensAlways_of_access (fun _ _ => rfl) (fun _ h => h.1) fun d ⟨_, stopped⟩ => sqTail_of_stopped stopped
  · exact happensAlways_of_lost fun _ _ => rfl
  · exact happensAlways_of_access (fun _ _ => rfl) (fun _ => id) fun _ _ => rfl
  · exact happensAlways_of_access (fun _ _ => rfl) (fun _ h => h.1) fun d ⟨_, low⟩ => bar0Write_of_low v low
  · exact happensAlways_of_lost fun _ _ => rfl
  · exact happensAlways_of_lost fun _ _ => rfl

/-! ## Timers (R68 to R70, R80, R110) -/

/-- R68: an overdue lease closes its session, unless the session's own admission or recording waits. -/
theorem leaseExpiry_of_overdue {i : Nat} {x : Session} (hx : mapGet d.ctl.sessions i = some x) (late : x.deadline < d.now) (runs : firmwareRuns d = true)
    (raises : ∀ r, d.fabric.raise = some r → r.session ≠ i) (starts : ∀ w, d.mag.startWait = some w → sessionIndex w.1.pkt.session ≠ i) :
    leaseExpiry i d = drainAll (closeSession i 1 x.policy d) := by
  have free : ((d.fabric.raise.any fun r => r.session = i) || d.mag.startWait.any fun w => sessionIndex w.1.pkt.session = i) = false := by
    simpa only [Bool.or_eq_false_iff, Option.any_eq_false, decide_eq_false_iff_not] using ⟨raises, starts⟩
  simp only [leaseExpiry, hx, gt_iff_lt, late, runs, free, decide_true, Bool.not_false, Bool.and_true, if_true]

/-- A lease that has not passed. -/
theorem leaseExpiry_of_early {i : Nat} {x : Session} (hx : mapGet d.ctl.sessions i = some x) (early : d.now ≤ x.deadline) : leaseExpiry i d = d := by
  simp only [leaseExpiry, hx, gt_iff_lt, Nat.not_lt.2 early, decide_false, Bool.false_and, Bool.false_eq_true, if_false]

/-- R70: a tombstone holds its index for 60 s. -/
theorem entombed_iff {i : Nat} {x : Tombstone} (hx : mapGet d.ctl.tombs i = some x) : entombed d i = true ↔ d.now < x.closedAt + tombNs := by
  simp only [entombed, hx, decide_eq_true_eq]

/-- R110: an idle transaction is aborted, outside a fail-over pause. -/
theorem txnIdle_of_due {n : Nat} {x : Txn} (hx : mapGet d.ctl.txns n = some x) (due : x.idleDeadline ≤ d.now) (going : d.faults.paused = false) :
    txnIdle n d = abortTxn n (some 0) d := by
  simp only [txnIdle, hx, ge_iff_le, due, going, decide_true, Bool.not_false, Bool.and_true, if_true]

/-- A transaction whose idle time has not passed. -/
theorem txnIdle_of_early {n : Nat} {x : Txn} (hx : mapGet d.ctl.txns n = some x) (early : d.now < x.idleDeadline) : txnIdle n d = d := by
  simp only [txnIdle, hx, ge_iff_le, Nat.not_le.2 early, decide_false, Bool.false_and, Bool.false_eq_true, if_false]

/-- Settles O46: each timer through the lemma of its row, before its time and after. -/
theorem timerRows : Obligations.TimerRows := by
  unfold Obligations.TimerRows
  refine ⟨fun i x => ⟨?_, ?_⟩, fun i x => ⟨?_, ?_⟩, fun n x => ⟨?_, ?_⟩, ?_⟩
  · exact happens_of_after (fun _ _ => rfl) fun d ⟨hx, late, runs, raises, starts⟩ => leaseExpiry_of_overdue hx late runs raises starts
  · exact happens_of_after (fun _ _ => rfl) fun d ⟨hx, early⟩ => leaseExpiry_of_early hx early
  · exact happens_of_after (fun _ _ => rfl) fun d ⟨hx, ended⟩ => if_neg (mt (entombed_iff hx).1 (Nat.not_lt.2 ended))
  · exact happens_of_after (fun _ _ => rfl) fun d ⟨hx, early⟩ => if_pos ((entombed_iff hx).2 early)
  · exact happens_of_after (fun _ _ => rfl) fun d ⟨hx, due, going⟩ => txnIdle_of_due hx due going
  · exact happens_of_after (fun _ _ => rfl) fun d ⟨hx, early⟩ => txnIdle_of_early hx early
  · exact happens_of_after (fun _ _ => rfl) fun _ _ => rfl

end Sys2Proof.Machine
end

section
/-! PROOF. Transactions (R89, R90, R93): a command staged in an open transaction, a stageable command outside one, and the limit of
open transactions; O16 to O18. -/

namespace Sys2Proof.Machine

variable {d : Dev} {q : Request} {sp : CmdSpec}

/-- A taken command that no check of steps 9 to 13 refuses leaves what step 14 leaves, and its reply (R54). -/
theorem exec_of_carryOut {c : Instr} {s : State} {d' : Dev} {r : Rsp} (ht : taken c s = some (q, d)) (hs : commandSpec q.op = some sp)
    (accepts : refusal d (contextOf d q) q sp = none) (hc : carryOut (contextOf d q) sp d = (d', some r)) :
    exec c s = .next (s.set (finish q false r d')) := by
  rw [exec_of_taken ht, executeNow_of_accepted hs accepts hc]

/-! ## A command of an open transaction (R90) -/

/-- A session's open transaction stands in the table of transactions. -/
theorem mapGet_of_openTxn {session n : Nat} {t : Txn} (h : openTxn d session n = some t) : mapGet d.ctl.txns n = some t := by
  obtain ⟨entry, _⟩ := Option.filter_eq_some_iff.1 h
  exact entry

/-- A stageable command of a transaction is staged. -/
theorem carryOut_of_staged (dry : isDryRun q = false) (stageable : sp.stageable (packetBody q.pkt) = true) (inTxn : q.pkt.txn ≠ 0) :
    carryOut (contextOf d q) sp d = ((stageCmd (contextOf d q) sp d).1, some (stageCmd (contextOf d q) sp d).2) := by
  have dry' : (decide ((contextOf d q).op = 0x0201) && bit (u16 (contextOf d q).b 2) 0) = false := dry
  have stageable' : sp.stageable (contextOf d q).b = true := stageable
  have inTxn' : (contextOf d q).txn ≠ 0 := inTxn
  simp only [carryOut, dry', stageable', inTxn', Bool.false_eq_true, if_false, if_true]

/-- The module with a command staged at the end of its transaction. -/
def stagedIn (q : Request) (sp : CmdSpec) (t : Txn) (d : Dev) : Dev :=
  d.onCtl fun x => { x with txns := mapSet x.txns q.pkt.txn (withStaged q sp d t) }

/-- A transaction with room takes the command and defers it. -/
theorem stageCmd_of_room {t : Txn} (entry : mapGet d.ctl.txns q.pkt.txn = some t) (room : t.bytes + (24 + (packetBody q.pkt).length) ≤ 65536) :
    stageCmd (contextOf d q) sp d = (stagedIn q sp t d, .deferred) := by
  have entry' : mapGet d.ctl.txns (contextOf d q).txn = some t := entry
  have fits : ¬t.bytes + (24 + (contextOf d q).b.length) > 65536 := Nat.not_lt.2 room
  simp only [stageCmd, entry', if_neg fits]
  rfl

/-- A command that its transaction has no room for is refused and not staged. -/
theorem stageCmd_of_overflow {t : Txn} (entry : mapGet d.ctl.txns q.pkt.txn = some t) (tooLong : t.bytes + (24 + (packetBody q.pkt).length) > 65536) :
    stageCmd (contextOf d q) sp d = (d, { status := 0x0305, detail := 1 }) := by
  have entry' : mapGet d.ctl.txns (contextOf d q).txn = some t := entry
  have tooLong' : t.bytes + (24 + (contextOf d q).b.length) > 65536 := tooLong
  simp only [stageCmd, entry', if_pos tooLong']

/-- What a command has shown that is staged: it was taken, no step of Table 3.2 refuses it, and its transaction is open and has room. -/
theorem of_stages {c : Instr} {s : State} {t : Txn} (h : stages c s sp = some (q, d, t)) :
    taken c s = some (q, d) ∧ openTxn d (sessionIndex q.pkt.session) q.pkt.txn = some t ∧ q.pkt.txn ≠ 0 ∧ refusal d (contextOf d q) q sp = none
      ∧ sp.stageable (packetBody q.pkt) = true ∧ isDryRun q = false ∧ t.bytes + (24 + (packetBody q.pkt).length) ≤ 65536 := by
  simp only [stages] at h
  split at h
  · cases h
  · next ht =>
    split at h
    · cases h
    · next opened =>
      split at h
      · next passes =>
        cases h
        simp only [Bool.and_eq_true, Bool.not_eq_true', decide_eq_true_eq, Option.isNone_iff_eq_none] at passes
        obtain ⟨⟨⟨⟨inTxn, accepts⟩, stageable⟩, dry⟩, room⟩ := passes
        exact ⟨ht, opened, inTxn, accepts, stageable, dry, room⟩
      · cases h

/-- Settles O16: what `stageCmd` does with room in the transaction, and without. -/
theorem stagedCommandsWait : Obligations.StagedCommandsWait := by
  unfold Obligations.StagedCommandsWait
  refine ⟨fun c s q d t sp h hs => ?_, fun c s q d t sp ht hs opened inTxn accepts stageable dry tooLong => ?_⟩
  · obtain ⟨ht, opened, inTxn, accepts, stageable, dry, room⟩ := of_stages h
    have waits : carryOut (contextOf d q) sp d = (stagedIn q sp t d, some .deferred) := by
      rw [carryOut_of_staged dry stageable inTxn, stageCmd_of_room (mapGet_of_openTxn opened) room]
    exact exec_of_carryOut ht hs accepts waits
  · refine exec_of_carryOut ht hs accepts ?_
    rw [carryOut_of_staged dry stageable inTxn, stageCmd_of_overflow (mapGet_of_openTxn opened) tooLong]

/-! ## A transaction of one command (R93) -/

/-- The answer of a stageable command outside a transaction to the outcome `r` of its commit: after a good one its own parameters come first and
the transaction's number last, and REEL_RECORD_STOP waits for its clip (R467). -/
def oneAnswer (q : Request) (sp : CmdSpec) (d u : Dev) (r : Rsp) : Rsp :=
  if r.good then { r with status := if q.op = 0x1006 then 0x0002 else r.status
                          params := sp.own (contextOf d q) (baseDev u) ++ r.params ++ le 4 (takeTxn d).1 } else r

/-- The module that such a command's commit leaves: a good one uses up the transaction's number. -/
def oneUsed (d t : Dev) (r : Rsp) : Dev := if r.good then t.onCtl fun x => { x with nextTxn := (takeTxn d).2.ctl.nextTxn } else t

/-- With fewer than 32 transactions open the command commits as a transaction of its own. -/
theorem commitOne_of_answered {t : Dev} {r : Rsp} (room : txnCount d < 32) (answers : tryCommit true (oneCommand q d) d = (t, some r)) :
    commitOne (contextOf d q) sp d = (oneUsed d t r, some (oneAnswer q sp d (oneUsed d t r) r)) := by
  have request : CommitRequest.mk (takeTxn d).1 [⟨(contextOf d q).op, (contextOf d q).seq, (contextOf d q).b⟩] (24 + (contextOf d q).b.length) [] [] 0 false none
      (contextOf d q) = oneCommand q d := rfl
  simp only [commitOne, ge_iff_le, Nat.not_le.2 room, if_false, request, answers, oneUsed, oneAnswer]
  cases r.good <;> rfl

/-- Settles O17: the command commits alone, and is answered by the outcome of that commit. -/
theorem oneCommandTransactions : Obligations.OneCommandTransactions := by
  unfold Obligations.OneCommandTransactions
  intro c s q d t sp r ht hs alone accepts stageable dry room answers
  exact exec_of_carryOut ht hs accepts ((carryOut_of_alone dry stageable alone).trans (commitOne_of_answered room answers))

/-! ## At most 32 transactions (R89) -/

/-- The refusal of a 33rd open transaction. -/
def tooManyTxns : Rsp := { status := 0x0305, detail := 2 }

/-- A stageable command outside a transaction does not commit beyond 32. -/
theorem commitOne_of_full (c : Ctx) (sp : CmdSpec) (full : 32 ≤ txnCount d) : commitOne c sp d = (d, some tooManyTxns) := by
  simp only [commitOne, ge_iff_le, if_pos full]
  rfl

/-- The present state refuses a TXN_BEGIN beyond 32. -/
theorem stateRefusal_txnBegin_of_full (c : Ctx) (full : 32 ≤ txnCount d) : stateRefusal d c specTxnBegin = some tooManyTxns :=
  if_pos full

/-- An immediate command that the present state refuses changes nothing. -/
theorem carryImmediate_of_refused {c : Ctx} {r : Rsp} (h : stateRefusal d c sp = some r) : carryImmediate c sp d = (d, some r) := by
  simp only [carryImmediate, h]

/-- Settles O18: step 14 of TXN_BEGIN, and the commit of a command alone, meet the limit before anything changes. -/
theorem transactionsAreBounded : Obligations.TransactionsAreBounded := by
  unfold Obligations.TransactionsAreBounded
  refine ⟨fun p s q d ht accepts full => ?_, fun c s q d sp ht hs alone accepts stageable dry full => ?_⟩
  · have op : q.op = 0x0100 := op_of_taken ht rfl
    have dry : isDryRun q = false := by simp [isDryRun, op]
    have refused := carryImmediate_of_refused (stateRefusal_txnBegin_of_full (contextOf d q) full)
    exact exec_of_carryOut ht (by rw [op]; rfl) accepts ((carryOut_of_immediate dry rfl).trans refused)
  · exact exec_of_carryOut ht hs accepts ((carryOut_of_alone dry stageable alone).trans (commitOne_of_full _ _ full))

end Sys2Proof.Machine
end

section
/-! PROOF. Synchronisation pins and the sensor control buses (R103 to R105, R143 to R147), and O49. -/

namespace Sys2Proof.Machine

variable {d : Dev}

/-! ## Pins (R147) -/

/-- The stamp of an edge: code 0 for a rising one, 1 for a falling one. -/
def edgeStamp (i pin : Nat) (rising : Bool) (d : Dev) : EdgeStamp :=
  { pin, edge := if rising then 0 else 1, stamp := shortStamp (domainNow d (furrowDomain d i)) }

/-- An edge that its pin counts is stored; where 16 wait the oldest leaves and the loss is counted. -/
theorem stampEdge_of_counted {i pin : Nat} {rising : Bool} (counts : (tabGet (d.furrow i).pins pin).function = if rising then 5 else 6)
    (idle : (tabGet (d.furrow i).pins pin).pulseUntil = none) :
    stampEdge i pin rising d =
      if 16 ≤ (d.furrow i).edges.length then (count (0x1000 + i) 7 1 d).onFurrow i fun f => { f with edges := f.edges.drop 1 ++ [edgeStamp i pin rising d] }
      else d.onFurrow i fun f => { f with edges := f.edges ++ [edgeStamp i pin rising d] } := by
  simp only [stampEdge, counts, idle, Option.isNone_none, decide_true, Bool.and_self, if_true, ge_iff_le]
  by_cases full : 16 ≤ (d.furrow i).edges.length
  · simp only [full, if_true]
    rfl
  · simp only [full, if_false]
    rfl

/-- A trigger pin pulses where its domain's time stands at its phase of the period and no single pulse is driven. -/
theorem triggerPulse_of_due {i pin : Nat} (trigger : (tabGet (d.furrow i).pins pin).function = 3)
    (idle : (tabGet (d.furrow i).pins pin).pulseUntil = none) (periodic : pinPeriod d i (tabGet (d.furrow i).pins pin).periodNs ≠ 0)
    (due : domainNow d (furrowDomain d i) % pinPeriod d i (tabGet (d.furrow i).pins pin).periodNs = (tabGet (d.furrow i).pins pin).phaseNs) :
    triggerPulse i pin d =
      d.onFurrow i fun f => { f with pins := tabMod f.pins pin fun p => { p with strobeUntil := some (d.now + p.widthNs) } } := by
  simp [triggerPulse, trigger, idle, periodic, due]

/-! ## Lockstep writes (R103, R105) -/

/-- A group's writes that stand next start in their window. -/
theorem startGroup_of_inWindow {i g : Nat} {c : Commit} {x : GroupWrite}
    (next : commitWith d i g (fun _ x => !x.started && x.confirmed < x.writes.length) = some (c, x)) (opened : windowOpen d c x = true)
    (inTime : startsInTime d x = true) (turn : inOrder d c x = true) : startGroup i g d = driveBus i (onGroup c.txn i g d.beginWrites d) := by
  simp only [startGroup, next, opened, inTime, turn, Bool.and_self, if_true]

/-- A window that closes with a write unconfirmed fails the commit with reason 3. -/
theorem closeWindow_of_unwritten {i g n f : Nat} {c : Commit} {x : GroupWrite} {y : GroupDesc}
    (open_ : commitWith d i g (fun _ x => x.confirmed < x.writes.length && x.closeFrame.isSome) = some (c, x)) (stream : timedStream d i = some n)
    (group : groupDesc d i g = some y) (frame : x.closeFrame = some f)
    (past : windowClose d n y f ≤ (timelineNow d (.stream n) : Int) ∨ f < (d.stream n).frame) :
    closeWindow i g d = failCommit c.txn (3 * 256 + g) d := by
  have closed : (decide (windowClose d n y f ≤ (timelineNow d (.stream n) : Int)) || decide ((d.stream n).frame > f)) = true := by simpa using past
  simp only [closeWindow, open_, stream, group, frame, closed, if_true]

/-! ## Transfers (R143, R144) -/

/-- A furrow that reads no register has no late read. -/
theorem lateRead_of_none {i : Nat} (h : (d.furrow i).reading = none) : lateRead i d = d := by
  simp only [lateRead, h]

/-- A read whose reply no longer waits, or whose reply bound has not passed, is not late (R62). -/
theorem lateRead_of_inTime {i : Nat} {x : SensorRead} (h : (d.furrow i).reading = some x)
    (inTime : x.waits = true → d.now ≤ x.request.pkt.time + 2000000) : lateRead i d = d := by
  have still : ¬(x.waits && decide (d.now > x.request.pkt.time + 2000000)) = true := by simpa using inTime
  simp only [lateRead, h, if_neg still]

/-- With no read under way a restore's transfer moves the restore on. -/
theorem transferDone_of_restore {i g : Nat} {r : Restore} (b : BusResult) (l : List Byte) (noRead : (d.furrow i).reading = none)
    (restores : (d.ctl.restores.find? fun r => r.furrow = i && r.group = g) = some r) :
    transferDone i g b l d = beginRead i (restoreStep i g r b l d) := by
  simp only [transferDone, lateRead_of_none noRead, noRead, Option.filter_none, restores]

/-- With neither a read nor a restore under way a lockstep write's transfer moves its group on. -/
theorem transferDone_of_write {i g : Nat} {c : Commit} {x : GroupWrite} (b : BusResult) (l : List Byte) (noRead : (d.furrow i).reading = none)
    (noRestore : (d.ctl.restores.find? fun r => r.furrow = i && r.group = g) = none)
    (writes : (commitWith d i g fun c x => x.started && x.confirmed < x.writes.length && inOrder d c x) = some (c, x)) :
    transferDone i g b l d = beginRead i (writeStep i g c x b l d) := by
  simp only [transferDone, lateRead_of_none noRead, noRead, Option.filter_none, noRestore, writes]

/-- The transfer of a read that began moves the read on. -/
theorem transferDone_of_read {i : Nat} {x : SensorRead} (g : Nat) (b : BusResult) (l : List Byte) (h : (d.furrow i).reading = some x)
    (begun : x.begun = true) (inTime : x.waits = true → d.now ≤ x.request.pkt.time + 2000000) : transferDone i g b l d = readStep i x b l d := by
  have reads : (d.furrow i).reading.filter (·.begun) = some x := by rw [h, Option.filter_some, if_pos begun]
  simp only [transferDone, lateRead_of_inTime h inTime, reads]

/-- Settles O49: each row is carried out by `after`, and the lemma of its case says what it does. -/
theorem sensorRows : Obligations.SensorRows := by
  unfold Obligations.SensorRows
  refine ⟨fun i k up => ⟨?_, ?_, ?_⟩, fun i g c x => ?_, fun i g b l => ⟨fun r => ?_, fun c x => ?_, fun x => ?_⟩, fun i g n f c x y => ?_⟩
  · exact happens_of_after (fun _ _ => rfl) fun d ⟨counts, idle⟩ => stampEdge_of_counted counts idle
  · exact happens_of_after (fun _ _ => rfl) fun d _ => rfl
  · exact happens_of_after (fun _ _ => rfl) fun d ⟨trigger, idle, periodic, due⟩ => triggerPulse_of_due trigger idle periodic due
  · exact happens_of_after (fun _ _ => rfl) fun d ⟨next, opened, inTime, turn⟩ => startGroup_of_inWindow next opened inTime turn
  · exact happens_of_after (fun _ _ => rfl) fun d ⟨noRead, restores⟩ => transferDone_of_restore b l noRead restores
  · exact happens_of_after (fun _ _ => rfl) fun d ⟨noRead, noRestore, writes⟩ => transferDone_of_write b l noRead noRestore writes
  · exact happens_of_after (fun _ _ => rfl) fun d ⟨reads, begun, inTime⟩ => transferDone_of_read g b l reads begun inTime
  · exact happens_of_after (fun _ _ => rfl) fun d ⟨open_, stream, group, frame, past⟩ => closeWindow_of_unwritten open_ stream group frame past

end Sys2Proof.Machine
end

section
/-! PROOF. Furrow and sensor commands (R115, R116, R124, R127, R143 to R154, R573): the commands of area 0x03, and O23 and O24. -/

namespace Sys2Proof.Machine

variable {d : Dev}

/-! ## Furrows -/

/-- FURROW_START of a configured furrow starts it, unless it runs already. -/
theorem furrowStart_act_of_config {c : Ctx} {x : FurrowConfig} (h : (d.furrow (objIndex (u16 c.b 0))).config = some x) :
    specFurrowStart.act c d =
      (if (d.furrow (objIndex (u16 c.b 0))).runs then d else startFurrow (objIndex (u16 c.b 0)) x d, some .ok) := by
  simp only [specFurrowStart, h]

/-- Settles O23: each command's effect is that of its spec record; FURROW_TRAIN is PENDING for either kind of training (R124, R126). -/
theorem furrowCommands : Obligations.FurrowCommands := by
  unfold Obligations.FurrowCommands
  refine ⟨?_, ?_, ?_, ?_, ?_, ?_, fun x => ?_, ?_⟩
  · exact runsWhere_of_act 0x0300 (fun _ => rfl) rfl fun _ _ _ => ⟨rfl, rfl⟩
  · exact runsWhere_of_act 0x0301 (fun _ => rfl) rfl fun _ _ _ => ⟨rfl, rfl⟩
  · exact runsWhere_of_act 0x0302 (fun _ => rfl) rfl fun _ _ _ => ⟨rfl, rfl⟩
  · refine runsWhere_of_act 0x0303 (fun _ => rfl) rfl fun c d _ => ?_
    by_cases recentres : u8 c.b 2 = 1
    · simp only [specFurrowTrain, if_pos recentres, true_and]
      rfl
    · simp only [specFurrowTrain, if_neg recentres, true_and]
      rfl
  · exact runsWhere_of_act 0x0304 (fun _ => rfl) rfl fun _ _ _ => ⟨rfl, rfl⟩
  · exact runsWhere_of_act 0x0305 (fun _ => rfl) rfl fun _ _ _ => ⟨rfl, rfl⟩
  · exact runsWhere_of_act 0x030B (fun _ => rfl) rfl fun _ _ config => ⟨furrowStart_act_of_config config, rfl⟩
  · exact runsWhere_of_act 0x030C (fun _ => rfl) rfl fun _ _ _ => ⟨rfl, rfl⟩

/-! ## Sensors -/

/-- An immediate command whose answer waits leaves what its effect leaves: no reply, and no object claimed (R62). -/
theorem exec_of_immediate_unanswered {i : Instr} {s : State} {sp : CmdSpec} {q : Request} {d' : Dev} (h : immediate i s sp = some (q, d))
    (hs : commandSpec q.op = some sp) (raises : sp.raises = false) (ha : sp.act (contextOf d q) d = (d', none)) :
    exec i s = .next (s.set d') := by
  obtain ⟨e, ht, accepts, stageable, dry, state, ⟨_, rfl⟩ | ⟨rises, _⟩⟩ := of_immediate h
  · have acts : carryImmediate (contextOf d q) sp d = (d', none) := by
      simp only [carryImmediate, state, raises, ha, Bool.false_eq_true, if_false]
    have carries := (carryOut_of_immediate dry stageable).trans acts
    rw [exec_of_taken ht]
    simp only [executeNow, hs, accepts, carries]
  · rw [raises] at rises
    cases rises

/-- A read's bus transfer fits the reply bound of 2 ms (R62, R143). -/
def replyWaits (x : Profile) (c : Ctx) : Bool := readTime x (u8 c.b 2 = 1) (u8 c.b 3) ≤ 2000000

/-- The module with the read that a SENSOR_REG_READ asks for. -/
def readAsked (x : Profile) (c : Ctx) (d : Dev) : Dev := d.onFurrow (objIndex (u16 c.b 0)) fun f =>
  { f with reading := some { request := c.request, waits := replyWaits x c, length := u8 c.b 3, reg := u16 c.b 4 } }

/-- R143: a register read begins where it can, and its answer waits for it or is PENDING where its transfer is long. -/
theorem sensorRegRead_act_of_profile {c : Ctx} {x : Profile} (h : (d.furrow (objIndex (u16 c.b 0))).profile = some x) :
    specSensorRegRead.act c d =
      (beginRead (objIndex (u16 c.b 0)) (readAsked x c d), if replyWaits x c then none else some .pending) := by
  simp only [specSensorRegRead, h]
  rfl

/-- SENSOR_REG_READ of a furrow with a profile: nothing is answered yet, or PENDING. -/
theorem exec_sensorRegRead {p : Packet} {s : State} {q : Request} {x : Profile} (h : immediate (.sensorRegRead p) s specSensorRegRead = some (q, d))
    (profile : (d.furrow (objIndex (u16 (contextOf d q).b 0))).profile = some x) :
    let e := beginRead (objIndex (u16 (contextOf d q).b 0)) (readAsked x (contextOf d q) d)
    exec (.sensorRegRead p) s = .next (s.set (if replyWaits x (contextOf d q) then e else carried q specSensorRegRead d e .pending)) := by
  intro e
  have spec : commandSpec q.op = some specSensorRegRead := by rw [op_of_immediate h rfl]; rfl
  have acts := sensorRegRead_act_of_profile profile
  by_cases waits : replyWaits x (contextOf d q) = true
  · rw [if_pos waits] at acts ⊢
    exact exec_of_immediate_unanswered h spec rfl acts
  · rw [if_neg waits] at acts ⊢
    exact exec_of_immediate h spec acts rfl

/-- SENSOR_REG_WRITE outside a transaction commits as one of its own, and has no parameters of its own to answer (R93, R153). -/
theorem exec_sensorRegWrite_of_committed {p : Packet} {s : State} {q : Request} {t : Dev} {r : Rsp} (ht : taken (.sensorRegWrite p) s = some (q, d))
    (alone : q.pkt.txn = 0) (accepts : refusal d (contextOf d q) q specSensorRegWrite = none) (room : txnCount d < 32)
    (commits : tryCommit true (oneCommand q d) d = (t, some r)) (good : r.good = true) :
    exec (.sensorRegWrite p) s = .next (s.set (finish q false { r with params := r.params ++ le 4 (takeTxn d).1 }
      (t.onCtl fun x => { x with nextTxn := (takeTxn d).2.ctl.nextTxn }))) := by
  have op : q.op = 0x0307 := op_of_taken ht rfl
  have dry : isDryRun q = false := by simp [isDryRun, op]
  have used : oneUsed d t r = t.onCtl fun x => { x with nextTxn := (takeTxn d).2.ctl.nextTxn } := if_pos good
  have answer : oneAnswer q specSensorRegWrite d (oneUsed d t r) r = { r with params := r.params ++ le 4 (takeTxn d).1 } := by
    simp [oneAnswer, good, op, specSensorRegWrite]
  rw [← used, ← answer]
  exact exec_of_carryOut ht (by rw [op]; rfl) accepts ((carryOut_of_alone dry rfl alone).trans (commitOne_of_answered room commits))

/-- Settles O24: a profile, MCLK and a pin take effect as their spec records say; a read answers as its bus time lets it, and a register write by
its commit. -/
theorem sensorCommands : Obligations.SensorCommands := by
  unfold Obligations.SensorCommands
  refine ⟨?_, ?_, fun p s q d x h => exec_sensorRegRead h, ?_, fun p s q d t r => exec_sensorRegWrite_of_committed⟩
  · exact runsWhere_of_act 0x0306 (fun _ => rfl) rfl fun _ _ _ => ⟨rfl, rfl⟩
  · exact runsWhere_of_act 0x0309 (fun _ => rfl) rfl fun _ _ _ => ⟨rfl, rfl⟩
  · exact settles_of_settle (fun _ => rfl) rfl rfl (fun _ _ _ => rfl) fun _ _ => rfl

end Sys2Proof.Machine
end

section
/-! PROOF. Furrows in time (R116, R118 to R120, R124, R126, R130 to R141): start of frame, rows, the ends of frames, silence, training and
re-centring, and O48. -/

namespace Sys2Proof.Machine

variable {d : Dev}

/-! ## What counting leaves -/

/-- A counter that is set, or not, changes the counters alone. -/
theorem ite_setCounter_eq (p : Prop) [Decidable p] (k no v : Nat) (d : Dev) : ∃ c, (if p then setCounter k no v d else d) = { d with counters := c } := by
  split
  · exact ⟨_, rfl⟩
  · exact ⟨d.counters, rfl⟩

/-- Storing a record changes events and counters alone. -/
theorem storeEvent_eq (r : EventRec) (d : Dev) : ∃ e c, storeEvent r d = { d with events := e, counters := c } := by
  simp only [storeEvent]
  exact ⟨_, ite_setCounter_eq _ _ _ _ (d.onEvents _)⟩

/-- Posting a record changes events, counters and the yoke's FIFO alone. -/
theorem postEvent_eq (r : EventRec) (d : Dev) : ∃ e c f, postEvent r d = { d with events := e, counters := c, faults := f } := by
  simp only [postEvent]
  split
  · split
    · exact ⟨d.events, d.counters, _, rfl⟩
    · exact ⟨d.events, _, d.faults, rfl⟩
  · obtain ⟨e, c, stored⟩ := storeEvent_eq r d
    exact ⟨e, c, d.faults, stored⟩

/-- Counting changes counters, events and the yoke's FIFO alone. -/
theorem count_eq (k no n : Nat) (d : Dev) : ∃ e c f, count k no n d = { d with events := e, counters := c, faults := f } := by
  simp only [count]
  split
  · exact ⟨d.events, d.counters, d.faults, rfl⟩
  · exact ⟨d.events, _, d.faults, rfl⟩
  · split
    · obtain ⟨e, c, f, posted⟩ := postEvent_eq _ (setCounter k no _ d)
      exact ⟨e, c, f, posted⟩
    · exact ⟨d.events, _, d.faults, rfl⟩

/-- Counting takes no time. -/
@[simp] theorem count_now (k no n : Nat) (d : Dev) : (count k no n d).now = d.now := by
  obtain ⟨e, c, f, counted⟩ := count_eq k no n d
  rw [counted]

/-- Counting leaves the furrows. -/
@[simp] theorem count_furrows (k no n : Nat) (d : Dev) : (count k no n d).furrows = d.furrows := by
  obtain ⟨e, c, f, counted⟩ := count_eq k no n d
  rw [counted]

/-! ## Start of frame (R116, R118, R123) -/

section

variable {i : Nat} {c : FurrowConfig}

/-- A code that more than half of the lanes present is recognised; code 0 is looked for first. -/
theorem recognised_of_sof {l : List Shown} (most : l.length < 2 * l.count (.code 0)) : recognised l = some 0 := by
  have codes : List.range 4 = 0 :: [1, 2, 3] := rfl
  rw [recognised, codes, List.find?_cons_of_pos (by simpa using most)]

/-- What the lanes of the map in use present. -/
def shownBy (i : Nat) (c : FurrowConfig) (l : List SyncIn) (d : Dev) : List Shown :=
  (indexed (d.furrow i).activeMap).map fun e => (d.furrow i).sync.shown c.depthBits (tabGet l e.1).words

theorem shownBy_length (l : List SyncIn) : (shownBy i c l d).length = (d.furrow i).activeMap.length := by
  simp [shownBy, indexed]

/-- In CSI-2 mode a frame starts with its first source's Frame Start. -/
theorem furrowSof_of_frameStart {l : List SyncIn} (config : (d.furrow i).config = some c) (runs : (d.furrow i).runs = true) (csi : c.mode = 1)
    (starts : (tabGet l 0).frameStart = true) :
    furrowSof i l d = recogniseSof i c ((indexed (d.furrow i).activeMap).all fun e => (tabGet l e.1).frameStart) d := by
  simp only [furrowSof, config, runs, csi, starts, Bool.not_true, Bool.false_eq_true, if_false, if_true]

/-- In native mode a frame starts where more than half of the lanes present SOF; a lane that does not counts an error. -/
theorem furrowSof_of_shown {l : List SyncIn} (config : (d.furrow i).config = some c) (runs : (d.furrow i).runs = true) (native : c.mode ≠ 1)
    (most : (d.furrow i).activeMap.length < 2 * (shownBy i c l d).count (.code 0)) :
    furrowSof i l d = recogniseSof i c ((shownBy i c l d).all fun x => x = .code 0) (detectFailures i c
      ((count (0x1000 + i) 0 ((shownBy i c l d).length - (shownBy i c l d).count (.code 0)) d).onFurrow i fun f =>
        { f with lanes := (indexed (d.furrow i).activeMap).foldl (fun x e =>
            tabMod x e.2.source (Lane.sync (tabGet (shownBy i c l d) e.1 = .code 0))) f.lanes })) := by
  have sof : recognised (shownBy i c l d) = some 0 := recognised_of_sof (by rwa [shownBy_length])
  unfold shownBy at sof ⊢
  simp only [furrowSof, config, runs, native, noteSync, sof, Bool.not_true, Bool.false_eq_true, if_false, if_true]

/-! ## Rows (R119, R123, R131, R141) -/

variable {row : RowIn}

/-- The row that ends is counted in its frame, before it is written. -/
def rowCounted (i : Nat) (c : FurrowConfig) (eof : Bool) (d : Dev) : Dev := d.onFurrow i fun f =>
  { f with lineNo := f.lineNo + 1, lastRow := some d.now, rowsOver := f.rowsOver || eof || decide (c.height ≤ f.lineNo + 1) }

/-- A row that has not begun only tells of its lanes. -/
theorem furrowRowEnd_of_unbegun (config : (d.furrow i).config = some c) (runs : (d.furrow i).runs = true)
    (unbegun : rowBegins (d.furrow i) c row = false) : furrowRowEnd i row d = noteRow i c row d := by
  simp only [furrowRowEnd, config, runs, unbegun, Bool.not_true, Bool.false_eq_true, if_false]

/-- A row that has begun tells of its lanes and is taken. -/
theorem furrowRowEnd_of_begun (config : (d.furrow i).config = some c) (runs : (d.furrow i).runs = true)
    (begun : rowBegins (d.furrow i) c row = true) :
    furrowRowEnd i row d = takeRow i c row (rowEndsFrame (d.furrow i) c row) (noteRow i c row d) := by
  simp only [furrowRowEnd, config, runs, begun, Bool.not_true, Bool.false_eq_true, if_false, if_true]

/-- Between frames a row is only counted. -/
theorem takeRow_of_none {eof : Bool} (idle : ((rowCounted i c eof d).furrow i).current = none) :
    takeRow i c row eof d = rowCounted i c eof d := by
  unfold rowCounted at idle ⊢
  simp only [takeRow, ge_iff_le, idle]

/-- A row beyond the frame's height is discarded and counted. -/
theorem takeRow_of_beyond {eof : Bool} {fr : FrameInProgress} (open_ : ((rowCounted i c eof d).furrow i).current = some fr)
    (full : c.height ≤ fr.rows) :
    takeRow i c row eof d =
      let d' := (count (0x1000 + i) 5 1 (rowCounted i c eof d)).onFurrow i fun f => { f with current := some { fr with discarded := fr.discarded + 1 } }
      if eof then endReception i c false d' else d' := by
  unfold rowCounted at open_ ⊢
  simp only [takeRow, ge_iff_le, open_, if_pos full]

/-- R141: the write buffer overflows while the guarantee has lapsed. -/
theorem takeRow_of_overflow {eof : Bool} {fr : FrameInProgress} (open_ : ((rowCounted i c eof d).furrow i).current = some fr)
    (more : fr.rows < c.height) (overflow : row.overflow = true) (lapsed : (rowCounted i c eof d).fabric.lapse.isSome = true) :
    takeRow i c row eof d = overflowRow i c fr (rowCounted i c eof d) := by
  unfold rowCounted at open_ lapsed ⊢
  simp only [takeRow, ge_iff_le, open_, if_neg (Nat.not_le.2 more), overflow, lapsed, Bool.and_self, if_true]

/-- Any other row of the current frame is written. -/
theorem takeRow_of_room {eof : Bool} {fr : FrameInProgress} (open_ : ((rowCounted i c eof d).furrow i).current = some fr)
    (more : fr.rows < c.height) (room : row.overflow = false ∨ (rowCounted i c eof d).fabric.lapse = none) :
    takeRow i c row eof d = writeRow i c fr row eof (rowCounted i c eof d) := by
  have kept : (row.overflow && (rowCounted i c eof d).fabric.lapse.isSome) = false := by
    rcases room with fits | lasts
    · rw [fits, Bool.false_and]
    · rw [lasts, Option.isSome_none, Bool.and_false]
  unfold rowCounted at open_ kept ⊢
  simp only [takeRow, ge_iff_le, open_, if_neg (Nat.not_le.2 more), kept, Bool.false_eq_true, if_false]

/-! ## The ends of frames (R130, R133, R134) -/

variable {fr : FrameInProgress}

/-- R133: a frame still received 1.5 × max_period after its SOF ends. -/
theorem frameTimeout_of_late {t : Nat} (config : (d.furrow i).config = some c) (current : (d.furrow i).current = some fr)
    (sof : (d.furrow i).lastSof = some t) (runs : (d.furrow i).runs = true) (late : 3 * (d.stream c.stream).maxPeriod ≤ 2 * (d.now - t)) :
    frameTimeout i d = endReception i c true d := by
  simp only [frameTimeout, config, current, sof, runs, ge_iff_le, late, decide_true, Bool.and_self, if_true]

/-- R134: the oldest fill in hand lands once its time has passed. -/
theorem fillLands_of_due {r t : Nat} (config : (d.furrow i).config = some c) (ending : (d.furrow i).ending.find? (fun x => x.fillAt.isSome) = some fr)
    (first : fr.fillFrom = some r) (since : fr.fillAt = some t) (due : t + fillTime c (c.height - r) ≤ d.now) :
    fillLands i d = landFill i c fr r d := by
  simp only [fillLands, config, ending, first, since, ge_iff_le, if_pos due]

/-- R130: the oldest frame that waits for no fill is delivered. -/
theorem frameDeliver_of_whole (config : (d.furrow i).config = some c) (ending : (d.furrow i).ending.head? = some fr) (whole : fr.fillAt = none) :
    frameDeliver i d = deliver i c fr d := by
  simp only [frameDeliver, config, ending, whole, Option.isNone_none, if_true]

/-- A running furrow between frames is silent 1.5 × max_period after its last SOF and its last frame's end. -/
theorem furrowSilent_of_late {sof : Nat} (config : (d.furrow i).config = some c) (started : (d.furrow i).lastSof = some sof)
    (runs : (d.furrow i).runs = true) (first : (d.furrow i).silent = false) (idle : (d.furrow i).current = none) (ended : (d.furrow i).ending = [])
    (late : 3 * (d.stream c.stream).maxPeriod ≤ 2 * (d.now - max sof ((d.furrow i).lastEnd.getD 0))) :
    furrowSilent i d =
      raise 0x0385 2 (0x2000 + c.stream) (le 2 (0x2000 + c.stream) ++ le 4 (min 4294967295 ((d.now - sof) / 1000)))
        (d.onFurrow i fun f => { f with silent := true }) (td := c.domain) (frame := (d.stream c.stream).frame) := by
  have most : 2 ^ 32 - 1 = 4294967295 := rfl
  have due : (decide (2 * (d.now - max sof ((d.furrow i).lastEnd.getD 0)) ≥ 3 * (d.stream c.stream).maxPeriod)) = true := decide_eq_true late
  simp only [furrowSilent, config, started, runs, first, idle, ended, due, most, Option.isNone_none, List.isEmpty_nil, Bool.not_false, Bool.and_self, if_true]

/-! ## Training and re-centring (R124, R126) -/

/-- R124: training ends with each mapped lane locked or not, as what it repeats and its eye say. -/
theorem trainDone_of_training (found : List TrainIn) (eyes : List Nat) (training : (d.furrow i).state = .training)
    (config : (d.furrow i).config = some c) :
    trainDone i found eyes d =
      trainOver i (d.furrow i).trainedBy.toList (d.onFurrow i fun f => { f with
        state := .stopped, trainedBy := none
        lanes := (indexed (mappedLanes f)).foldl (fun l e => tabMod l e.2 fun y =>
          { y with locked := trainLocks (d.furrow i).sync c (tabGet found e.1) (tabGet eyes e.1)
                   failed := y.failed && !trainLocks (d.furrow i).sync c (tabGet found e.1) (tabGet eyes e.1)
                   eye := min 255 (tabGet eyes e.1), sampling := 0 }) f.lanes }) := by
  simp only [trainDone, training, config, Option.any_some, ne_eq, not_true_eq_false, if_false]

/-- The headland has lasted 2 µs where no row is to come and the last one, if any, ended then. -/
theorem inHeadland_iff {f : Furrow} {now : Nat} :
    f.inHeadland now = true ↔ f.rowsOver = true ∧ ∀ e : Nat, f.lastRow = some e → e + 2000 ≤ now := by
  cases h : f.lastRow <;> simp [Furrow.inHeadland, h]

/-- The headland is long enough where the declared period leaves 20 µs after the last row, as far as both are known. -/
theorem headlandFits_iff {f : Furrow} :
    headlandFits d f c = true ↔
      ∀ s e : Nat, f.lastSof = some s → f.lastRow = some e → e + 20000 ≤ s + (d.stream c.stream).minPeriod := by
  cases hs : f.lastSof <;> cases he : f.lastRow <;> simp [headlandFits, hs, he]

/-- A mapped lane's sampling point moves by at most 2 steps, if it moves. -/
def moveLane (moves : List (Option Int)) (l : List Lane) (e : Nat × Nat) : List Lane := match tabGet moves e.1 with
  | some m => tabMod l e.2 fun x => { x with sampling := x.sampling + max (-2) (min 2 m) }
  | none => l

/-- The module once a pass has counted the lanes that did not toggle enough and moved the others. -/
def lanesMoved (i : Nat) (moves : List (Option Int)) (d : Dev) : Dev :=
  let lanes := indexed (mappedLanes (d.furrow i))
  (count (0x1000 + i) 6 (lanes.countP fun e => (tabGet moves e.1).isNone) d).onFurrow i fun f => { f with lanes := lanes.foldl (moveLane moves) f.lanes }

/-- What a pass over the lanes of a running native furrow does, by its headland. -/
theorem recentre_of_runs (config : (d.furrow i).config = some c) (native : c.mode = 0) (runs : (d.furrow i).runs = true) (moves : List (Option Int)) :
    recentre i moves d =
      if !(d.furrow i).inHeadland d.now then d
      else if !headlandFits d (d.furrow i) c then count (0x1000 + i) 6 1 d
      else recentreOver i (lanesMoved i moves d) := by
  have meant : (d.furrow i).config.filter (fun c => (d.furrow i).runs && c.mode = 0) = some c := by simp [config, native, runs]
  simp only [recentre, meant]
  rfl

/-- Moving lanes leaves the commands that wait for a pass. -/
theorem lanesMoved_recentreBy (moves : List (Option Int)) : ((lanesMoved i moves d).furrow i).recentreBy = (d.furrow i).recentreBy := by
  by_cases inTable : i < d.furrows.length
  · simp only [lanesMoved, Dev.furrow, Dev.onFurrow, count_furrows]
    rw [tabGet_tabMod_same _ _ inTable]
  · simp only [lanesMoved, Dev.furrow, Dev.onFurrow, count_furrows, tabMod]
    rw [List.set_eq_of_length_le (Nat.not_lt.1 inTable)]

/-- A pass that no FURROW_TRAIN waits for is over with its time noted. -/
theorem recentreOver_of_none (h : (d.furrow i).recentreBy = []) :
    recentreOver i d = d.onFurrow i fun f => { f with lastRecentre := d.now, recentreBy := [] } := by
  simp only [recentreOver, h, List.isEmpty_nil, if_true]

/-- A pass over a furrow that no FURROW_TRAIN waits on moves the lanes and notes its time. -/
theorem recentreOver_lanesMoved (moves : List (Option Int)) (h : (d.furrow i).recentreBy = []) :
    recentreOver i (lanesMoved i moves d) =
      let lanes := indexed (mappedLanes (d.furrow i))
      (count (0x1000 + i) 6 (lanes.countP fun e => (tabGet moves e.1).isNone) d).onFurrow i fun f =>
        { f with lastRecentre := d.now, recentreBy := [], lanes := lanes.foldl (moveLane moves) f.lanes } := by
  rw [recentreOver_of_none ((lanesMoved_recentreBy moves).trans h)]
  simp only [lanesMoved, Dev.onFurrow, tabMod_tabMod, count_now]

end

/-- Settles O48: each row is carried out by `after`, and the lemma of its case says what it does. -/
theorem furrowRows : Obligations.FurrowRows := by
  unfold Obligations.FurrowRows
  refine ⟨fun i c l => ⟨?_, ?_⟩, fun i c row => ⟨?_, ?_, fun fr => ⟨?_, ?_, ?_⟩⟩, fun i c fr t => ?_, fun i c fr r t => ?_, fun i c fr => ?_,
    fun i c sof => ?_, fun i found eyes c => ?_, fun i c moves => ⟨?_, ?_, ?_⟩⟩
  · exact happens_of_after (fun _ _ => rfl) fun d ⟨⟨config, runs⟩, csi, starts⟩ => furrowSof_of_frameStart config runs csi starts
  · exact happens_of_after (fun _ _ => rfl) fun d ⟨⟨config, runs⟩, native, most⟩ => furrowSof_of_shown config runs native most
  · exact happens_of_after (fun _ _ => rfl) fun d ⟨⟨config, runs⟩, unbegun⟩ => furrowRowEnd_of_unbegun config runs unbegun
  · exact happens_of_after (fun _ _ => rfl) fun d ⟨⟨config, runs⟩, begun, idle⟩ =>
      (furrowRowEnd_of_begun config runs begun).trans (takeRow_of_none idle)
  · exact happens_of_after (fun _ _ => rfl) fun d ⟨⟨⟨config, runs⟩, begun, open_⟩, full⟩ =>
      (furrowRowEnd_of_begun config runs begun).trans (takeRow_of_beyond open_ full)
  · exact happens_of_after (fun _ _ => rfl) fun d ⟨⟨⟨config, runs⟩, begun, open_⟩, more, overflow, lapsed⟩ =>
      (furrowRowEnd_of_begun config runs begun).trans (takeRow_of_overflow open_ more overflow lapsed)
  · exact happens_of_after (fun _ _ => rfl) fun d ⟨⟨⟨config, runs⟩, begun, open_⟩, more, room⟩ =>
      (furrowRowEnd_of_begun config runs begun).trans (takeRow_of_room open_ more room)
  · exact happens_of_after (fun _ _ => rfl) fun d ⟨config, current, sof, runs, late⟩ => frameTimeout_of_late config current sof runs late
  · exact happens_of_after (fun _ _ => rfl) fun d ⟨config, ending, first, since, due⟩ => fillLands_of_due config ending first since due
  · exact happens_of_after (fun _ _ => rfl) fun d ⟨config, ending, whole⟩ => frameDeliver_of_whole config ending whole
  · exact happens_of_after (fun _ _ => rfl) fun d ⟨config, started, runs, first, idle, ended, late⟩ =>
      furrowSilent_of_late config started runs first idle ended late
  · exact happens_of_after (fun _ _ => rfl) fun d ⟨training, config⟩ => trainDone_of_training found eyes training config
  · refine happens_of_after (fun _ _ => rfl) fun d ⟨⟨config, native, runs⟩, settled, room, alone⟩ => ?_
    rw [recentre_of_runs config native runs, inHeadland_iff.2 settled, headlandFits_iff.2 room]
    exact recentreOver_lanesMoved moves alone
  · refine happens_of_after (fun _ _ => rfl) fun d ⟨⟨config, native, runs⟩, settled, short⟩ => ?_
    rw [recentre_of_runs config native runs, inHeadland_iff.2 settled, Bool.eq_false_iff.2 (mt headlandFits_iff.1 short)]
    rfl
  · refine happens_of_after (fun _ _ => rfl) fun d ⟨⟨config, native, runs⟩, unsettled⟩ => ?_
    rw [recentre_of_runs config native runs, Bool.eq_false_iff.2 (mt inHeadland_iff.1 unsettled)]
    rfl

end Sys2Proof.Machine
end

section
/-! PROOF. Encoder sessions (R250, R267, R273 to R291): the commands of area 0x08, and O28. -/

namespace Sys2Proof.Machine

variable {d : Dev}

/-- R250, R273: with a free index of its codec the session opens there, and it is the sender's. -/
theorem encOpen_act_of_free {c : Ctx} {i : Nat}
    (index : (if u8 c.b 0 = 0 then List.range 64 else (List.range 32).map (64 + ·)).find? (encoderFree d) = some i) :
    specEncOpen.act c d =
      (giveOwner (0x5000 + i) c.session (clearCounters (0x5000 + i)
        (d.onCodecs fun x => { x with encoders := mapSet x.encoders i (freshEncoder (u8 c.b 0)) })), some (.ok (le 2 (0x5000 + i) ++ le 2 0))) := by
  simp only [specEncOpen, index]

/-- Settles O28: ENC_OPEN takes the first free index, ENC_CLOSE and the commits have the effects of their spec records, and ENC_QUERY only answers. -/
theorem encoderCommands : Obligations.EncoderCommands := by
  unfold Obligations.EncoderCommands
  refine ⟨fun i => ?_, ?_, ?_, ?_, ?_, ?_, ?_, ?_⟩
  · exact runsWhere_of_act 0x0800 (fun _ => rfl) rfl fun c d index => ⟨encOpen_act_of_free index, rfl⟩
  · exact runsWhere_of_act 0x0801 (fun _ => rfl) rfl fun _ _ _ => ⟨rfl, rfl⟩
  · exact settles_of_settle (fun _ => rfl) rfl rfl (fun _ _ _ => rfl) fun _ _ => rfl
  · exact settles_of_settle (fun _ => rfl) rfl rfl (fun _ _ _ => rfl) fun _ _ => rfl
  · exact settles_of_settle (fun _ => rfl) rfl rfl (fun _ _ _ => rfl) fun _ _ => rfl
  · exact settles_of_settle (fun _ => rfl) rfl rfl (fun _ _ _ => rfl) fun _ _ => rfl
  · exact settles_of_settle (fun _ => rfl) rfl rfl (fun _ _ _ => rfl) fun _ _ => rfl
  · exact answers_of_act 0x0806 (fun _ => rfl) rfl fun _ _ => rfl

end Sys2Proof.Machine
end

section
/-! PROOF. Decoder sessions (R294, R296, R297, R307, R309): the commands of area 0x09, and O29. -/

namespace Sys2Proof.Machine

variable {d : Dev}

/-- R309: with a free index the session opens at the lowest, and it is the sender's. -/
theorem decOpen_act_of_free {c : Ctx} {i : Nat} (index : newDecoder d = some i) :
    specDecOpen.act c d =
      (giveOwner (0x6000 + i) c.session (clearCounters (0x6000 + i)
        (d.onCodecs fun x => { x with decoders := mapSet x.decoders i (readDecoder c.b) })), some (.ok (le 2 (0x6000 + i) ++ le 2 0))) := by
  simp only [specDecOpen, decOpenSettle, index]

/-- Mode 1 of DEC_FLUSH discards the waiting units and the pictures without an output slot; those in a slot are references no more, and there is no
last good picture (R300). Mode 0 discards nothing. -/
def flushDiscarded (c : Ctx) (d : Dev) : Dev :=
  if u8 c.b 2 = 1 then d.onDecoder (objIndex (u16 c.b 0)) fun q => { q with
    queue := [], good := none, pictures := (q.pictures.filter (·.slot.isSome)).map fun x => { x with reference := false } } else d

/-- A decoder has no unit that waits or decodes. -/
def decoderDrained (i : Nat) (d : Dev) : Bool :=
  let q := (mapGet d.codecs.decoders i).getD {}
  q.queue.isEmpty && q.decoding.isNone

/-- What DEC_FLUSH leaves, with its answer: done where nothing is left after what it discards (log 65), or
PENDING and noted as draining. -/
def flushed (c : Ctx) (d : Dev) : Dev × Rsp :=
  if decoderDrained (objIndex (u16 c.b 0)) (flushDiscarded c d) then (flushDiscarded c d, .ok)
  else ((flushDiscarded c d).onDecoder (objIndex (u16 c.b 0)) fun q => { q with draining := some c.pending }, .pending)

/-- DEC_FLUSH runs, whether or not anything is left to drain. -/
theorem runs_decFlush : Runs .decFlush specDecFlush flushed :=
  runsWhere_of_act 0x0903 (fun _ => rfl) rfl fun c d _ => by
    by_cases drained : decoderDrained (objIndex (u16 c.b 0)) (flushDiscarded c d) = true
    · rw [flushed, if_pos drained]
      exact ⟨if_pos drained, rfl⟩
    · rw [flushed, if_neg drained]
      exact ⟨if_neg drained, rfl⟩

/-- Settles O29: DEC_OPEN takes the lowest free index, DEC_FLUSH is done or PENDING by what is left, DEC_CLOSE, DEC_SUBMIT and the commit of
DEC_BIND have the effects of their spec records, and DEC_QUERY only answers. -/
theorem decoderCommands : Obligations.DecoderCommands := by
  unfold Obligations.DecoderCommands
  refine ⟨fun i => ?_, ?_, ?_, runs_decFlush, ?_, ?_⟩
  · exact runsWhere_of_act 0x0900 (fun _ => rfl) rfl fun c d index => ⟨decOpen_act_of_free index, rfl⟩
  · exact runsWhere_of_act 0x0901 (fun _ => rfl) rfl fun _ _ _ => ⟨rfl, rfl⟩
  · exact runsWhere_of_act 0x0902 (fun _ => rfl) rfl fun _ _ _ => ⟨rfl, rfl⟩
  · exact settles_of_settle (fun _ => rfl) rfl rfl (fun _ _ _ => rfl) fun _ _ => rfl
  · exact answers_of_act 0x0905 (fun _ => rfl) rfl fun _ _ => rfl

end Sys2Proof.Machine
end

section
/-! PROOF. Rasters and SDI inputs (R311 to R334): the commands of area 0x0A, and O30; what reset leaves of them, and O4. -/

namespace Sys2Proof.Machine

/-! ## Commands -/

/-- Settles O30: planes, reduced refresh and fill have the effects of their spec records at commits, RASTER_QUERY only answers, and every other
command changes its raster, group or SDI input at once. -/
theorem rasterCommands : Obligations.RasterCommands := by
  unfold Obligations.RasterCommands
  refine ⟨?timing, ?cut, ?plane, ?output, ?group, ?crc, ?refresh, ?underrun, ?sdiRx, ?query, ?start, ?stop⟩
  case timing => exact runsWhere_of_act 0x0A00 (fun _ => rfl) rfl fun _ _ _ => ⟨rfl, rfl⟩
  case cut => exact runsWhere_of_act 0x0A04 (fun _ => rfl) rfl fun _ _ _ => ⟨rfl, rfl⟩
  case plane => exact settles_of_settle (fun _ => rfl) rfl rfl (fun _ _ _ => rfl) fun _ _ => rfl
  case output => exact runsWhere_of_act 0x0A02 (fun _ => rfl) rfl fun _ _ _ => ⟨rfl, rfl⟩
  case group => exact runsWhere_of_act 0x0A03 (fun _ => rfl) rfl fun _ _ _ => ⟨rfl, rfl⟩
  case crc => exact runsWhere_of_act 0x0A05 (fun _ => rfl) rfl fun _ _ _ => ⟨rfl, rfl⟩
  case refresh => exact settles_of_settle (fun _ => rfl) rfl rfl (fun _ _ _ => rfl) fun _ _ => rfl
  case underrun => exact settles_of_settle (fun _ => rfl) rfl rfl (fun _ _ _ => rfl) fun _ _ => rfl
  case sdiRx => exact runsWhere_of_act 0x0A08 (fun _ => rfl) rfl fun _ _ _ => ⟨rfl, rfl⟩
  case query => exact answers_of_act 0x0A09 (fun _ => rfl) rfl fun _ _ => rfl
  case start => exact runsWhere_of_act 0x0A0A (fun _ => rfl) rfl fun _ _ _ => ⟨rfl, rfl⟩
  case stop => exact runsWhere_of_act 0x0A0B (fun _ => rfl) rfl fun _ _ _ => ⟨rfl, rfl⟩

/-! ## Reset -/

/-- After reset every raster is as its declaration says. -/
theorem reset_raster {i : Nat} (h : i < 8) : State.reset.dev.raster i = {} := tabGet_replicate (n := 8) ({} : Raster) h

/-- After reset every SDI input is as its declaration says. -/
theorem reset_sdiIn {i : Nat} (h : i < 4) : tabGet State.reset.dev.display.sdiIn i = {} := tabGet_replicate (n := 4) ({} : SdiInput) h

/-- Settles O4: a raster and an SDI input are read as their tables' entries, whose declarations are R334's values. -/
theorem rastersAfterReset : Obligations.RastersAfterReset := by
  unfold Obligations.RastersAfterReset
  refine ⟨fun i hi => ?raster, fun i hi => ?sdiIn⟩
  case raster =>
    rw [reset_raster hi]
    exact ⟨rfl, rfl, rfl, rfl, rfl, rfl, rfl, rfl⟩
  case sdiIn =>
    rw [reset_sdiIn hi]
    exact ⟨rfl, rfl⟩

end Sys2Proof.Machine
end

section
/-! PROOF. What reset leaves of the audio unit (R391): O5. -/

namespace Sys2Proof.Machine

/-- After reset every audio port is as its declaration says. -/
theorem reset_port {p : Nat} (h : p < 16) : State.reset.dev.port p = {} := tabGet_replicate (n := 16) ({} : AudioPort) h

/-- After reset every SCG is off. -/
theorem reset_scgs_off : State.reset.dev.audio.scgs.all (fun g => !g.enable) = true := List.all_replicate (n := 4) (a := ({} : Scg))

/-- After reset no audio group has a member. -/
theorem reset_groups_empty : State.reset.dev.audio.groups.all (fun g => g.members == 0) = true :=
  List.all_replicate (n := 8) (a := ({} : AudioGroup))

/-- Settles O5: a port with its ASRC is read as its table's entry, whose declaration is R391's values; the SCGs and the groups are tables of
equal entries, off as declared, and the list of embedders is declared empty. -/
theorem audioAfterReset : Obligations.AudioAfterReset := by
  unfold Obligations.AudioAfterReset
  refine ⟨fun p hp => ?port, reset_scgs_off, reset_groups_empty, rfl⟩
  case port =>
    rw [reset_port hp]
    exact ⟨rfl, rfl, rfl, rfl, rfl, rfl, rfl, rfl, rfl, rfl, rfl⟩

end Sys2Proof.Machine
end

section
/-! PROOF. Faults and frame memory (R413, R414, R503, R512 to R516): the commands of area 0x11, and O37; the ranks and slots that reset leaves (R393, R394),
and O6. -/

namespace Sys2Proof

/-- Every entry of a table that is computed from its index. -/
theorem tabGet_map_range {β : Type} [Inhabited β] {n i : Nat} (f : Nat → β) (h : i < n) : tabGet ((List.range n).map f) i = f i := by
  simp [tabGet, h]

end Sys2Proof

namespace Sys2Proof.Machine

/-! ## Faults -/

/-- The age of the last heartbeat that YOKE_STATUS shows, by the free value that it takes: 0 to 10 µs (Table 22.2, log 31). -/
def heartbeatAge (k : Nat) : Nat := Config.freeNat k 0 % 11

/-- A heartbeat comes every 10 µs. -/
theorem heartbeatAge_le (k : Nat) : heartbeatAge k ≤ 10 := Nat.lt_succ_iff.1 (Nat.mod_lt _ (by decide))

/-- The group of the journal that FAILOVER_FORCE leaves: the command as a request, with its reply (R516). -/
def forcedGroup (c : Ctx) : JournalGroup where
  request := { op := c.op, pkt := { time := c.time, endpoint := c.endpoint, session := c.sid, seq := c.seq, params := c.b } }
  reply := some { op := c.op, session := c.sid, seq := c.seq }

/-- The module with a fail-over forced: the command's group is the journal's last, and the module is paused (R502, R506). -/
def failoverForced (c : Ctx) (d : Dev) : Dev := pauseControl (d.onFaults fun f => { f with groups := f.groups ++ [forcedGroup c] })

/-- FAILOVER_FORCE leaves its reply to the standby complex: the active one answers nothing (R516, log 31). -/
theorem exec_failoverForce {p : Packet} {s : State} {q : Request} {d : Dev} (h : immediate (.failoverForce p) s specFailoverForce = some (q, d)) :
    exec (.failoverForce p) s = .next (s.set (failoverForced (contextOf d q) d)) := by
  have spec : commandSpec q.op = some specFailoverForce := by rw [op_of_immediate h rfl]; rfl
  exact exec_of_immediate_unanswered h spec rfl rfl

/-! ## Ranks -/

/-- RANK_RETIRE with action 1 sets the rank's threshold and is done; with action 0 the rank leaves service, and the answer is PENDING (R414). -/
def rankRetired (c : Ctx) (d : Dev) : Dev × Rsp :=
  if u8 c.b 2 = 1 then (d.onRank (objIndex (u16 c.b 0)) fun r => { r with threshold := u16 c.b 4, raised := false }, .ok)
  else (leaveService (objIndex (u16 c.b 0)) (some c.pending) d, .pending)

/-- RANK_RETIRE runs, for either action. -/
theorem runs_rankRetire : Runs .rankRetire specRankRetire rankRetired :=
  runsWhere_of_act 0x1104 (fun _ => rfl) rfl fun c d _ => by
    by_cases sets : u8 c.b 2 = 1
    · rw [rankRetired, if_pos sets]
      exact ⟨if_pos sets, rfl⟩
    · rw [rankRetired, if_neg sets]
      exact ⟨if_neg sets, rfl⟩

/-- Settles O37: the queries only answer, YOKE_STATUS with a heartbeat age that its free value gives; FAILOVER_FORCE is answered from the journal, and
RANK_RETIRE does what its action says. -/
theorem faultAndRankCommands : Obligations.FaultAndRankCommands := by
  unfold Obligations.FaultAndRankCommands
  refine ⟨?faults, fun p s q d => exec_failoverForce, ⟨heartbeatAge, heartbeatAge_le, ?yoke⟩, ?drills, ?log, ?ranks, runs_rankRetire⟩
  case faults => exact answers_of_act 0x1100 (fun _ => rfl) rfl fun _ _ => rfl
  case yoke => exact runsWhere_of_act 0x1102 (fun _ => rfl) rfl fun _ _ _ => ⟨rfl, rfl⟩
  case drills => exact answers_of_act 0x1105 (fun _ => rfl) rfl fun _ _ => rfl
  case log => exact answers_of_act 0x1106 (fun _ => rfl) rfl fun _ _ => rfl
  case ranks => exact answers_of_act 0x1103 (fun _ => rfl) rfl fun _ _ => rfl

/-! ## Reset -/

/-- One rank of every 48 is set apart: the last of pseudo-channels 15 and 31 of each stack. -/
theorem mod48_eq_47_iff {i : Nat} (h : i < 192) : i % 48 = 47 ↔ i = 47 ∨ i = 95 ∨ i = 143 ∨ i = 191 := by omega

/-- The rank of stack-ID level `sid` of pseudo-channel `pc` on stack `s` (R393) is set apart at level 2 of pseudo-channels 15 and 31. -/
theorem rankNumber_mod48_eq_47_iff {s pc sid : Nat} (hpc : pc < 32) (hsid : sid < 3) :
    (96 * s + 3 * pc + sid) % 48 = 47 ↔ sid = 2 ∧ (pc = 15 ∨ pc = 31) := by omega

/-- After reset every 48th rank is fallow and every other in service. -/
theorem reset_rank_state {i : Nat} (h : i < 192) :
    (tabGet State.reset.dev.hbm.ranks i).state = if i % 48 = 47 then .fallow else .inService := by
  have entry : tabGet State.reset.dev.hbm.ranks i = if i % 48 == 47 then { state := .fallow } else {} := tabGet_map_range _ h
  rw [entry, apply_ite Rank.state]
  simp only [beq_iff_eq]

/-- After reset a rank is fallow where it is set apart. -/
theorem reset_rank_fallow_iff {i : Nat} (h : i < 192) : (tabGet State.reset.dev.hbm.ranks i).state = .fallow ↔ i % 48 = 47 := by
  simp [reset_rank_state h]

/-- After reset the slots hold the ranks that are not set apart, in ascending order. -/
theorem reset_slots : State.reset.dev.hbm.slots = (List.range 192).filter fun i => i % 48 != 47 := rfl

/-- Settles O6: a rank is fallow where it is the last of 48, and the slots hold the others. -/
theorem ranksAfterReset : Obligations.RanksAfterReset := by
  unfold Obligations.RanksAfterReset
  refine ⟨fun i hi => ?states, ?slots, ?count, fun s hs pc hpc sid hsid => ?fallow⟩
  case states => simp only [reset_rank_state hi, mod48_eq_47_iff hi]
  case slots =>
    rw [reset_slots]
    refine List.filter_congr fun i hi => ?_
    have apart : (i % 48 == 47) = (i == 47 || i == 95 || i == 143 || i == 191) := by
      rw [Bool.eq_iff_iff]
      simp [or_assoc, mod48_eq_47_iff (List.mem_range.1 hi)]
    rw [bne, apart]
  case count => rfl
  case fallow => rw [reset_rank_fallow_iff (by omega), rankNumber_mod48_eq_47_iff hpc hsid]

end Sys2Proof.Machine
end

section
/-! PROOF. Memories (R416, R423): what a write and a clearing leave at each address, and O57. -/

namespace Sys2Proof.Machine

/-! ## Reading what is listed -/

/-- An address that no cell of a memory's front part lists is read in its back part. -/
theorem memGet_append_of_absent_front {m : Mem} {x : Nat} (n : Mem) (absent : ∀ c ∈ m, c.1 ≠ x) : memGet (m ++ n) x = memGet n x := by
  induction m with
  | nil => rfl
  | cons c m ih =>
    obtain ⟨here, rest⟩ := List.forall_mem_cons.1 absent
    exact (if_neg here).trans (ih rest)

/-- An address that no cell lists reads as 0. -/
theorem memGet_of_absent {m : Mem} {x : Nat} (absent : ∀ c ∈ m, c.1 ≠ x) : memGet m x = 0 := by
  simpa [memGet] using memGet_append_of_absent_front [] absent

/-- An address that no cell of a memory's back part lists is read in its front part. -/
theorem memGet_append_of_absent_back (m : Mem) {n : Mem} {x : Nat} (absent : ∀ c ∈ n, c.1 ≠ x) : memGet (m ++ n) x = memGet m x := by
  induction m with
  | nil => exact memGet_of_absent absent
  | cons c m ih => simp only [List.cons_append, memGet, ih]

/-- Cells chosen by their addresses read as before at every address that is chosen. -/
theorem memGet_filter_of_kept (m : Mem) {p : Nat → Bool} {x : Nat} (kept : p x = true) : memGet (m.filter fun c => p c.1) x = memGet m x := by
  induction m with
  | nil => rfl
  | cons c m ih =>
    obtain ⟨k, v⟩ := c
    cases keeps : p k with
    | true => simp only [List.filter_cons, keeps, if_true, memGet, ih]
    | false =>
      have other : k ≠ x := by rintro rfl; simp [keeps] at kept
      simp [keeps, memGet, other, ih]

/-- A run of bytes reads as its first byte at its address and as the rest elsewhere: a zero byte has no cell, and the rest has none there. -/
theorem memGet_cellsOf_cons (a x : Nat) (b : Byte) (bs : List Byte) :
    memGet (cellsOf a (b :: bs)) x = if a = x then b else memGet (cellsOf (a + 1) bs) x := by
  by_cases zero : b = 0
  · rw [cellsOf, if_pos zero]
    split
    · next first =>
      have later : ∀ c ∈ cellsOf (a + 1) bs, c.1 ≠ x := fun c hc => by have := memSortedFrom_le (cellsOf_sorted (a + 1) bs) c hc; omega
      rw [memGet_of_absent later, zero]
    · rfl
  · rw [cellsOf, if_neg zero, memGet]

/-- The cells of a run of bytes read as its bytes. -/
theorem memGet_cellsOf {a x : Nat} {bs : List Byte} (low : a ≤ x) : memGet (cellsOf a bs) x = bs.getD (x - a) 0 := by
  induction bs generalizing a with
  | nil => rfl
  | cons b bs ih =>
    rw [memGet_cellsOf_cons]
    obtain rfl | above := Nat.eq_or_lt_of_le low
    · simp
    · rw [if_neg (Nat.ne_of_lt above), ih above, show x - a = x - (a + 1) + 1 by omega, List.getD_cons_succ]

/-! ## Writing and clearing -/

/-- A write changes exactly its own bytes. -/
theorem memGet_memWrite (m : Mem) (a x : Nat) (bs : List Byte) :
    memGet (memWrite m a bs) x = if a ≤ x ∧ x < a + bs.length then bs.getD (x - a) 0 else memGet m x := by
  have written : ∀ c ∈ cellsOf a bs, a ≤ c.1 ∧ c.1 < a + bs.length := fun c hc =>
    ⟨memSortedFrom_le (cellsOf_sorted a bs) c hc, cellsOf_lt a bs c hc⟩
  have lower : ∀ c ∈ m.filter (fun c => c.1 < a), c.1 < a := fun c hc => by simpa using (List.mem_filter.1 hc).2
  have upper : ∀ c ∈ m.filter (fun c => a + bs.length ≤ c.1), a + bs.length ≤ c.1 := fun c hc => by simpa using (List.mem_filter.1 hc).2
  rw [memWrite, List.append_assoc]
  by_cases own : a ≤ x ∧ x < a + bs.length
  · rw [if_pos own, memGet_append_of_absent_front _ fun c hc => by have := lower c hc; omega,
      memGet_append_of_absent_back _ fun c hc => by have := upper c hc; omega, memGet_cellsOf own.1]
  · rw [if_neg own]
    obtain below | above : x < a ∨ a + bs.length ≤ x := by omega
    · have beyond : ∀ c ∈ cellsOf a bs ++ m.filter (fun c => a + bs.length ≤ c.1), c.1 ≠ x := fun c hc => by
        obtain hc | hc := List.mem_append.1 hc
        · have := written c hc; omega
        · have := upper c hc; omega
      rw [memGet_append_of_absent_back _ beyond]
      exact memGet_filter_of_kept m (p := fun k => k < a) (decide_eq_true below)
    · rw [memGet_append_of_absent_front _ fun c hc => by have := lower c hc; omega,
        memGet_append_of_absent_front _ fun c hc => by have := written c hc; omega]
      exact memGet_filter_of_kept m (p := fun k => a + bs.length ≤ k) (decide_eq_true above)

/-- Zeros have no cells. -/
theorem cellsOf_zeros (a n : Nat) : cellsOf a (List.replicate n 0) = [] := by
  induction n generalizing a with
  | zero => rfl
  | succ n ih => exact (if_pos rfl).trans (ih (a + 1))

/-- Clearing writes zeros. -/
theorem memClear_eq_memWrite (m : Mem) (a n : Nat) : memClear m a n = memWrite m a (List.replicate n 0) := by
  simp only [memClear, memWrite, cellsOf_zeros, List.length_replicate, List.append_nil]

/-- Clearing sets exactly its own bytes to zero. -/
theorem memGet_memClear (m : Mem) (a n x : Nat) : memGet (memClear m a n) x = if a ≤ x ∧ x < a + n then 0 else memGet m x := by
  have zero : (List.replicate n (0 : Byte)).getD (x - a) 0 = 0 := by
    simp only [List.getD_eq_getElem?_getD, List.getElem?_replicate]
    split <;> rfl
  rw [memClear_eq_memWrite, memGet_memWrite, List.length_replicate, zero]

/-- What was written reads back. -/
theorem memRead_memWrite (m : Mem) (a : Nat) (bs : List Byte) : memRead (memWrite m a bs) a bs.length = bs := by
  refine List.ext_getElem (by simp [memRead]) fun i _ inside => ?_
  simp [memRead, memGet_memWrite, inside]

/-- Settles O57: writing and clearing by the rules above, and a memory without cells reads as 0 everywhere. -/
theorem memoryWritesOwnBytes : Obligations.MemoryWritesOwnBytes := by
  unfold Obligations.MemoryWritesOwnBytes
  exact ⟨memGet_memWrite, memGet_memClear, memRead_memWrite, fun _ => ⟨rfl, rfl⟩⟩

end Sys2Proof.Machine
end

section
/-! PROOF. Pails (R416 to R430): the commands of area 0x0E, and O34. -/

namespace Sys2Proof.Machine

variable {c : Ctx} {d : Dev} {i : Nat}

/-- R417, R423: with an index and the pages at hand, PAIL_ALLOC makes its pail there. -/
theorem pailAlloc_act_of_room {l : List Nat} (index : newPailIndex d = some i)
    (pages : allocPages d (roundUp (u64 c.b 0) (if bit (u16 c.b 8) 0 then 0x200000 else 0x10000)) (bit (u16 c.b 8) 0) = some l) :
    specPailAlloc.act c d =
      let large := bit (u16 c.b 8) 0
      let t := makePail i c.session { large, size := roundUp (u64 c.b 0) (if large then 0x200000 else 0x10000), pages := l } d
      (t, some (.ok (pailReply t i))) := by
  simp only [specPailAlloc, index, pages]

/-- The host pail that PAIL_IMPORT_HOST asks for, before its pages are known (R424, Table 18.9). -/
def askedImport (c : Ctx) : Pail where
  host := true
  size := u64 c.b 0
  readOnly := bit (u16 c.b 16) 0
  noSnoop := bit (u16 c.b 16) 1
  relaxed := bit (u16 c.b 16) 2
  writable := !bit (u16 c.b 16) 0

/-- The pail of an import whose page list is read before the reply. -/
def importedNow (i : Nat) (c : Ctx) (d : Dev) : Dev :=
  makePail i c.session { askedImport c with pages := pageList d (u64 c.b 8) (u64 c.b 0 / 65536) } d

/-- The pail of an import that waits for its page list. -/
def importedLater (i : Nat) (c : Ctx) (d : Dev) : Dev :=
  makePail i c.session { askedImport c with importing := some (c.pending, u64 c.b 8) } d

/-- R424: an import of at most 4,096 pages is done with its reply, a longer one is PENDING. -/
def imported (i : Nat) (c : Ctx) (d : Dev) : Dev × Rsp :=
  if u64 c.b 0 / 65536 ≤ 4096 then (importedNow i c d, .ok (pailReply (importedNow i c d) i))
  else (importedLater i c d, .pending (pailReply (importedLater i c d) i))

/-- An import with an index at hand makes its pail there, of either length. -/
theorem pailImportHost_act_of_index (index : newPailIndex d = some i) :
    specPailImportHost.act c d = ((imported i c d).1, some (imported i c d).2) := by
  simp only [specPailImportHost, index]
  by_cases short : u64 c.b 0 / 65536 ≤ 4096
  · rw [if_pos short, imported, if_pos short]
    rfl
  · rw [if_neg short, imported, if_neg short]
    rfl

/-- Either answer of an import is a good one. -/
theorem imported_good : (imported i c d).2.good = true := by
  by_cases short : u64 c.b 0 / 65536 ≤ 4096
  · rw [imported, if_pos short]
    rfl
  · rw [imported, if_neg short]
    rfl

/-- Settles O34: with an index by R417, PAIL_IMPORT_HOST makes its pail, and PAIL_ALLOC where it has its pages too (log 42); PAIL_FREE retires the
handle, and the queries only answer. -/
theorem pailCommands : Obligations.PailCommands := by
  unfold Obligations.PailCommands
  refine ⟨fun i l => ?alloc, fun i => ?importHost, ?free, ?query, ?map⟩
  case alloc => exact runsWhere_of_act 0x0E00 (fun _ => rfl) rfl fun _ _ ⟨index, pages⟩ => ⟨pailAlloc_act_of_room index pages, rfl⟩
  case importHost =>
    exact runsWhere_of_act (eff := imported i) 0x0E01 (fun _ => rfl) rfl fun _ _ index => ⟨pailImportHost_act_of_index index, imported_good⟩
  case free => exact runsWhere_of_act 0x0E02 (fun _ => rfl) rfl fun _ _ _ => ⟨rfl, rfl⟩
  case query => exact answers_of_act 0x0E03 (fun _ => rfl) rfl fun _ _ => rfl
  case map => exact answers_of_act 0x0E04 (fun _ => rfl) rfl fun _ _ => rfl

end Sys2Proof.Machine
end

section
/-! PROOF. The magazine and its reels (R452, R458, R464 to R477): the commands of area 0x10, and O36. -/

namespace Sys2Proof.Machine

variable {c : Ctx} {d : Dev}

/-- R469: with MAG_EJECT a mounted magazine is being ejected; the command is noted, to be completed at the end. -/
def ejectNoted (c : Ctx) (d : Dev) : Dev :=
  d.onMag fun m => { m with state := if m.state = .mounted then .ejecting else m.state, eject := some c.pending }

/-- What MAG_EJECT leaves of a magazine that is being ejected: its recordings stop as by REEL_RECORD_STOP mode 0 (R469), with end_reason 2. -/
def ejecting (d : Dev) : Dev :=
  settleMag ((d.mag.recordings.map (·.reel)).foldl (fun d n => stopRecording n 0 2 0 none d) d)

/-- What MAG_EJECT leaves of a magazine that was never mounted: nothing is to become durable, so its supply goes off and the command completes. -/
def unmountedOff (c : Ctx) (d : Dev) : Dev :=
  completeCmd c.pending .ok (d.onMag fun m => { m with state := .absent, powerOn := false, eject := none })

/-- MAG_EJECT is PENDING for either magazine. -/
def ejected (c : Ctx) (d : Dev) : Dev × Rsp :=
  if (ejectNoted c d).mag.state = .ejecting then (ejecting (ejectNoted c d), .pending) else (unmountedOff c (ejectNoted c d), .pending)

/-- MAG_EJECT on a mounted magazine. -/
theorem ejectAct_of_mounted (mounted : (ejectNoted c d).mag.state = .ejecting) : ejectAct c d = (ejecting (ejectNoted c d), some .pending) := by
  rw [ejectNoted] at mounted
  simp only [ejectAct, ejecting, ejectNoted, if_pos mounted]

/-- MAG_EJECT on an unsupported magazine. -/
theorem ejectAct_of_unmounted (unmounted : (ejectNoted c d).mag.state ≠ .ejecting) :
    ejectAct c d = (unmountedOff c (ejectNoted c d), some .pending) := by
  rw [ejectNoted] at unmounted
  simp only [ejectAct, unmountedOff, ejectNoted, if_neg unmounted]

/-- MAG_EJECT runs, for a mounted magazine and for an unsupported one. -/
theorem runs_magEject : Runs .magEject specMagEject ejected :=
  runsWhere_of_act 0x1002 (fun _ => rfl) rfl fun c d _ => by
    by_cases mounted : (ejectNoted c d).mag.state = .ejecting
    · rw [ejected, if_pos mounted]
      exact ⟨ejectAct_of_mounted mounted, rfl⟩
    · rw [ejected, if_neg mounted]
      exact ⟨ejectAct_of_unmounted mounted, rfl⟩

/-- A commit's REEL_RECORD_STOP ends the recording by its mode, and what came due settles; a command of its own is noted, to be completed with the clip
(R476). -/
theorem recordStop_settle (c : Ctx) (d : Dev) :
    specReelRecordStop.settle c d = settleMag (stopRecording c.nsid (u8 c.b 2) 0 c.txn
      (if d.ctl.commits.any fun x => x.txn = c.txn && x.op = 0x1006 then some c.pending else none) d) := by
  simp only [specReelRecordStop, recordStopSettle]

/-- R477, R484: on a formatted magazine in use, with an NSID and the extents at hand, REEL_CREATE makes its reel there, and it is the sender's. -/
theorem reelCreate_act_of_room {n : Nat} {e : List (Nat × Nat)} (mounted : d.mag.state = .mounted) (formatted : d.mag.pack.formatted = true)
    (idle : d.mag.format = none) (nsid : freeNsid d = some n) (extents : allocAcres d.mag.pack (u64 c.b 0 / 64) = some e) :
    specReelCreate.act c d =
      (giveOwner (reelObj n) c.session (createReel n (u64 c.b 0) (u32 c.b 8) e (slice c.b 16 32) d),
       some (.ok (le 2 (reelObj n) ++ le 2 0 ++ le 4 0 ++ le 8 (dataLbaOf (u32 c.b 8))))) := by
  have usable : (decide (d.mag.state = .mounted) && d.mag.pack.formatted && d.mag.format.isNone) = true := by
    simp [mounted, formatted, idle]
  simp only [specReelCreate, usable, if_true, nsid, extents]

/-- Settles O36: the queries only answer, MAG_FORMAT is noted and PENDING, MAG_EJECT is PENDING while recordings end, REEL_CREATE with room makes its
reel (log 84), and the other commands and the two commits have the effects of their spec records (logs 85, 86). -/
theorem magazineCommands : Obligations.MagazineCommands := by
  unfold Obligations.MagazineCommands
  refine ⟨?query, ?format, runs_magEject, fun n e => ?create, ?delete, ?start, ?stop, ?clip, ?expose⟩
  case query => exact answers_of_act 0x1000 (fun _ => rfl) rfl fun _ _ => rfl
  case format => exact runsWhere_of_act 0x1001 (fun _ => rfl) rfl fun _ _ _ => ⟨rfl, rfl⟩
  case create =>
    exact runsWhere_of_act 0x1003 (fun _ => rfl) rfl fun _ _ ⟨mounted, formatted, idle, nsid, extents⟩ =>
      ⟨reelCreate_act_of_room mounted formatted idle nsid extents, rfl⟩
  case delete => exact runsWhere_of_act 0x1004 (fun _ => rfl) rfl fun _ _ _ => ⟨rfl, rfl⟩
  case start => exact settles_of_settle (fun _ => rfl) rfl rfl (fun _ _ _ => rfl) fun _ _ => rfl
  case stop => exact settles_of_settle (fun _ => rfl) rfl rfl (fun _ _ _ => rfl) recordStop_settle
  case clip => exact answers_of_act 0x1007 (fun _ => rfl) rfl fun _ _ => rfl
  case expose => exact runsWhere_of_act 0x1008 (fun _ => rfl) rfl fun _ _ _ => ⟨rfl, rfl⟩

end Sys2Proof.Machine
end

section
/-! PROOF. The queue, and a thermally tripped module: O1, O2 and O58, and the datagram that refutes O60. -/

namespace Sys2Proof.Machine



/-- Settles O1: this is how `step` takes a command. -/
theorem stepRunsFrontCommand : Obligations.StepRunsFrontCommand := by
  unfold Obligations.StepRunsFrontCommand
  intro s c rest h
  simp only [step, h]

/-- Every command leaves a next state with the same queue: its arm of the dispatcher is a row by `always` or by `after`. -/
theorem exec_next (c : Instr) (s : State) : ∃ d : Dev, exec c s = .next (s.set d) := by
  cases c <;> exact ⟨_, rfl⟩

/-- Settles O2: an empty queue idles by the definition of `step`, and every command's row only replaces the device. -/
theorem commandsLeaveQueue : Obligations.CommandsLeaveQueue := by
  unfold Obligations.CommandsLeaveQueue
  refine ⟨fun s h => ?_, exec_next⟩
  simp only [step, h]

/-- A step takes exactly the command at the front of the queue; an empty queue stays. -/
theorem pending_of_step {s t : State} (h : step s = .next t) : t.pending = s.pending.tail := by
  cases hq : s.pending with
  | nil =>
    obtain rfl : s = t := Host.Outcome.next.inj ((commandsLeaveQueue.1 s hq).symm.trans h)
    exact hq
  | cons c rest =>
    obtain ⟨d, hd⟩ := exec_next c { s with pending := rest }
    rw [stepRunsFrontCommand s c rest hq, hd] at h
    obtain rfl := Host.Outcome.next.inj h
    rfl

/-- Settles O58: what is left of the queue is its tail, whose commands stood in it before. -/
theorem queueStaysWellFormed : Obligations.QueueStaysWellFormed := by
  unfold Obligations.QueueStaysWellFormed
  intro s t ok h
  have taken := pending_of_step h
  refine ⟨List.all_eq_true.2 fun c hc => ?_, taken⟩
  exact List.all_eq_true.1 ok c (List.mem_of_mem_tail (taken ▸ hc))

/-- A command-ready module as THERMAL_TRIP leaves it. -/
def trippedReady : Dev := (goFatal 4 { boot := { ready := true } }).onFaults fun f => { f with thermalTrip := true, fatalCause := 4, stickyCause := 4 }

/-- A datagram to the UDP transport's port, on the management port that is enabled from reset. -/
def lateDatagram : Packet where
  endpoint := .udp 4 0 0

/-- What the datagram's arrival leaves of that module. -/
def afterDatagram : Dev := arrive 0x0003 lateDatagram (trippedReady.clock 0)

/-- The datagram waits, and its endpoint has joined the turns of intake: control state has changed. -/
theorem afterDatagram_turns : afterDatagram.ctl.turns = trippedReady.ctl.turns ++ [.udp 4 0 0] := by decide +kernel

/-- Refutes O60: a tripped module that is command-ready still takes a datagram in (packets arrive whether or not engines run): it waits at its
endpoint, and the endpoint joins the turns of intake, which are control state. -/
theorem not_trippedModuleStandsStill : ¬ Obligations.TrippedModuleStandsStill := by
  unfold Obligations.TrippedModuleStandsStill
  intro h
  obtain ⟨_, same⟩ := h { dev := trippedReady, pending := [.keepalive lateDatagram] } { dev := afterDatagram } (.keepalive lateDatagram) [] rfl
    ⟨rfl, rfl⟩ rfl rfl
  have turns : afterDatagram.ctl.turns = trippedReady.ctl.turns := congrArg Control.turns same.ctl
  rw [afterDatagram_turns] at turns
  simp at turns

end Sys2Proof.Machine
end

section
/-! PROOF. Resets (R515, R536, R543, R547, R569): the rows, and O45. -/

namespace Sys2Proof.Machine

variable {d : Dev} {kind : Nat}

theorem exec_of_always {c : Instr} {s : State} {t : Nat} {f : Dev → Dev} {e : Dev} (row : exec c s = always t f s) (effect : f (s.dev.clock t) = e) :
    exec c s = .next (s.set e) := by
  rw [row, always_eq, effect]

/-- FLR of function 0 leaves the rest of the module. -/
theorem endpointReset_of_function (h : 2 ≤ kind) : endpointReset kind d = d.onBar0 fun b => { devStatus := b.devStatus } := if_pos h

theorem endpointReset_of_alive (h : kind < 2) (alive : within d.faults.fatalCause 1 3 = false) :
    endpointReset kind d = (controllerDisable d).onBar0 fun b => { devStatus := b.devStatus } := by
  simp only [endpointReset, ge_iff_le, Nat.not_le.2 h, alive, Bool.false_eq_true, if_false]
  rfl

theorem endpointReset_of_fatal (h : kind < 2) (dead : within d.faults.fatalCause 1 3 = true) :
    endpointReset kind d =
      ((controllerDisable d).onBar0 fun b => { devStatus := b.devStatus }).onBoot fun b => { b with pendingReset := some (2, d.now) } := by
  simp only [endpointReset, ge_iff_le, Nat.not_le.2 h, dead, if_false, if_true]
  rfl

/-- Settles O45: each reset's row sets the state that its lemma names, a warm reset only where no thermal trip stands. -/
theorem resetRows : Obligations.ResetRows := by
  unfold Obligations.ResetRows
  intro s t d started
  refine ⟨fun b => ?powerOn, fun b => ?cold, fun b untripped => ?warm, fun ns long => ?held, fun ns short => ?glitch, ?vaon, fun kind h => ?function,
    fun kind h alive => ?endpoint, fun kind h dead => ?fatal⟩
  case powerOn => exact exec_of_always rfl rfl
  case cold => exact exec_of_always rfl rfl
  case warm => exact after_awake ⟨rfl, untripped⟩
  case held => exact exec_of_always rfl (if_pos long)
  case glitch => exact exec_of_always rfl (if_neg (Nat.not_le.2 short))
  case vaon => exact exec_of_always rfl rfl
  case function => exact exec_of_always rfl (endpointReset_of_function h)
  case endpoint => exact exec_of_always rfl (endpointReset_of_alive h alive)
  case fatal => exact exec_of_always rfl (endpointReset_of_fatal h dead)

end Sys2Proof.Machine
end

section
/-! PROOF. NVMe (R479 to R494): admin commands, I/O commands, and O42 to O44. -/

namespace Sys2Proof.Machine

variable {d : Dev} {cid : Nat}

/-- A row of an engine on an awake module. -/
theorem exec_of_after {c : Instr} {s : State} {t : Nat} {f : Dev → Dev} {e : Dev} (awake : Awake s t d) (row : exec c s = after t f s) (effect : f d = e) :
    exec c s = .next (s.set e) := by
  rw [row, after_awake awake, effect]

/-! ## Admin commands (R480, R481) -/

/-- Firmware executes admin commands at the instant `t`, on the module `d`. -/
structure TakesAdmin (s : State) (t : Nat) (d : Dev) : Prop where
  /-- No thermal trip stands. -/
  awake : Awake s t d
  /-- The module is command-ready. -/
  ready : d.boot.ready = true
  /-- It is not fatal. -/
  alive : fatal d = false
  /-- No fail-over pauses it. -/
  going : d.faults.paused = false

/-- An admin command before command-ready or after a fatal condition. -/
theorem onAdmin_of_stopped (a : NvmeAdmin) (h : d.boot.ready = false ∨ fatal d = true) : onAdmin cid a d = d :=
  if_pos (by simpa using h)

/-- An admin command in a fail-over pause. -/
theorem onAdmin_of_paused (a : NvmeAdmin) (ready : d.boot.ready = true) (alive : fatal d = false) (paused : d.faults.paused = true) :
    onAdmin cid a d = d.onNvme fun n => { n with held := n.held ++ [(cid, a)] } := by
  simp only [onAdmin, ready, alive, paused, Bool.not_true, Bool.or_false, Bool.false_eq_true, if_false, if_true]

/-- An admin command that firmware executes. -/
theorem exec_of_admin {c : Instr} {s : State} {t : Nat} {a : NvmeAdmin} {e : Dev} (h : TakesAdmin s t d) (row : exec c s = after t (onAdmin cid a) s)
    (effect : adminRun cid a d = e) : exec c s = .next (s.set e) := by
  refine exec_of_after h.awake row ?_
  simp only [onAdmin, h.ready, h.alive, h.going, Bool.not_true, Bool.or_false, Bool.false_eq_true, if_false, effect]

/-! ### Queues -/

variable {qid size cq prio : Nat}

/-- A queue number that a new queue may have: 1 to 64, and not in use. -/
theorem newQueue_iff {β : Type} {m : NMap β} : (!within qid 1 64 || (mapGet m qid).isSome) = false ↔ 1 ≤ qid ∧ qid ≤ 64 ∧ mapGet m qid = none := by
  simp [within, and_assoc]

/-- MQES of CAP lets a queue have 2 to 4,096 entries. -/
theorem queueSizeOk_iff : queueSizeOk size = true ↔ 2 ≤ size ∧ size ≤ 4096 := by
  have mqes : capProperty % 2 ^ 16 + 1 = 4096 := by decide
  rw [queueSizeOk, mqes]
  simp [within]

theorem createSq_of_bad (h : qid < 1 ∨ 64 < qid ∨ mapGet d.nvme.sqs qid ≠ none) :
    createSq cid qid size cq prio d = nvmeComplete 0 cid { sct := 1, sc := 1, dnr := true } d := by
  refine if_pos (Bool.eq_true_of_not_eq_false fun new => ?_)
  obtain ⟨low, high, unused⟩ := newQueue_iff.1 new
  rcases h with h | h | h
  · omega
  · omega
  · exact h unused

section
variable (low : 1 ≤ qid) (high : qid ≤ 64) (unused : mapGet d.nvme.sqs qid = none)
include low high unused

theorem createSq_of_new :
    createSq cid qid size cq prio d =
      if mapGet d.nvme.cqs cq = none then nvmeComplete 0 cid { sct := 1, sc := 0, dnr := true } d
      else if queueSizeOk size = false then nvmeComplete 0 cid { sct := 1, sc := 2, dnr := true } d
      else if prio > 3 then nvmeComplete 0 cid invalidField d
      else nvmeComplete 0 cid nvmeOk (d.onNvme fun n => { n with sqs := mapSet n.sqs qid { cq, prio, size } }) := by
  simp only [createSq, newQueue_iff.2 ⟨low, high, unused⟩, Bool.false_eq_true, if_false, Option.isNone_iff_eq_none, Bool.not_eq_true']

end

theorem createCq_of_bad (h : qid < 1 ∨ 64 < qid ∨ mapGet d.nvme.cqs qid ≠ none) :
    createCq cid qid size d = nvmeComplete 0 cid { sct := 1, sc := 1, dnr := true } d := by
  refine if_pos (Bool.eq_true_of_not_eq_false fun new => ?_)
  obtain ⟨low, high, unused⟩ := newQueue_iff.1 new
  rcases h with h | h | h
  · omega
  · omega
  · exact h unused

theorem createCq_of_new (low : 1 ≤ qid) (high : qid ≤ 64) (unused : mapGet d.nvme.cqs qid = none) (fits : 2 ≤ size ∧ size ≤ 4096) :
    createCq cid qid size d = nvmeComplete 0 cid nvmeOk (d.onNvme fun n => { n with cqs := mapSet n.cqs qid size }) := by
  simp only [createCq, newQueue_iff.2 ⟨low, high, unused⟩, queueSizeOk_iff.2 fits, Bool.not_true, Bool.false_eq_true, if_false]

theorem deleteSq_of_none (h : mapGet d.nvme.sqs qid = none) : deleteSq cid qid d = nvmeComplete 0 cid { sct := 1, sc := 1, dnr := true } d :=
  if_pos (Option.isNone_iff_eq_none.2 h)

theorem deleteSq_of_queue (h : mapGet d.nvme.sqs qid ≠ none) :
    deleteSq cid qid d = nvmeComplete 0 cid nvmeOk (d.onNvme fun n =>
      { n with sqs := mapDel n.sqs qid, flushes := n.flushes.filter fun f => f.sqid ≠ qid, blocked := n.blocked.filter fun e => e.1 ≠ qid
               staged := n.staged.map fun w => if w.sqid = qid then { w with orphan := !w.acked } else w }) :=
  if_neg (mt Option.isNone_iff_eq_none.1 h)

theorem deleteCq_of_none (h : mapGet d.nvme.cqs qid = none) : deleteCq cid qid d = nvmeComplete 0 cid { sct := 1, sc := 1, dnr := true } d :=
  if_pos (Option.isNone_iff_eq_none.2 h)

theorem deleteCq_of_used (h : mapGet d.nvme.cqs qid ≠ none) (used : ∃ e ∈ d.nvme.sqs, e.2.cq = qid) :
    deleteCq cid qid d = nvmeComplete 0 cid { sct := 1, sc := 0x0C, dnr := true } d :=
  (if_neg (mt Option.isNone_iff_eq_none.1 h)).trans (if_pos (by simpa using used))

theorem deleteCq_of_unused (h : mapGet d.nvme.cqs qid ≠ none) (unused : ∀ e ∈ d.nvme.sqs, e.2.cq ≠ qid) :
    deleteCq cid qid d = nvmeComplete 0 cid nvmeOk (d.onNvme fun n => { n with cqs := mapDel n.cqs qid }) :=
  (if_neg (mt Option.isNone_iff_eq_none.1 h)).trans (if_neg (by simpa using unused))

/-! ### Logs, identification, features -/

/-- Every CNS value that the controller has (R480). -/
theorem identify_of_unsupported {cns : Nat} (nsid : Nat) (h : cns ∉ [0x00, 0x01, 0x02, 0x03, 0x10, 0x11, 0x12]) :
    identify cid cns nsid d = nvmeComplete 0 cid invalidField (takeFree d).2 := by
  simp only [identify]
  split
  case h_8 => rfl
  all_goals exact absurd h (by simp)

theorem identify_namespace_of_reel {nsid : Nat} {r : Reel} (h : reelOf d nsid = some r) :
    identify cid 0x00 nsid d = nvmeComplete 0 cid nvmeOk (takeFree d).2
      (data := if modeOf d r = 0 then List.replicate 4096 0 else identifyNamespace d.free (modeOf d r) r) := by
  have reel : reelOf (takeFree d).2 nsid = some r := h
  simp only [identify, reel]
  rfl

theorem identify_allocated_of_reel {nsid : Nat} {r : Reel} (h : reelOf d nsid = some r) :
    identify cid 0x11 nsid d = nvmeComplete 0 cid nvmeOk (takeFree d).2 (data := identifyNamespace d.free (modeOf d r) r) := by
  have reel : reelOf (takeFree d).2 nsid = some r := h
  simp only [identify, reel]
  rfl

theorem abort_of_request {target : Nat} (h : target ∈ d.nvme.aers) :
    nvmeAbort cid 0 target d =
      nvmeComplete 0 cid nvmeOk (nvmeComplete 0 target { sc := 7 } (d.onNvme fun n => { n with aers := n.aers.filter (· ≠ target) })) :=
  if_pos (by simpa using h)

theorem abort_of_io {sqid target : Nat} (h : ¬(sqid = 0 ∧ target ∈ d.nvme.aers)) :
    nvmeAbort cid sqid target d =
      if ∃ f ∈ d.nvme.flushes, f.sqid = sqid ∧ f.cid = target then
        nvmeComplete 0 cid nvmeOk (nvmeComplete sqid target { sc := 7 } (d.onNvme fun n =>
          { n with flushes := n.flushes.filter fun f => !(f.sqid == sqid && f.cid == target) }))
      else nvmeComplete 0 cid nvmeOk d (dw0 := 1) := by
  have waits : (decide (sqid = 0) && decide (target ∈ d.nvme.aers)) = false := by simpa using h
  simp only [nvmeAbort, waits, Bool.false_eq_true, if_false, List.any_eq_true, Bool.and_eq_true, decide_eq_true_eq]
  rfl

theorem setFeatures_of_unkept {fid : Nat} (v : Nat) (h : fid ∉ featureIds) : setFeatures cid fid v d = nvmeComplete 0 cid invalidField d := if_pos h

theorem getFeatures_of_unkept {fid : Nat} (h : fid ∉ featureIds) : getFeatures cid fid d = nvmeComplete 0 cid invalidField d := if_pos h

theorem setFeatures_of_kept {fid : Nat} (v : Nat) (h : fid ∈ featureIds) :
    setFeatures cid fid v d = if fid = 7 then nvmeComplete 0 cid nvmeOk d (dw0 := 0x3F003F)
      else nvmeComplete 0 cid nvmeOk (d.onNvme fun n => { n with features := mapSet n.features fid (v % 2 ^ 32) }) :=
  if_neg (not_not_intro h)

theorem getFeatures_of_kept {fid : Nat} (h : fid ∈ featureIds) :
    getFeatures cid fid d = nvmeComplete 0 cid nvmeOk d (dw0 := if fid = 7 then 0x3F003F else mapGetD d.nvme.features fid 0) :=
  if_neg (not_not_intro h)

theorem asyncRequest_of_full (h : 4 ≤ d.nvme.aers.length) : asyncRequest cid d = nvmeComplete 0 cid { sct := 1, sc := 5, dnr := true } d := if_pos h

theorem asyncRequest_of_waiting (room : d.nvme.aers.length < 4) (none_waits : d.nvme.aerPending = []) :
    asyncRequest cid d = d.onNvme fun n => { n with aers := n.aers ++ [cid] } := by
  simp only [asyncRequest, ge_iff_le, Nat.not_le.2 room, if_false, Dev.onNvme, none_waits]

theorem asyncRequest_of_event {a b c : Nat} {l : List (Nat × Nat × Nat)} (room : d.nvme.aers.length < 4) (waits : d.nvme.aerPending = (a, b, c) :: l) :
    asyncRequest cid d = nvmeEvent a b c (d.onNvme fun n => { n with aers := n.aers ++ [cid], aerPending := l }) := by
  simp only [asyncRequest, ge_iff_le, Nat.not_le.2 room, if_false, Dev.onNvme, waits]

/-! ### Namespaces -/

theorem namespaceCreate_of_room {n nsze : Nat} {e : List (Nat × Nat)} (acres : nsze % 64 = 0) (some_ : nsze ≠ 0) (mounted : d.mag.state = .mounted)
    (formatted : d.mag.pack.formatted = true) (nsid : freeNsid d = some n) (extents : allocAcres d.mag.pack (nsze / 64) = some e) :
    namespaceCreate cid nsze nsze 0 d = nvmeComplete 0 cid nvmeOk (createReel n nsze 1024 e [] d) (dw0 := n) := by
  simp [namespaceCreate, acres, some_, mounted, formatted, nsid, extents]

variable {nsid : Nat} {r : Reel}

theorem namespaceDelete_of_none (h : reelOf d nsid = none) : namespaceDelete cid nsid d = nvmeComplete 0 cid invalidNamespace d := by
  simp only [namespaceDelete, h]

theorem namespaceDelete_of_reel (h : reelOf d nsid = some r) (idle : recordingOf d nsid = none) :
    namespaceDelete cid nsid d = nvmeComplete 0 cid nvmeOk (settleMag (deleteReel 1 nsid d)) := by
  simp only [namespaceDelete, h, idle, Option.isSome_none, Bool.false_eq_true, if_false]

theorem namespaceAttach_of_none (on : Bool) (h : reelOf d nsid = none) : namespaceAttach cid nsid on d = nvmeComplete 0 cid invalidNamespace d := by
  simp only [namespaceAttach, h]

theorem namespaceAttach_of_hidden (h : reelOf d nsid = some r) (hidden : modeOf d r = 0) :
    namespaceAttach cid nsid true d = nvmeComplete 0 cid nvmeOk (setExposure nsid 2 1 d) := by
  simp [namespaceAttach, h, hidden]

theorem namespaceAttach_of_exposed (h : reelOf d nsid = some r) (exposed : modeOf d r ≠ 0) :
    namespaceAttach cid nsid false d = nvmeComplete 0 cid nvmeOk (setExposure nsid 0 1 d) := by
  simp [namespaceAttach, h, exposed]

/-! ## I/O commands (R480, R482, R486, R487) -/

variable {sqid slba nlb : Nat}

/-- A command whose queue's earlier commands were fetched, and whose data have room, is fetched in its queue's turn. -/
theorem ioFetch_of_room {io : NvmeIo} (first : ∀ e ∈ d.nvme.blocked, e.1 ≠ sqid) (room : bufferRoom d io = true) :
    ioFetch sqid cid io d = ioRun sqid cid io (takeTurn sqid d) := by
  have none_waits : (d.nvme.blocked.any fun e => e.1 = sqid) = false := List.any_eq_false.2 fun e he => by simpa using first e he
  simp only [ioFetch, none_waits, room, Bool.not_true, Bool.or_false, Bool.false_eq_true, if_false]

/-- R487: a Write for which the staging buffer has no room waits on its queue. -/
theorem ioFetch_of_full {io : NvmeIo} (queue : mapGet d.nvme.sqs sqid ≠ none) (full : bufferRoom d io = false) :
    ioFetch sqid cid io d = d.onNvme fun n => { n with blocked := n.blocked ++ [(sqid, cid, io)] } :=
  (if_pos (by simp [full])).trans (if_neg (mt Option.isNone_iff_eq_none.1 queue))

theorem ioCommand_of_refused {st : NvmeStatus} {writes : Bool} (run : Reel → Dev → Dev) (queue : mapGet d.nvme.sqs sqid ≠ none)
    (refused : ioRefusal d nsid slba nlb writes = some st) :
    ioCommand sqid cid nsid slba nlb writes run d = nvmeComplete sqid cid st d := by
  simp only [ioCommand, Option.isNone_iff_eq_none, queue, if_false, refused]

/-- A namespace takes an I/O command: no status refuses it, no deferred error is latched, and its reel is `r`. -/
structure Accepts (d : Dev) (nsid slba nlb : Nat) (writes : Bool) (r : Reel) : Prop where
  /-- No status refuses it. -/
  allowed : ioRefusal d nsid slba nlb writes = none
  /-- No deferred write error waits to be reported (R490). -/
  unlatched : nsid ∉ d.nvme.latched
  /-- The namespace's reel. -/
  reel : reelOf d nsid = some r

theorem ioCommand_of_accepts {writes : Bool} (run : Reel → Dev → Dev) (queue : mapGet d.nvme.sqs sqid ≠ none) (h : Accepts d nsid slba nlb writes r) :
    ioCommand sqid cid nsid slba nlb writes run d = run r d := by
  simp only [ioCommand, Option.isNone_iff_eq_none, queue, if_false, h.allowed, h.unlatched, h.reel]

/-- Taking a turn changes the turn alone: what a namespace takes stays. -/
theorem Accepts.takeTurn {writes : Bool} (h : Accepts d nsid slba nlb writes r) : Accepts (takeTurn sqid d) nsid slba nlb writes r :=
  ⟨h.allowed, h.unlatched, h.reel⟩

section
variable {st : NvmeStatus} (queue : mapGet d.nvme.sqs sqid ≠ none)
include queue

theorem nvmeRead_of_refused (refused : ioRefusal d nsid slba nlb false = some st) : nvmeRead sqid cid nsid slba nlb d = nvmeComplete sqid cid st d :=
  ioCommand_of_refused _ queue refused

theorem nvmeWrite_of_refused (data : List Byte) (fua : Bool) (refused : ioRefusal d nsid slba nlb true = some st) :
    nvmeWrite sqid cid nsid slba nlb data fua d = nvmeComplete sqid cid st d :=
  ioCommand_of_refused _ queue refused

theorem nvmeZeroes_of_refused (refused : ioRefusal d nsid slba nlb true = some st) : nvmeZeroes sqid cid nsid slba nlb d = nvmeComplete sqid cid st d :=
  ioCommand_of_refused _ queue refused

end

theorem nvmeRead_of_accepts (queue : mapGet d.nvme.sqs sqid ≠ none) (h : Accepts d nsid slba nlb false r)
    (sound : ∀ e ∈ d.nvme.unrecovered, ¬(e.1 = nsid ∧ slba ≤ e.2 ∧ e.2 < slba + nlb)) :
    nvmeRead sqid cid nsid slba nlb d =
      nvmeComplete sqid cid nvmeOk (count (reelObj nsid) 4 nlb (passDies r slba nlb d)) (data := readBlocks d r slba nlb) := by
  have recovered : (d.nvme.unrecovered.find? fun e => e.1 = nsid && slba ≤ e.2 && e.2 < slba + nlb) = none := by
    simpa [and_assoc] using sound
  simp only [nvmeRead, ioCommand_of_accepts _ queue h, recovered]

theorem nvmeWrite_of_accepts (data : List Byte) (fua : Bool) (queue : mapGet d.nvme.sqs sqid ≠ none) (h : Accepts d nsid slba nlb true r) :
    nvmeWrite sqid cid nsid slba nlb data fua d =
      let x := stageBlocks 1 r slba ((data ++ List.replicate (nlb * blockBytes) 0).take (nlb * blockBytes)) d
      stageHost sqid cid nsid slba nlb fua x.2 (count (reelObj nsid) 5 nlb x.1) :=
  ioCommand_of_accepts _ queue h

theorem nvmeZeroes_of_accepts (queue : mapGet d.nvme.sqs sqid ≠ none) (h : Accepts d nsid slba nlb true r) :
    nvmeZeroes sqid cid nsid slba nlb d =
      let x := deallocBlocks nsid r slba nlb d
      stageHost sqid cid nsid slba nlb false x.2 x.1 :=
  ioCommand_of_accepts _ queue h

theorem nvmeFlush_of_accepts (queue : mapGet d.nvme.sqs sqid ≠ none) (h : Accepts d nsid 0 0 false r) (one : nsid ≠ 0xFFFFFFFF) :
    nvmeFlush sqid cid nsid d =
      settleMag (d.onNvme fun n => { n with
        flushes := n.flushes ++ [{ sqid, cid, nsid, writes := (n.staged.filter fun w => flushes nsid w.nsid && w.acked).map (·.order) }] }) :=
  (if_neg one).trans (ioCommand_of_accepts _ queue h)

theorem nvmeDataset_of_accepts {l : List (Nat × Nat)} (queue : mapGet d.nvme.sqs sqid ≠ none) (h : Accepts d nsid (maxOf (fun e => e.1 + e.2) l) 0 true r) :
    nvmeDataset sqid cid nsid l true d =
      settleMag (placeFull (nvmeComplete sqid cid nvmeOk (l.foldl (fun d e => (deallocBlocks nsid r e.1 e.2 d).1) d))) :=
  ioCommand_of_accepts _ queue h

/-! ## The obligations -/

/-- Settles O42: a command-ready module executes each admin command in its own step, with the effect of the command's lemma above (log 88). -/
theorem nvmeAdminRows : Obligations.NvmeAdminRows := by
  unfold Obligations.NvmeAdminRows
  intro admin s t d cid ⟨awake, ready, alive, going⟩
  have takes : TakesAdmin s t d := ⟨awake, ready, alive, going⟩
  refine ⟨fun qid size cq prio low high unused used least most known => ?createSq, fun qid size low high unused least most => ?createCq,
    fun qid queue => ?deleteSq, fun qid queue unused => ?deleteCq, fun nsid bytes rae => ?logs, fun nsid => ?identify, fun target waits => ?abortRequest,
    fun sqid target other => ?abortIo, fun fid v kept => ⟨?set, ?get⟩, fun room none_waits => ?request, fun a b c l room waits => ?event,
    fun n nsze e acres some_ mounted formatted free extents => ?create, fun nsid r reel => ⟨fun idle => ?delete, fun hidden => ?attach, fun exposed => ?detach⟩, ?invalid⟩
  case createSq =>
    refine exec_of_admin takes rfl ((createSq_of_new low high unused).trans ?_)
    rw [if_neg used, if_neg (by simp [queueSizeOk_iff.2 ⟨least, most⟩]), if_neg (Nat.not_lt.2 known)]
  case createCq => exact exec_of_admin takes rfl (createCq_of_new low high unused ⟨least, most⟩)
  case deleteSq => exact exec_of_admin takes rfl (deleteSq_of_queue queue)
  case deleteCq => exact exec_of_admin takes rfl (deleteCq_of_unused queue unused)
  case logs => exact ⟨exec_of_admin takes rfl rfl, exec_of_admin takes rfl rfl, exec_of_admin takes rfl rfl, exec_of_admin takes rfl rfl⟩
  case identify =>
    refine ⟨exec_of_admin takes rfl rfl, exec_of_admin takes rfl rfl, exec_of_admin takes rfl rfl, fun r reel => ⟨?_, ?_⟩⟩
    · exact exec_of_admin takes rfl (identify_namespace_of_reel reel)
    · exact exec_of_admin takes rfl (identify_allocated_of_reel reel)
  case abortRequest => exact exec_of_admin takes rfl (abort_of_request waits)
  case abortIo => exact exec_of_admin takes rfl (abort_of_io other)
  case set =>
    refine exec_of_admin takes rfl ((setFeatures_of_kept v kept).trans ?_)
    rfl
  case get => exact exec_of_admin takes rfl (getFeatures_of_kept kept)
  case request => exact exec_of_admin takes rfl (asyncRequest_of_waiting room none_waits)
  case event => exact exec_of_admin takes rfl (asyncRequest_of_event room waits)
  case create => exact exec_of_admin takes rfl (namespaceCreate_of_room acres some_ mounted formatted free extents)
  case delete => exact exec_of_admin takes rfl (namespaceDelete_of_reel reel idle)
  case attach => exact exec_of_admin takes rfl (namespaceAttach_of_hidden reel hidden)
  case detach => exact exec_of_admin takes rfl (namespaceAttach_of_exposed reel exposed)
  case invalid => exact exec_of_admin takes rfl rfl

/-- Settles O43: a command that can be fetched runs in its queue's turn, on what its namespace accepts (log 88); the controller's disable is its row. -/
theorem nvmeIoRows : Obligations.NvmeIoRows := by
  unfold Obligations.NvmeIoRows
  intro s t d awake
  refine ⟨fun sqid cid nsid slba nlb r => ?_, exec_of_after awake rfl rfl⟩
  intro fetched accepts e ⟨queue, first⟩
  refine ⟨fun ⟨allowed, unlatched, reel⟩ sound => ?read, fun data fua ⟨allowed, unlatched, reel⟩ room => ?write,
    fun ⟨allowed, unlatched, reel⟩ => ?zeroes, fun ⟨allowed, unlatched, reel⟩ one => ?flush, fun l ⟨allowed, unlatched, reel⟩ => ?dataset, fun io => ?invalid⟩
  case read =>
    exact exec_of_after awake rfl ((ioFetch_of_room first rfl).trans (nvmeRead_of_accepts queue (Accepts.takeTurn ⟨allowed, unlatched, reel⟩) sound))
  case write =>
    exact exec_of_after awake rfl ((ioFetch_of_room first room).trans (nvmeWrite_of_accepts data fua queue (Accepts.takeTurn ⟨allowed, unlatched, reel⟩)))
  case zeroes =>
    exact exec_of_after awake rfl ((ioFetch_of_room first rfl).trans (nvmeZeroes_of_accepts queue (Accepts.takeTurn ⟨allowed, unlatched, reel⟩)))
  case flush =>
    exact exec_of_after awake rfl ((ioFetch_of_room first rfl).trans (nvmeFlush_of_accepts queue (Accepts.takeTurn ⟨allowed, unlatched, reel⟩) one))
  case dataset =>
    exact exec_of_after awake rfl ((ioFetch_of_room first rfl).trans (nvmeDataset_of_accepts queue (Accepts.takeTurn ⟨allowed, unlatched, reel⟩)))
  case invalid =>
    have row : exec (.invalidCommandOpcode t sqid cid) s = after t (ioFetch sqid cid .invalid) s := by
      rw [show exec (.invalidCommandOpcode t sqid cid) s = after t (if sqid = 0 then onAdmin cid .invalid else ioFetch sqid cid .invalid) s from rfl, if_neg io]
    exact exec_of_after awake row ((ioFetch_of_room first rfl).trans (if_pos (Option.isSome_iff_ne_none.2 queue)))

/-- Settles O44: the refusals of admin commands and of I/O commands, what a stopped and what a paused module does with an admin command, and a Write
that waits for room (log 88). -/
theorem nvmeRefusals : Obligations.NvmeRefusals := by
  unfold Obligations.NvmeRefusals
  refine ⟨fun s t d cid awake ready alive going => ?answered,
    fun s t d cid qid awake => ⟨fun h => ?stopped, fun ready alive paused => ?paused⟩,
    fun s t d sqid cid nsid slba nlb st awake queue first => ⟨fun h => ?read, fun h => ?zeroes, fun data fua => ⟨fun room h => ?write, fun full => ?full⟩⟩⟩
  case answered =>
    have takes : TakesAdmin s t d := ⟨awake, ready, alive, going⟩
    intro answers
    refine ⟨fun qid size cq prio => ⟨fun h => ?badSq, fun low high unused h => ?noCq, fun low high unused used h => ?badSize, fun h => ?badCq⟩,
      fun qid => ⟨fun h => ?noSq, fun h => ?noCqDelete, fun h used => ?usedCq⟩, fun fid v h => ?feature, fun cns nsid h => ?cns, fun h => ?fifth,
      fun nsid h => ?namespace_⟩
    case badSq => exact exec_of_admin takes rfl (createSq_of_bad h)
    case noCq => exact exec_of_admin takes rfl ((createSq_of_new low high unused).trans (if_pos h))
    case badSize =>
      refine exec_of_admin takes rfl ((createSq_of_new low high unused).trans ((if_neg used).trans (if_pos ?_)))
      exact Bool.eq_false_iff.2 (mt queueSizeOk_iff.1 (by omega))
    case badCq => exact exec_of_admin takes rfl (createCq_of_bad h)
    case noSq => exact exec_of_admin takes rfl (deleteSq_of_none h)
    case noCqDelete => exact exec_of_admin takes rfl (deleteCq_of_none h)
    case usedCq => exact exec_of_admin takes rfl (deleteCq_of_used h used)
    case feature =>
      exact ⟨exec_of_admin takes rfl (setFeatures_of_unkept v h), exec_of_admin takes rfl (getFeatures_of_unkept h)⟩
    case cns => exact exec_of_admin takes rfl (identify_of_unsupported nsid h)
    case fifth => exact exec_of_admin takes rfl (asyncRequest_of_full h)
    case namespace_ =>
      exact ⟨exec_of_admin takes rfl (namespaceDelete_of_none h), exec_of_admin takes rfl (namespaceAttach_of_none true h),
        exec_of_admin takes rfl (namespaceAttach_of_none false h)⟩
  case stopped => exact ⟨exec_of_after awake rfl (onAdmin_of_stopped _ h), exec_of_after awake rfl (onAdmin_of_stopped _ h)⟩
  case paused => exact ⟨exec_of_after awake rfl (onAdmin_of_paused _ ready alive paused), exec_of_after awake rfl (onAdmin_of_paused _ ready alive paused)⟩
  case read => exact exec_of_after awake rfl ((ioFetch_of_room first rfl).trans (nvmeRead_of_refused (d := takeTurn sqid d) queue h))
  case zeroes => exact exec_of_after awake rfl ((ioFetch_of_room first rfl).trans (nvmeZeroes_of_refused (d := takeTurn sqid d) queue h))
  case write => exact exec_of_after awake rfl ((ioFetch_of_room first room).trans (nvmeWrite_of_refused (d := takeTurn sqid d) queue data fua h))
  case full => exact exec_of_after awake rfl (ioFetch_of_full queue full)

end Sys2Proof.Machine
end

section
/-! PROOF. The settings of the pixel pipeline, time, networks and audio, and long running: commands, with O25 to O27, O31 to O33, O38 and O39. -/

namespace Sys2Proof.Machine

variable {c : Ctx} {d : Dev}

/-- TAP_ENABLE: where it enables, the skips of the tap's ring count from here. -/
theorem tapEnable_settle (c : Ctx) (d : Dev) :
    specTapEnable.settle c d =
      let t := onTap c.stream (u8 c.b 2) (fun t => { t with enable := u8 c.b 3 = 1 }) d
      if u8 c.b 3 = 1 then onRingOf (tapRef c.stream (u8 c.b 2)) (fun r => { r with skips := 0 }) t else t := by
  simp only [specTapEnable, decide_eq_true_eq]

/-- R344: with no rate to accept TD_RATE_COMMIT changes nothing. -/
theorem tdRateCommit_settle_of_none (h : acceptRate d = none) : specTdRateCommit.settle c d = d := by
  simp only [specTdRateCommit, h]

theorem tdRateCommit_settle_of_some {num den : Nat} (h : acceptRate d = some (num, den)) :
    specTdRateCommit.settle c d =
      if u8 c.b 2 = 1 && (d.domain 4).state = .ratePending then
        let clean := fun (r : RefInput) => { r with changed := false, lost := false, goodRun := 0, intervals := [], lastValid := r.lastEdge }
        let g := { d.time.genlock with rateNum := num, rateDen := den, inputH := clean d.time.genlock.inputH, inputF := clean d.time.genlock.inputF }
        setDomain 4 .acquiring 0 ((d.onTime fun t => { t with genlock := g }).onDomain 4 fun dm =>
          { dm with rateNum := num, rateDen := den, commitStep := true, phaseRun := 0 })
      else d := by
  simp only [specTdRateCommit, h]
  rfl

theorem launchAct_of_schedule {i : Nat} (new : u8 c.b 2 ≠ 0xF) (free : freeLaunchId d = some i) :
    launchAct c d =
      let l := readLaunch i c
      let t := d.onTime fun t => { t with launches := t.launches ++ [l] }
      (if l.time < domainNow t l.domain + 100000 then fireLaunch false t l else t, some (.ok (le 2 i ++ le 2 0))) := by
  simp only [launchAct, if_neg new, free]

theorem launchAct_of_cancel {l : Launch} (cancel : u8 c.b 2 = 0xF) (waits : (d.time.launches.find? fun l => l.id = u16 c.b 4) = some l) :
    launchAct c d = (launchMissed l 2 (d.onTime fun t => { t with launches := t.launches.filter fun x => x.id ≠ l.id }), some (.ok (le 2 l.id ++ le 2 0))) := by
  simp only [launchAct, if_pos cancel, waits]

theorem createFlow_of_index {base k : Nat} (index : newFlow d base = some k) :
    createFlow base c d =
      (giveOwner (0x8000 + k) c.session (clearCounters (0x8000 + k) (d.onNet fun n => { n with flows := mapSet n.flows k { config := readFlow c.b } })),
       some (.ok (le 2 (0x8000 + k) ++ le 2 0))) := by
  simp only [createFlow, index]

theorem sapClockSet_act (c : Ctx) (d : Dev) :
    specSapClockSet.act c d =
      (d.onAudio fun a => { a with scgs := tabMod a.scgs (u8 c.b 0) fun _ =>
          { enable := u8 c.b 1 = 1, source := u8 c.b 2, rate := u8 c.b 3, mclk := u16 c.b 4 } },
       some (.ok (le 8 (if u8 c.b 1 = 1 then dividerMilliHz (u16 c.b 4 * rateHz (u8 c.b 3)) else 0)))) := by
  simp only [specSapClockSet, decide_eq_true_eq]

theorem eventFilterSet_act_of_session {x : Session} (h : mapGet d.ctl.sessions c.session = some x) :
    specEventFilterSet.act c d =
      ((d.onCtl fun y => { y with sessions := mapSet y.sessions c.session { x with filter := filterAt c.b 0 4 } }).onEvents fun e =>
        { e with int0Holder := if bit (u8 c.b 1) 0 then some c.session else if e.int0Holder = some c.session then none else e.int0Holder }, some .ok) := by
  simp only [specEventFilterSet, Dev.onCtl, h]

theorem eventRead_act_of_session {x : Session} (h : mapGet d.ctl.sessions c.session = some x) :
    specEventRead.act c d =
      let start := max x.cursor (((oldestEvent d.events).map (·.index)).getD d.events.next)
      let got := readEvents x.filter (u16 c.b 0) ((d.events.records.takeWhile fun r => r.index ≥ start).reverse) start
      (d.onCtl fun y => { y with sessions := mapSet y.sessions c.session { x with cursor := got.2 } },
       some (.ok (le 2 got.1.length ++ le 2 0 ++ le 4 (min (2 ^ 32 - 1) (start - x.cursor)) ++ got.1.flatMap EventRec.bytes))) := by
  simp only [specEventRead, h]

theorem fwUpdateData_act_of_update {u : FwUpdate} (h : d.boot.update = some u) :
    specFwUpdateData.act c d = (d.onSlot u.slot fun s => { s with bytes := (u32 c.b 0, c.b.drop 8) :: s.bytes }, some .ok) := by
  simp only [specFwUpdateData, h]

theorem deviceReset_act (c : Ctx) (d : Dev) :
    specDeviceReset.act c d = (if u8 c.b 2 = 0 then scheduleReset 2 (orderMagazine d) else scheduleReset 1 d, some .ok) := by
  simp only [specDeviceReset]
  split <;> rfl

/-- Where no counter bit that is left to blow is weak, the counter reaches the index, or stays where it is past it (R542). -/
theorem blownTo_of_sound {b : Boot} {n : Nat} (h : ∀ k ∈ b.fuses.weakBits, k < b.fuseRollback ∨ n ≤ k) : blownTo b n = max b.fuseRollback n := by
  have none_weak : ((List.range (n - b.fuseRollback)).map (b.fuseRollback + ·)).find? (· ∈ b.fuses.weakBits) = none := by
    rw [List.find?_eq_none]
    intro k hk weak
    obtain ⟨i, hi, rfl⟩ := List.mem_map.1 hk
    have := h _ (of_decide_eq_true weak)
    have := List.mem_range.1 hi
    omega
  simp only [blownTo, none_weak]

/-- A trial boot that is over: the directory in force drops it (R550). -/
def trialOver (b : Boot) : Boot := if b.directory.trial then b.putDirectory { b.directory with trial := false, trialCount := 0 }.write else b

theorem putDirectory_fuseRollback (b : Boot) (x : BootDirectory) : (b.putDirectory x).fuseRollback = b.fuseRollback := by
  unfold Boot.putDirectory
  split <;> rfl

theorem trialOver_fuseRollback (b : Boot) : (trialOver b).fuseRollback = b.fuseRollback := by
  unfold trialOver
  split
  · exact putDirectory_fuseRollback _ _
  · rfl

theorem rollbackCommit_act_of_advance (advance : bit (u8 c.b 0) 0 = true)
    (sound : ∀ k ∈ d.boot.fuses.weakBits, k < d.boot.fuseRollback ∨ d.boot.runningImage.rollback ≤ k) :
    specRollbackCommit.act c d =
      (d.onBoot fun b => { trialOver b with fuseRollback := max b.fuseRollback b.runningImage.rollback },
       some (.ok (le 1 (max d.boot.fuseRollback d.boot.runningImage.rollback) ++ le 3 0))) := by
  have reached : ¬max d.boot.fuseRollback d.boot.runningImage.rollback < d.boot.runningImage.rollback := Nat.not_lt.2 (Nat.le_max_right ..)
  simp only [specRollbackCommit, advance, Dev.onBoot, blownTo_of_sound sound, reached, decide_false, Bool.and_false, Bool.false_eq_true, if_false, if_true]
  rfl

theorem rollbackCommit_act_of_no_advance (stays : bit (u8 c.b 0) 0 = false) :
    specRollbackCommit.act c d = (d.onBoot trialOver, some (.ok (le 1 d.boot.fuseRollback ++ le 3 0))) := by
  have same : { trialOver d.boot with fuseRollback := d.boot.fuseRollback } = trialOver d.boot := by
    rw [← trialOver_fuseRollback d.boot]
  simp only [specRollbackCommit, stays, Bool.false_and, Bool.false_eq_true, if_false, Dev.onBoot]
  rw [← same]
  rfl

/-- Settles O25: the sets settle as their spec records say, a load fills its slot at once, and RAW_QUERY answers. -/
theorem rawStageCommands : Obligations.RawStageCommands := by
  unfold Obligations.RawStageCommands
  refine ⟨?black, ?wb, ?noise, ?noiseLoad, ?defect, ?defectLoad, ?fpn, ?fpnLoad, ?snr, ?tnr, ?dual, ?shading, ?shadingLoad, ?query⟩
  case black => exact settles_of_settle (fun _ => rfl) rfl rfl (fun _ _ _ => rfl) fun _ _ => rfl
  case wb => exact settles_of_settle (fun _ => rfl) rfl rfl (fun _ _ _ => rfl) fun _ _ => rfl
  case noise => exact settles_of_settle (fun _ => rfl) rfl rfl (fun _ _ _ => rfl) fun _ _ => rfl
  case noiseLoad => exact runsWhere_of_act 0x0403 (fun _ => rfl) rfl fun _ _ _ => ⟨rfl, rfl⟩
  case defect => exact settles_of_settle (fun _ => rfl) rfl rfl (fun _ _ _ => rfl) fun _ _ => rfl
  case defectLoad => exact runsWhere_of_act 0x0401 (fun _ => rfl) rfl fun _ _ _ => ⟨rfl, rfl⟩
  case fpn => exact settles_of_settle (fun _ => rfl) rfl rfl (fun _ _ _ => rfl) fun _ _ => rfl
  case fpnLoad => exact runsWhere_of_act 0x0402 (fun _ => rfl) rfl fun _ _ _ => ⟨rfl, rfl⟩
  case snr => exact settles_of_settle (fun _ => rfl) rfl rfl (fun _ _ _ => rfl) fun _ _ => rfl
  case tnr => exact settles_of_settle (fun _ => rfl) rfl rfl (fun _ _ _ => rfl) fun _ _ => rfl
  case dual => exact settles_of_settle (fun _ => rfl) rfl rfl (fun _ _ _ => rfl) fun _ _ => rfl
  case shading => exact settles_of_settle (fun _ => rfl) rfl rfl (fun _ _ _ => rfl) fun _ _ => rfl
  case shadingLoad => exact runsWhere_of_act 0x0407 (fun _ => rfl) rfl fun _ _ _ => ⟨rfl, rfl⟩
  case query => exact answers_of_act 0x0409 (fun _ => rfl) rfl fun _ _ => rfl

/-- Settles O26: the sets settle as their spec records say, LUT loads act at once, and BRANCH_QUERY answers. -/
theorem colourCommands : Obligations.ColourCommands := by
  unfold Obligations.ColourCommands
  refine ⟨?demosaic, ?space, ?matrix, ?cdl, ?transfer, ?lut1, ?lut1Load, ?lut3, ?lut3Load, ?config, ?scaler, ?enable, ?query⟩
  case demosaic => exact settles_of_settle (fun _ => rfl) rfl rfl (fun _ _ _ => rfl) fun _ _ => rfl
  case space => exact settles_of_settle (fun _ => rfl) rfl rfl (fun _ _ _ => rfl) fun _ _ => rfl
  case matrix => exact settles_of_settle (fun _ => rfl) rfl rfl (fun _ _ _ => rfl) fun _ _ => rfl
  case cdl => exact settles_of_settle (fun _ => rfl) rfl rfl (fun _ _ _ => rfl) fun _ _ => rfl
  case transfer => exact settles_of_settle (fun _ => rfl) rfl rfl (fun _ _ _ => rfl) fun _ _ => rfl
  case lut1 => exact settles_of_settle (fun _ => rfl) rfl rfl (fun _ _ _ => rfl) fun _ _ => rfl
  case lut1Load => exact runsWhere_of_act 0x0504 (fun _ => rfl) rfl fun _ _ _ => ⟨rfl, rfl⟩
  case lut3 => exact settles_of_settle (fun _ => rfl) rfl rfl (fun _ _ _ => rfl) fun _ _ => rfl
  case lut3Load => exact runsWhere_of_act 0x0505 (fun _ => rfl) rfl fun _ _ _ => ⟨rfl, rfl⟩
  case config => exact settles_of_settle (fun _ => rfl) rfl rfl (fun _ _ _ => rfl) fun _ _ => rfl
  case scaler => exact settles_of_settle (fun _ => rfl) rfl rfl (fun _ _ _ => rfl) fun _ _ => rfl
  case enable => exact settles_of_settle (fun _ => rfl) rfl rfl (fun _ _ _ => rfl) fun _ _ => rfl
  case query => exact answers_of_act 0x050A (fun _ => rfl) rfl fun _ _ => rfl

/-- Settles O27: the sets settle as their spec records say, and the two queries answer. -/
theorem statisticsAndMotionCommands : Obligations.StatisticsAndMotionCommands := by
  unfold Obligations.StatisticsAndMotionCommands
  refine ⟨?stats, ?zones, ?tap, ?tapEnable, ?statsQuery, ?motion, ?search, ?exportRing, ?motionQuery⟩
  case stats => exact settles_of_settle (fun _ => rfl) rfl rfl (fun _ _ _ => rfl) fun _ _ => rfl
  case zones => exact settles_of_settle (fun _ => rfl) rfl rfl (fun _ _ _ => rfl) fun _ _ => rfl
  case tap => exact settles_of_settle (fun _ => rfl) rfl rfl (fun _ _ _ => rfl) fun _ _ => rfl
  case tapEnable => exact settles_of_settle (fun _ => rfl) rfl rfl (fun _ _ _ => rfl) fun c d => tapEnable_settle c d
  case statsQuery => exact answers_of_act 0x0604 (fun _ => rfl) rfl fun _ _ => rfl
  case motion => exact settles_of_settle (fun _ => rfl) rfl rfl (fun _ _ _ => rfl) fun _ _ => rfl
  case search => exact settles_of_settle (fun _ => rfl) rfl rfl (fun _ _ _ => rfl) fun _ _ => rfl
  case exportRing => exact settles_of_settle (fun _ => rfl) rfl rfl (fun _ _ _ => rfl) fun _ _ => rfl
  case motionQuery => exact answers_of_act 0x0703 (fun _ => rfl) rfl fun _ _ => rfl

/-- Settles O31: configuration, the rate commit with and without a rate to accept, and LAUNCH_SCHEDULE both ways (logs 73, 76). -/
theorem timeCommands : Obligations.TimeCommands := by
  unfold Obligations.TimeCommands
  refine ⟨?config, ?query, ?ptp, ?genlock, ?ltc, ?rate, ?anchor, fun i => ?schedule, fun l => ?cancel⟩
  case config => exact runsWhere_of_act 0x0B00 (fun _ => rfl) rfl fun _ _ _ => ⟨rfl, rfl⟩
  case query => exact answers_of_act 0x0B01 (fun _ => rfl) rfl fun _ _ => rfl
  case ptp => exact runsWhere_of_act 0x0B02 (fun _ => rfl) rfl fun _ _ _ => ⟨rfl, rfl⟩
  case genlock => exact runsWhere_of_act 0x0B03 (fun _ => rfl) rfl fun _ _ _ => ⟨rfl, rfl⟩
  case ltc => exact settles_of_settle (fun _ => rfl) rfl rfl (fun _ _ _ => rfl) fun _ _ => rfl
  case rate =>
    refine settles_of_settle (fun _ => rfl) rfl rfl (fun _ _ _ => rfl) fun c d => ?_
    cases rate : acceptRate d with
    | none => exact tdRateCommit_settle_of_none rate
    | some r => exact tdRateCommit_settle_of_some rate
  case anchor => exact runsWhere_of_act 0x0B07 (fun _ => rfl) rfl fun _ _ _ => ⟨rfl, rfl⟩
  case schedule => exact runsWhere_of_act 0x0B05 (fun _ => rfl) rfl fun _ _ ⟨new, free⟩ => ⟨(launchAct_of_schedule new free :), rfl⟩
  case cancel => exact runsWhere_of_act 0x0B05 (fun _ => rfl) rfl fun _ _ ⟨cancel, waits⟩ => ⟨(launchAct_of_cancel cancel waits :), rfl⟩

/-- Settles O32: ports, flows on a free index, and the UDP transport's filter (log 78). -/
theorem networkCommands : Obligations.NetworkCommands := by
  unfold Obligations.NetworkCommands
  refine ⟨?mac, fun k => ?send, fun k => ?recv, ?delete, ?bind, ?start, ?stop, ?query, ?udp⟩
  case mac => exact runsWhere_of_act 0x0C00 (fun _ => rfl) rfl fun _ _ _ => ⟨rfl, rfl⟩
  case send => exact runsWhere_of_act 0x0C01 (fun _ => rfl) rfl fun _ _ index => ⟨createFlow_of_index index, rfl⟩
  case recv => exact runsWhere_of_act 0x0C02 (fun _ => rfl) rfl fun _ _ index => ⟨createFlow_of_index index, rfl⟩
  case delete => exact runsWhere_of_act 0x0C03 (fun _ => rfl) rfl fun _ _ _ => ⟨rfl, rfl⟩
  case bind => exact settles_of_settle (fun _ => rfl) rfl rfl (fun _ _ _ => rfl) fun _ _ => rfl
  case start => exact settles_of_settle (fun _ => rfl) rfl rfl (fun _ _ _ => rfl) fun _ _ => rfl
  case stop => exact settles_of_settle (fun _ => rfl) rfl rfl (fun _ _ _ => rfl) fun _ _ => rfl
  case query => exact answers_of_act 0x0C07 (fun _ => rfl) rfl fun _ _ => rfl
  case udp => exact runsWhere_of_act 0x0C08 (fun _ => rfl) rfl fun _ _ _ => ⟨rfl, rfl⟩

/-- Settles O33: ports, slot maps, groups, sample clocks, resamplers and embedders. -/
theorem audioCommands : Obligations.AudioCommands := by
  unfold Obligations.AudioCommands
  refine ⟨?config, ?slotMap, ?group, ?clock, ?asrc, ?embed, ?restart, ?query⟩
  case config => exact runsWhere_of_act 0x0D00 (fun _ => rfl) rfl fun _ _ _ => ⟨rfl, rfl⟩
  case slotMap => exact settles_of_settle (fun _ => rfl) rfl rfl (fun _ _ _ => rfl) fun _ _ => rfl
  case group => exact runsWhere_of_act 0x0D02 (fun _ => rfl) rfl fun _ _ _ => ⟨rfl, rfl⟩
  case clock => exact runsWhere_of_act 0x0D03 (fun _ => rfl) rfl fun c d _ => ⟨sapClockSet_act c d, rfl⟩
  case asrc => exact runsWhere_of_act 0x0D04 (fun _ => rfl) rfl fun _ _ _ => ⟨rfl, rfl⟩
  case embed => exact settles_of_settle (fun _ => rfl) rfl rfl (fun _ _ _ => rfl) fun _ _ => rfl
  case restart => exact runsWhere_of_act 0x0D06 (fun _ => rfl) rfl fun _ _ _ => ⟨rfl, rfl⟩
  case query => exact answers_of_act 0x0D07 (fun _ => rfl) rfl fun _ _ => rfl

/-- Settles O38: the ring, a session's filter and cursor, telemetry, and the counters with device counter 5 (logs 35, 102). -/
theorem longRunCommands : Obligations.LongRunCommands := by
  unfold Obligations.LongRunCommands
  refine ⟨?ring, fun x => ?filter, fun x => ?read, ?telemetry, ?glean, ?counter, ?counterClear⟩
  case ring => exact runsWhere_of_act 0x1200 (fun _ => rfl) rfl fun _ _ _ => ⟨rfl, rfl⟩
  case filter => exact runsWhere_of_act 0x1201 (fun _ => rfl) rfl fun _ _ held => ⟨eventFilterSet_act_of_session held, rfl⟩
  case read => exact runsWhere_of_act 0x1202 (fun _ => rfl) rfl fun _ _ held => ⟨eventRead_act_of_session held, rfl⟩
  case telemetry => exact answers_of_act 0x1203 (fun _ => rfl) rfl fun _ _ => rfl
  case glean => exact answers_of_act 0x1206 (fun _ => rfl) rfl fun _ _ => rfl
  case counter => exact runsWhere_of_act 0x1204 (fun _ => rfl) rfl fun _ _ _ => ⟨rfl, rfl⟩
  case counterClear => exact runsWhere_of_act 0x1205 (fun _ => rfl) rfl fun _ _ _ => ⟨rfl, rfl⟩

/-- Settles O39: updates, activation, DEVICE_RESET, and ROLLBACK_COMMIT with and without ADVANCE (logs 11, 40). -/
theorem firmwareCommands : Obligations.FirmwareCommands := by
  unfold Obligations.FirmwareCommands
  refine ⟨?info, ?begin_, fun u => ?data, ?end_, ?activate, ?reset, ?advance, ?commit⟩
  case info => exact answers_of_act 0x1300 (fun _ => rfl) rfl fun _ _ => rfl
  case begin_ => exact runsWhere_of_act 0x1301 (fun _ => rfl) rfl fun _ _ _ => ⟨rfl, rfl⟩
  case data => exact runsWhere_of_act 0x1302 (fun _ => rfl) rfl fun _ _ update => ⟨fwUpdateData_act_of_update update, rfl⟩
  case end_ => exact runsWhere_of_act 0x1303 (fun _ => rfl) rfl fun _ _ _ => ⟨rfl, rfl⟩
  case activate => exact runsWhere_of_act 0x1304 (fun _ => rfl) rfl fun _ _ _ => ⟨rfl, rfl⟩
  case reset => exact runsWhere_of_act 0x1305 (fun _ => rfl) rfl fun c d _ => ⟨deviceReset_act c d, rfl⟩
  case advance => exact runsWhere_of_act 0x1306 (fun _ => rfl) rfl fun _ _ ⟨advance, sound⟩ => ⟨rollbackCommit_act_of_advance advance sound, rfl⟩
  case commit => exact runsWhere_of_act 0x1306 (fun _ => rfl) rfl fun _ _ stays => ⟨rollbackCommit_act_of_no_advance stays, rfl⟩

end Sys2Proof.Machine
end

section
/-! PROOF. Faults and long running (R502 to R529, R548): the patrol, the yoke, fail-over, telemetry, the event ring, an update's slot, and O56. -/

namespace Sys2Proof.Machine

variable {d : Dev}

/-! ## The patrol, the yoke and the standby complex -/

theorem drillPatrol_of_idle {i : Nat} (good : Bool) (kept : (tabGet d.fabric.drills i).lost = false) (idle : (tabGet d.fabric.drills i).job = none) :
    drillPatrol i good d =
      if good then gleanChunk 5 (d.onFabric fun f => { f with drills := tabMod f.drills i fun y => { y with lastPatrol := d.now } }) else loseDrill i 0 3 d := by
  simp only [drillPatrol, kept, idle, Option.isSome_none, Bool.or_false, Bool.false_eq_true, if_false]

theorem drillPatrol_of_busy {i : Nat} (good : Bool) (h : (tabGet d.fabric.drills i).lost = true ∨ (tabGet d.fabric.drills i).job.isSome = true) :
    drillPatrol i good d = d := if_pos (by simpa using h)

theorem laneDisagrees_of_fenced {i : Nat} (h : (tabGet d.faults.lanes i).fenced = true) : laneDisagrees i d = d := if_pos h

/-- A lane of the table, or one beyond it, is not fenced where none of the table is. -/
theorem lane_unfenced {l : List YokeLane} (h : ∀ x ∈ l, x.fenced = false) (i : Nat) : (tabGet l i).fenced = false := by
  rw [tabGet, List.getD_eq_getElem?_getD]
  cases lane : l[i]? with
  | none => rfl
  | some x => exact h x (List.mem_of_getElem? lane)

theorem laneDisagrees_of_first {i : Nat} (h : ∀ l ∈ d.faults.lanes, l.fenced = false) :
    laneDisagrees i d = raise 0x1182 3 0 (le 1 i ++ le 3 0) (d.onFaults fun f =>
      { f with lanes := tabMod f.lanes i fun _ => { fenced := true, disagreements := min ((tabGet f.lanes i).disagreements + 1) 65535 } }) := by
  have lane := lane_unfenced h i
  have none_fenced : (d.faults.lanes.any fun l => l.fenced) = false := List.any_eq_false.2 fun l hl => by simp [h l hl]
  simp only [laneDisagrees, lane, none_fenced, Bool.false_eq_true, if_false]

theorem laneDisagrees_of_second {i : Nat} (h : (tabGet d.faults.lanes i).fenced = false) (other : ∃ l ∈ d.faults.lanes, l.fenced = true) :
    laneDisagrees i d = goFatal 2 (d.onFaults fun f =>
      { f with lanes := tabMod f.lanes i fun l => { l with disagreements := min (l.disagreements + 1) 65535 } }) := by
  simp only [laneDisagrees, h, List.any_eq_true.2 other, Bool.false_eq_true, if_false, if_true]

theorem failover_of_unready {why us : Nat} (alive : fatal d = false) (ready : d.boot.ready = true) (h : d.faults.standby ≠ .ready) :
    failover why us d = goFatal 1 d := by
  simp only [failover, alive, ready, h, Bool.not_true, Bool.or_false, Bool.false_eq_true, if_false, ne_eq, not_false_eq_true, if_true]

/-- What Table 22.3 leaves where the standby complex takes over. -/
def takenOver (why us : Nat) (d : Dev) : Dev :=
  let e := pauseControl d
  let groups := e.faults.groups
  let fifo := e.faults.yokeFifo
  let redone := boolNat e.fabric.raise.isSome + boolNat e.mag.startWait.isSome
  let e := e.onFaults fun f =>
    { f with activeB := !f.activeB, standby := .failed, failovers := (f.failovers + 1) % 2 ^ 32, lastTrigger := why, lastPauseUs := us
             replayed := min 65535 (f.replayed + groups.length + redone), groups := [], yokeFifo := [], paused := false
             lockstepMismatches := if why = 1 then min (2 ^ 32 - 1) (f.lockstepMismatches + 1) else f.lockstepMismatches }
  let e := runHeld (dropUpdate (rewriteGroups (shiftDeadlines (us * 1000) e)))
  let e := setDevStatus 1 e.faults.activeB (setDevStatus 2 false e)
  let replay := fun (d : Dev) (g : JournalGroup) => match g.reply with
    | some r => finish g.request true { status := r.status, detail := r.detail, params := r.params } d
    | none => execute g.request true d
  let e := fifo.foldl (fun d r => storeEvent r d) (groups.foldl replay e)
  drainAll (raise 0x1180 3 0 (le 1 why ++ le 1 (activeComplex e) ++ le 2 0 ++ le 4 us ++ le 2 groups.length ++ le 2 redone) e)

theorem failover_of_ready {why us : Nat} (alive : fatal d = false) (ready : d.boot.ready = true) (h : d.faults.standby = .ready) :
    failover why us d = takenOver why us d := by
  simp only [failover, alive, ready, h, Bool.not_true, Bool.or_false, Bool.false_eq_true, if_false, ne_eq, not_true_eq_false]
  rfl

/-! ## Telemetry and the event ring -/

theorem takeSample_of_stopped (r : TelemetryIn) (h : firmwareRuns d = false) : takeSample r d = d := if_pos (by simp [h])

/-- A sample gets the next index and is kept among the newest 600. -/
theorem takeSample_gleaner (r : TelemetryIn) (h : firmwareRuns d = true) :
    (takeSample r d).gleaner.nextIndex = (d.gleaner.nextIndex + 1) % 2 ^ 32 ∧
      ∃ x : TelemetrySample, x.index = d.gleaner.nextIndex ∧ (takeSample r d).gleaner.samples = (x :: d.gleaner.samples).take 600 := by
  simp only [takeSample, h, Bool.not_true, Bool.false_eq_true, if_false]
  exact ⟨rfl, _, rfl, rfl⟩

theorem ringCopy_of_ring (slots : eventSlots d.bar0 ≠ 0) (going : d.faults.paused = false) :
    ringCopy d = signalEvents (copyEvents (dueEvents (reportLoss d)) (reportLoss d)) := if_neg (by simp [slots, going])

theorem ringCopy_of_none (h : eventSlots d.bar0 = 0 ∨ d.faults.paused = true) : ringCopy d = d := if_pos (by simpa using h)

/-! ## A firmware update's slot -/

variable {u : FwUpdate} {p : PendingCmd}

theorem eraseEnds_of_update (good : Bool) (update : d.boot.update = some u) (erasing : u.erasing = some p) :
    eraseEnds good d =
      if good then completeCmd p .ok (d.onBoot fun b => { b with update := some { u with erasing := none } })
      else completeCmd p { status := 0x0701 } (d.onBoot fun b => { b with update := none }) := by
  simp only [eraseEnds, update, erasing]

theorem checkEnds_of_update (im : ImageIn) (update : d.boot.update = some u) (checking : u.checking = some p) :
    checkEnds im d =
      let image := imageOf (imageHeader (tabGet d.boot.slots u.slot).bytes 0xFF) 0x1800000 im
      let r := verifyImage d.boot image
      completeCmd p .ok ((d.onSlot u.slot fun s => { s with image, result := r, bootable := decide (r = 0), ended := decide (r = 0) }).onBoot fun b =>
        { b with update := none }) := by
  simp only [checkEnds, update, checking]

/-! ## The obligation -/

/-- Settles O56: each row has the effect of its lemma above, a trip leaves a tripped module, and a sample is kept among the newest 600 (logs 31, 34, 36). -/
theorem longRunRows : Obligations.LongRunRows := by
  unfold Obligations.LongRunRows
  refine ⟨fun i => ⟨?patrolOk, ?patrolBad, fun good => ?patrolBusy⟩, fun i => ?lanes, fun why => ⟨?standby, ?standbyGone⟩, fun why us => ⟨?alone, ?failover⟩,
    fun k => ⟨?trip, fun s t untripped => ?tripped⟩, fun r => ⟨?unsampled, fun s t runs untripped => ?sampled⟩, fun l => ?evaluate, ⟨?ring, ?noRing⟩,
    fun u p im => ⟨?erased, ?eraseFails, ?checked⟩⟩
  case patrolOk => exact happens_of_after (fun _ _ => rfl) fun d ⟨kept, idle⟩ => drillPatrol_of_idle true kept idle
  case patrolBad => exact happens_of_after (fun _ _ => rfl) fun d ⟨kept, idle⟩ => drillPatrol_of_idle false kept idle
  case patrolBusy => exact happens_of_after (fun _ _ => rfl) fun d h => drillPatrol_of_busy good h
  case lanes =>
    refine ⟨?_, ?_, ?_⟩
    · exact happens_of_after (fun _ _ => rfl) fun d h => laneDisagrees_of_first h
    · exact happens_of_after (fun _ _ => rfl) fun d ⟨lane, other⟩ => laneDisagrees_of_second lane other
    · exact happens_of_after (fun _ _ => rfl) fun d h => laneDisagrees_of_fenced h
  case standby => exact happens_of_after (fun _ _ => rfl) fun d h => if_neg h
  case standbyGone => exact happens_of_after (fun _ _ => rfl) fun d h => if_pos h
  case alone => exact happens_of_after (fun _ _ => rfl) fun d ⟨alive, ready, standby⟩ => failover_of_unready alive ready standby
  case failover => exact happens_of_after (fun _ _ => rfl) fun d ⟨alive, ready, standby⟩ => failover_of_ready alive ready standby
  case trip => exact happens_of_after (fun _ _ => rfl) fun d _ => rfl
  case tripped => exact ⟨_, after_awake ⟨rfl, untripped⟩, rfl, rfl⟩
  case unsampled => exact happens_of_after (fun _ _ => rfl) fun d h => takeSample_of_stopped r h
  case sampled =>
    obtain ⟨next, x, index, samples⟩ := takeSample_gleaner r runs
    refine ⟨_, after_awake ⟨rfl, untripped⟩, next, ?_, ?_⟩
    · rw [State.set_dev, samples, List.length_take, List.length_cons]
      rfl
    · rw [State.set_dev, samples]
      exact congrArg some index
  case evaluate => exact happens_of_after (fun _ _ => rfl) fun d h => if_pos h
  case ring => exact happensAlways_of_always (fun _ _ => rfl) fun d ⟨slots, going⟩ => ringCopy_of_ring slots going
  case noRing => exact happensAlways_of_always (fun _ _ => rfl) fun d h => ringCopy_of_none h
  case erased => exact happens_of_after (fun _ _ => rfl) fun d ⟨update, erasing⟩ => eraseEnds_of_update true update erasing
  case eraseFails => exact happens_of_after (fun _ _ => rfl) fun d ⟨update, erasing⟩ => eraseEnds_of_update false update erasing
  case checked => exact happens_of_after (fun _ _ => rfl) fun d ⟨update, checking⟩ => checkEnds_of_update im update checking

end Sys2Proof.Machine
end

section
/-! PROOF. Display outputs and inputs (R311 to R332): the rows, and O51. -/

namespace Sys2Proof.Machine

variable {d : Dev} {i : Nat}

/-! ## Frames (R312, R313, R321, R327) -/

/-- The check of the frame before, at a frame's start. -/
def checkedBefore (i : Nat) (l : List (Nat × Nat)) (d : Dev) : Dev := if (d.raster i).frame = 0 then d else checkFrame i l d

theorem rasterFrame_of_idle (l : List (Nat × Nat)) (h : (d.raster i).running = false) : rasterFrame i l d = d := if_pos (by simp [h])

theorem rasterFrame_of_stopping (l : List (Nat × Nat)) (runs : (d.raster i).running = true) (stops : (d.raster i).stopping = true) (shown : (d.raster i).frame ≠ 0) :
    rasterFrame i l d = haltRaster i (checkFrame i l d) := by
  simp [rasterFrame, runs, stops, shown]

theorem rasterFrame_of_running (l : List (Nat × Nat)) (runs : (d.raster i).running = true) (goes : (d.raster i).stopping = false) :
    rasterFrame i l d =
      let f := (d.raster i).frame + 1
      let e := count (0x4000 + i) 8 1 ((setAir i ((d.raster i).air.filter fun a => decide (f ≤ a.frame) || decide (a.frame = (d.raster i).latchedFrame))
        (checkedBefore i l d)).onRaster i fun r => { r with frame := f, frameStart := r.startOf f, stretch := 0 })
      if leadsTimeline e i then anchorBegins i e else e := by
  simp only [rasterFrame, runs, goes, Bool.not_true, Bool.false_and, Bool.false_eq_true, if_false]
  rfl

theorem commitCut_of_lead (runs : (d.raster i).running = true) (leads : leadsTimeline d i = true) : commitCut i d = applyAtCut i d :=
  if_pos (by simp [runs, leads])

theorem commitCut_of_idle (h : (d.raster i).running = false) : commitCut i d = d := if_neg (by simp [h])

/-! ## Late lines (R329) -/

variable {line cause k : Nat} {a : AirFrame}

theorem lineLate_of_due (runs : (d.raster i).running = true) (active : line < (d.raster i).timing.vActive) (due : dueAir d (d.raster i) line = some a) :
    lineLate i line k cause d = match a.aborted with
      | some from_ =>
        if from_ ≤ line && (a.before.getD k none).isSome then onAir i a.frame (fun a => { a with fillLate := some (min line (a.fillLate.getD line)) }) d
        else d
      | none =>
        if cause ≥ 2 || !((a.planes.getD k none).any fun p => p.onLine line && (cause ≠ 0 || !p.rowsThere d line)) then d
        else (rasterPeers d i).foldl (fun d x => if x = i then d else abortAir a.frame line 0xFF 3 d x) (abortAir a.frame line k cause d i) := by
  simp only [lineLate, runs, due, ge_iff_le, Nat.not_le.2 active, Bool.not_true, decide_false, Bool.or_false, Bool.false_eq_true, if_false] <;> rfl

theorem lineLate_of_whole {p : AirPlane} (runs : (d.raster i).running = true) (active : line < (d.raster i).timing.vActive)
    (due : dueAir d (d.raster i) line = some a) (whole : a.aborted = none) (known : cause < 2) (plane : a.planes.getD k none = some p)
    (shown : p.onLine line = true) (late : cause = 0 → p.rowsThere d line = false) :
    lineLate i line k cause d =
      (rasterPeers d i).foldl (fun d x => if x = i then d else abortAir a.frame line 0xFF 3 d x) (abortAir a.frame line k cause d i) := by
  have missing : (decide (cause ≠ 0) || !p.rowsThere d line) = true := by
    by_cases h : cause = 0
    · simp [late h]
    · simp [h]
  simp only [lineLate_of_due runs active due, whole, plane, Option.any_some, shown, missing, ge_iff_le, Nat.not_le.2 known, Bool.and_self, Bool.not_true,
    decide_false, Bool.or_false, Bool.false_eq_true, if_false]

theorem lineLate_of_aborted {from_ : Nat} (runs : (d.raster i).running = true) (active : line < (d.raster i).timing.vActive)
    (due : dueAir d (d.raster i) line = some a) (aborted : a.aborted = some from_) (gone : from_ ≤ line) (fill : (a.before.getD k none).isSome = true) :
    lineLate i line k cause d = onAir i a.frame (fun a => { a with fillLate := some (min line (a.fillLate.getD line)) }) d := by
  simp only [lineLate_of_due runs active due, aborted, gone, fill, decide_true, Bool.and_self, if_true]

/-! ## HDMI (R325) -/

theorem hotPlug_of_plugged (trained : Bool) (rate lanes : Nat) (h : (tabGet d.display.hdmi i).plugged = false) :
    hotPlug i true trained rate lanes d =
      let e := hdmiLink i 1 rate lanes (onHdmi i (fun _ => { plugged := true, rate := rate % 256, lanes := lanes % 256 }) d)
      if frlBound e i then frlTrained i trained true e else e := by
  simp only [hotPlug, h, Bool.false_eq_true, if_false, if_true, Bool.true_and]
  rfl

theorem hotPlug_of_unplugged (trained : Bool) (rate lanes : Nat) (h : (tabGet d.display.hdmi i).plugged = true) :
    hotPlug i false trained rate lanes d = hdmiLink i 0 0 0 (onHdmi i (fun _ => { plugged := false, rate := 0, lanes := 0 }) d) := by
  simp only [hotPlug, h, Bool.true_eq_false, Bool.false_eq_true, if_false, Bool.false_and]
  rfl

theorem frlRetry_of_due {when_ : Nat} (trained : Bool) (plugged : (tabGet d.display.hdmi i).plugged = true) (untrained : (tabGet d.display.hdmi i).trained = false)
    (at_ : (tabGet d.display.hdmi i).retryAt = some when_) (due : when_ ≤ d.now) (bound : frlBound d i = true) :
    frlRetry i trained d = frlTrained i trained false d := by
  simp only [frlRetry, plugged, untrained, at_, due, bound, decide_true, Bool.not_false, Bool.and_self, if_true, Option.isNone_some]

/-! ## SDI inputs (R331, R332) -/

theorem sdiLocked_of_unlocked (id_ : Nat) (enabled : (tabGet d.display.sdiIn i).enabled = true) (unlocked : (tabGet d.display.sdiIn i).locked = false) :
    sdiLocked i id_ d = raise 0x0A84 0 0 (le 1 i ++ le 1 0 ++ le 4 id_) (onSdi i (fun x => { x with locked := true, payloadId := id_ % 2 ^ 32, sinceLock := 0 }) d)
      (td := (tabGet d.display.sdiIn i).domain) := by
  simp only [sdiLocked, enabled, unlocked, Bool.not_true, Bool.or_false, Bool.false_eq_true, if_false]

theorem sdiLost_of_locked (locked : (tabGet d.display.sdiIn i).locked = true) :
    sdiLost i d = raise 0x0A85 2 0 (le 1 i ++ le 1 0 ++ le 4 (tabGet d.display.sdiIn i).sinceLock) (onSdi i (fun x => { x with locked := false }) d)
      (td := (tabGet d.display.sdiIn i).domain) := by
  simp only [sdiLost, locked, Bool.not_true, Bool.false_eq_true, if_false]

variable {sav w h : Nat} {px anc : List Byte}

/-- The input's state as a received frame leaves it, whether its slot is written or not. -/
def sdiSeen (i sav w h : Nat) (anc : List Byte) (d : Dev) : Dev :=
  onSdi i (fun x => { x with width := w, height := h, frames := x.frames + 1, sinceLock := x.sinceLock + 1, ancillary := anc
                             sav := (d.domain x.domain).timeAt (min sav d.now) }) d

theorem sdiFrame_of_unlocked (h' : (tabGet d.display.sdiIn i).enabled = false ∨ (tabGet d.display.sdiIn i).locked = false) :
    sdiFrame i sav w h px anc d = d := if_pos (by simpa using h')

section
variable (enabled : (tabGet d.display.sdiIn i).enabled = true) (locked : (tabGet d.display.sdiIn i).locked = true)
include enabled locked

theorem sdiFrame_of_small (small : (mappedPail (sdiSeen i sav w h anc d) (tabGet d.display.sdiIn i).pail).elim 0 (·.2.size)
      < (tabGet d.display.sdiIn i).depth * formatSlot 0x30 w h) :
    sdiFrame i sav w h px anc d = sdiSeen i sav w h anc d := by
  have live : ¬(!(tabGet d.display.sdiIn i).enabled || !(tabGet d.display.sdiIn i).locked) = true := by simp [enabled, locked]
  exact (if_neg live).trans (if_pos small)

theorem sdiFrame_of_slot {slot : Nat} (room : (tabGet d.display.sdiIn i).depth * formatSlot 0x30 w h
      ≤ (mappedPail (sdiSeen i sav w h anc d) (tabGet d.display.sdiIn i).pail).elim 0 (·.2.size))
    (taken : (takeSlot (sdiRef i) (tabGet d.display.sdiIn i).pail (tabGet d.display.sdiIn i).depth (formatSlot 0x30 w h) (sdiSeen i sav w h anc d)).1 = some slot) :
    sdiFrame i sav w h px anc d =
      let x := tabGet d.display.sdiIn i
      let size := formatSlot 0x30 w h
      let e := (sdiRows w h px).foldl (fun d r => pailWrite x.pail (slot * size + r.1) r.2 d) (takeSlot (sdiRef i) x.pail x.depth size (sdiSeen i sav w h anc d)).2
      let at1 := fullTime ((d.domain x.domain).timeAt (min sav d.now))
      completeSlot (sdiRef i) slot (x.frames + 1) 0 (writeRecord x.pail slot
        { frame := x.frames + 1, format := 0x30, flags := 16 * boolNat (decide (x.ring.skippedBefore ≠ 0)) + 32, domain := x.domain, sofSeconds := at1.seconds
          sofNs := at1.ns, doneStamp := shortStamp (domainNow e x.domain), rowsComplete := h, skippedBefore := x.ring.skippedBefore, width := w, height := h
          payloadId := x.payloadId, input := i } e) := by
  have live : ¬(!(tabGet d.display.sdiIn i).enabled || !(tabGet d.display.sdiIn i).locked) = true := by simp [enabled, locked]
  have given : takeSlot (sdiRef i) (tabGet d.display.sdiIn i).pail (tabGet d.display.sdiIn i).depth (formatSlot 0x30 w h) (sdiSeen i sav w h anc d)
      = (some slot, (takeSlot (sdiRef i) (tabGet d.display.sdiIn i).pail (tabGet d.display.sdiIn i).depth (formatSlot 0x30 w h) (sdiSeen i sav w h anc d)).2) :=
    Prod.ext taken rfl
  refine (if_neg live).trans ((if_neg (Nat.not_lt.2 room)).trans ?_)
  -- the taken slot stands in the goal with the input's entry read from outside the change, which is the same by definition
  erw [given]
end

/-- Settles O51: frames, cuts, latches, late lines, tearing edges, HDMI links and SDI inputs have the effects of the lemmas above (logs 68, 69, 71). -/
theorem rasterRows : Obligations.RasterRows := by
  unfold Obligations.RasterRows
  refine ⟨fun i l => ?frame, fun i => ⟨?cut, ?cutIdle, ?latch⟩, fun i line cause k a => ⟨?late, fun from_ => ?fillLate⟩, fun k => ⟨?te, fun trained rate lanes => ?plug,
    fun trained rate lanes => ?unplug, fun trained when_ => ?retry⟩, fun i => ⟨fun id_ => ?locked, ?lost, fun sav w h px anc => ?received⟩⟩
  case frame =>
    refine ⟨?_, ?_, ?_⟩
    · exact happens_of_after (fun _ _ => rfl) fun d ⟨runs, stops, shown⟩ => rasterFrame_of_stopping l runs stops shown
    · exact happens_of_after (fun _ _ => rfl) fun d ⟨runs, goes⟩ => rasterFrame_of_running l runs goes
    · exact happens_of_after (fun _ _ => rfl) fun d h => rasterFrame_of_idle l h
  case cut => exact happens_of_after (fun _ _ => rfl) fun d ⟨runs, leads⟩ => commitCut_of_lead runs leads
  case cutIdle => exact happens_of_after (fun _ _ => rfl) fun d h => commitCut_of_idle h
  case latch => exact happens_of_after (fun _ _ => rfl) fun d runs => if_neg (by simp [runs])
  case late =>
    exact happens_of_after (fun _ _ => rfl) fun d ⟨runs, active, due, whole, known, p, plane, shown, late⟩ =>
      lineLate_of_whole runs active due whole known plane shown late
  case fillLate =>
    exact happens_of_after (fun _ _ => rfl) fun d ⟨runs, active, due, aborted, gone, fill⟩ => lineLate_of_aborted runs active due aborted gone fill
  case te => exact happens_of_after (fun _ _ => rfl) fun d _ => rfl
  case plug => exact happens_of_after (fun _ _ => rfl) fun d h => hotPlug_of_plugged trained rate lanes h
  case unplug => exact happens_of_after (fun _ _ => rfl) fun d h => hotPlug_of_unplugged trained rate lanes h
  case retry =>
    exact happens_of_after (fun _ _ => rfl) fun d ⟨plugged, untrained, at_, due, bound⟩ => frlRetry_of_due trained plugged untrained at_ due bound
  case locked => exact happens_of_after (fun _ _ => rfl) fun d ⟨enabled, unlocked⟩ => sdiLocked_of_unlocked id_ enabled unlocked
  case lost => exact happens_of_after (fun _ _ => rfl) fun d locked => sdiLost_of_locked locked
  case received =>
    refine ⟨?_, ?_, fun slot => ?_⟩
    · exact happens_of_after (fun _ _ => rfl) fun d h => sdiFrame_of_unlocked h
    · exact happens_of_after (fun _ _ => rfl) fun d ⟨enabled, locked, small⟩ => sdiFrame_of_small enabled locked small
    · exact happens_of_after (fun _ _ => rfl) fun d ⟨enabled, locked, room, taken⟩ => sdiFrame_of_slot enabled locked room taken

end Sys2Proof.Machine
end

section
/-! PROOF. Time (R337 to R354): PTP, timecode, steps, launches, anchors, holdover, and O52. -/

namespace Sys2Proof.Machine

variable {d : Dev} {td : Nat} {portB : Bool}

/-! ## Events of a reference -/

/-- A change that leaves a field of what it changes leaves the field of every entry. -/
theorem tabGet_tabMod_field {β γ : Type} [Inhabited β] {f : β → β} {g : β → γ} (l : List β) (i j : Nat) (kept : ∀ x, g (f x) = g x) :
    g (tabGet (tabMod l i f) j) = g (tabGet l j) := by
  by_cases same : i = j
  · by_cases inside : i < l.length
    · rw [← same, tabGet_tabMod_same l f inside, kept]
    · rw [tabMod, List.set_eq_of_length_le (Nat.not_lt.1 inside)]
  · rw [tabGet_tabMod_other l f same]

@[simp] theorem count_time (k no n : Nat) (d : Dev) : (count k no n d).time = d.time := by
  obtain ⟨_, _, _, counted⟩ := count_eq k no n d
  rw [counted]

@[simp] theorem postEvent_time (r : EventRec) (d : Dev) : (postEvent r d).time = d.time := by
  obtain ⟨_, _, _, posted⟩ := postEvent_eq r d
  rw [posted]

@[simp] theorem logFault_time (r : EventRec) (d : Dev) : (logFault r d).time = d.time := by
  simp only [logFault, apply_ite Dev.time, count_time, Dev.onFaults_time, ite_self]

@[simp] theorem raise_time (code sev src : Nat) (detail : List Byte) (d : Dev) (dom frame : Nat) : (raise code sev src detail d dom frame).time = d.time := by
  simp only [raise, raiseAt, apply_ite Dev.time, logFault_time, postEvent_time, ite_self]

@[simp] theorem refState_time (td code : Nat) (valid : Bool) (d : Dev) : (refState td code valid d).time = d.time := by
  simp only [refState, apply_ite Dev.time, count_time, raise_time, ite_self]

/-! ## PTP (R347) -/

/-- A port's Sync message, noted: it is valid, and its run of good ones goes on or ends. -/
def ptpHeard (td : Nat) (portB : Bool) (off : Int) (d : Dev) : Dev :=
  let run := fun (n : Nat) => if off.natAbs ≤ (tabGet d.time.ptp td).lockNs then n + 1 else 0
  onPtp td (fun p =>
    if portB then { p with validB := true, lastSyncB := some d.now, goodRunB := run p.goodRunB }
    else { p with validA := true, lastSyncA := some d.now, goodRun := run p.goodRun }) d

/-- The port's reference is valid. -/
def ptpValid (td : Nat) (portB : Bool) (d : Dev) : Bool := if portB then (tabGet d.time.ptp td).validB else (tabGet d.time.ptp td).validA

/-- A Sync message noted, and the return of a reference that was lost told. -/
def ptpBack (td : Nat) (portB : Bool) (off : Int) (d : Dev) : Dev :=
  if (if portB then (tabGet d.time.ptp td).lastSyncB else (tabGet d.time.ptp td).lastSyncA).isSome && !ptpValid td portB d
  then refState td (ptpInput portB) true (ptpHeard td portB off d) else ptpHeard td portB off d

/-- The master that a port hears, noted. -/
def ptpMaster (td : Nat) (portB : Bool) (gm : Nat) (d : Dev) : Dev := onPtp td (fun p => if portB then { p with gmB := gm } else { p with gmA := gm }) d

/-- The MAC that a port of a domain's PTP is on. -/
def ptpPort (td : Nat) (portB : Bool) (d : Dev) : Nat := if portB then (tabGet d.time.ptp td).portB else (tabGet d.time.ptp td).portA

/-- The best master's data, taken over from the port that hears it. -/
def ptpFollowed (td : Nat) (portB : Bool) (gm steps : Nat) (utc : Int) (flags : Nat) (d : Dev) : Dev :=
  onPtp td (fun p => { p with grandmaster := gm, steps, utcOffset := utc, leap61 := bit flags 0, leap59 := bit flags 1, utcValid := bit flags 2
                              activePort := ptpPort td portB d }) (ptpMaster td portB gm d)

/-- A port's reference, gone: its event told and its run ended. -/
def ptpGone (td : Nat) (portB : Bool) (d : Dev) : Dev :=
  refState td (ptpInput portB) false (onPtp td (fun p => if portB then { p with validB := false, goodRunB := 0 } else { p with validA := false, goodRun := 0 }) d)

theorem onPtp_field {γ : Type} {f : Ptp → Ptp} (g : Ptp → γ) (kept : ∀ p, g (f p) = g p) :
    g (tabGet (onPtp td f d).time.ptp td) = g (tabGet d.time.ptp td) :=
  tabGet_tabMod_field (f := f) (g := g) d.time.ptp td td kept

/-- A reference that is gone leaves the MACs of its domain's PTP. -/
theorem ptpGone_ports (td : Nat) (portB : Bool) (d : Dev) :
    (tabGet (ptpGone td portB d).time.ptp td).portA = (tabGet d.time.ptp td).portA ∧ (tabGet (ptpGone td portB d).time.ptp td).portB = (tabGet d.time.ptp td).portB := by
  rw [ptpGone, refState_time]
  refine ⟨onPtp_field Ptp.portA ?_, onPtp_field Ptp.portB ?_⟩
  all_goals cases portB <;> exact fun _ => rfl

/-- The other port hears the same master and is locked. -/
def PtpOther (td : Nat) (portB : Bool) (d : Dev) : Prop :=
  (if portB then (tabGet d.time.ptp td).validA = true ∧ 16 ≤ (tabGet d.time.ptp td).goodRun
    else (tabGet d.time.ptp td).validB = true ∧ 16 ≤ (tabGet d.time.ptp td).goodRunB) ∧ (tabGet d.time.ptp td).gmA = (tabGet d.time.ptp td).gmB

section
variable (configured : (tabGet d.time.ptp td).configured = true) (enabled : (d.domain td).state ≠ .disabled)
include configured enabled

section
variable (port : ¬(portB = true ∧ (tabGet d.time.ptp td).portB = 0xFF))
include port

/-- Messages of a port that PTP is configured on, in a domain in use, are taken. -/
theorem ptp_taken : ¬(!(tabGet d.time.ptp td).configured || decide ((d.domain td).state = .disabled)
    || (portB && decide ((tabGet d.time.ptp td).portB = 0xFF))) = true := by
  simpa [configured, enabled] using port

theorem ptpSync_of_inactive (off : Int) (inactive : (tabGet d.time.ptp td).isActive portB = false) : ptpSync td portB off d = ptpBack td portB off d := by
  refine (if_neg (ptp_taken configured enabled port)).trans ((if_pos (by rw [inactive]; rfl)).trans ?_)
  cases portB <;> rfl

theorem ptpSync_of_active (off : Int) (active : (tabGet d.time.ptp td).isActive portB = true) :
    ptpSync td portB off d =
      let e := if (d.domain td).state = .holdover then setDomain td .acquiring 2 (ptpBack td portB off d) else ptpBack td portB off d
      let e := correctDomain td off (steerDomain td e)
      if 16 ≤ (if portB then (tabGet e.time.ptp td).goodRunB else (tabGet e.time.ptp td).goodRun) ∧ (e.domain td).state = .acquiring
      then setDomain td .locked 3 e else e := by
  refine (if_neg (ptp_taken configured enabled port)).trans ((if_neg (by rw [active]; decide)).trans ?_)
  cases portB <;> exact if_congr (Bool.and_eq_true_iff.trans (and_congr decide_eq_true_iff decide_eq_true_iff)) rfl rfl

variable {gm steps flags : Nat} {utc : Int}

theorem ptpAnnounce_of_other : ptpAnnounce td portB gm steps utc flags false d = ptpMaster td portB gm d :=
  (if_neg (ptp_taken configured enabled port)).trans (if_pos rfl)

theorem ptpAnnounce_of_same (same : (tabGet d.time.ptp td).grandmaster = 0 ∨ (tabGet d.time.ptp td).grandmaster = gm) :
    ptpAnnounce td portB gm steps utc flags true d = ptpFollowed td portB gm steps utc flags d := by
  refine (if_neg (ptp_taken configured enabled port)).trans ((if_neg (by decide)).trans (if_neg ?_))
  rcases same with h | h <;> simp [h]

theorem ptpAnnounce_of_new (had : (tabGet d.time.ptp td).grandmaster ≠ 0) (new : (tabGet d.time.ptp td).grandmaster ≠ gm) :
    ptpAnnounce td portB gm steps utc flags true d =
      let e := onPtp td (fun p => { p with goodRun := 0, goodRunB := 0 })
        (raise 0x0B84 1 (domainObj td) (le 8 gm ++ le 2 steps ++ le 1 (ptpPort td portB d)) (ptpFollowed td portB gm steps utc flags d) (td := td))
      if (e.domain td).state = .locked then setDomain td .acquiring 5 e else e := by
  refine (if_neg (ptp_taken configured enabled port)).trans ((if_neg (by decide)).trans (if_pos ?_))
  simp [had, new]

end

variable (valid : ptpValid td portB d = true)
include valid

theorem ptp_losable : ¬(!(tabGet d.time.ptp td).configured || decide ((d.domain td).state = .disabled)
    || !(if portB then (tabGet d.time.ptp td).validB else (tabGet d.time.ptp td).validA)) = true := by
  have valid' : (if portB then (tabGet d.time.ptp td).validB else (tabGet d.time.ptp td).validA) = true := valid
  simp [configured, enabled, valid']

theorem ptpLost_of_inactive (inactive : (tabGet d.time.ptp td).isActive portB = false) : ptpLost td portB d = ptpGone td portB d :=
  (if_neg (ptp_losable configured enabled valid)).trans (if_pos (by rw [inactive]; rfl))

theorem ptpLost_of_active (active : (tabGet d.time.ptp td).isActive portB = true) [Decidable (PtpOther td portB d)] :
    ptpLost td portB d =
      if PtpOther td portB d then
        onPtp td (fun p => { p with activePort := if portB then (tabGet d.time.ptp td).portA else (tabGet d.time.ptp td).portB }) (ptpGone td portB d)
      else if following ((ptpGone td portB d).domain td).state then setDomain td .holdover 1 (ptpGone td portB d) else ptpGone td portB d := by
  refine (if_neg (ptp_losable configured enabled valid)).trans ((if_neg (by rw [active]; decide)).trans (if_congr ?_ ?_ rfl))
  · cases portB <;> simp [PtpOther]
  · obtain ⟨portA, portB'⟩ := ptpGone_ports td portB d
    rw [← portA, ← portB']
    rfl
end

/-! ## LTC (R349, R350) -/

/-- The word's label follows the last frame's, or is the first (log 73). -/
def ltcFollows (w : Nat) (d : Dev) : Bool := d.time.ltc.lastFrame.all fun p => decide (ltcLabel d.time.ltc.input.rate w = nextLabel d.time.ltc.input.rate p)

/-- A word's label, noted. -/
def ltcNoted (w : Nat) (d : Dev) : Dev := d.onTime fun t => { t with ltc := { t.ltc with lastFrame := some (ltcLabel d.time.ltc.input.rate w) } }

section
variable {w : Nat} (enabled : d.time.ltc.input.enabled = true)
include enabled

theorem ltcReceive_of_bad : ltcReceive w false d = count (domainObj d.time.ltc.input.domain) 0 1 d :=
  (if_neg (by simp [enabled])).trans (if_pos rfl)

theorem ltcReceive_of_jump (jumps : ltcFollows w d = false) : ltcReceive w true d = count (domainObj d.time.ltc.input.domain) 0 1 (ltcNoted w d) :=
  (if_neg (by simp [enabled])).trans ((if_neg (by decide)).trans (if_pos (congrArg (!·) jumps)))

theorem ltcReceive_of_early (next : ltcFollows w d = true) (early : (ltcEdge (ltcNoted w d)).2.valid = false) :
    ltcReceive w true d = (ltcEdge (ltcNoted w d)).1 := 
  (if_neg (by simp [enabled])).trans ((if_neg (by decide)).trans ((if_neg (Bool.eq_false_iff.1 (congrArg (!·) next))).trans (if_pos (congrArg (!·) early))))

theorem ltcReceive_of_valid (next : ltcFollows w d = true) (valid : (ltcEdge (ltcNoted w d)).2.valid = true) :
    ltcReceive w true d =
      let e := (ltcEdge (ltcNoted w d)).1
      ltcTime w (e.onTime fun t => { t with ltc := { t.ltc with
        words := ({ bits := w, stamp := shortStamp (domainNow e d.time.ltc.input.domain) } :: t.ltc.words).take 16 } }) :=
  (if_neg (by simp [enabled])).trans ((if_neg (by decide)).trans ((if_neg (Bool.eq_false_iff.1 (congrArg (!·) next))).trans
    (if_neg (Bool.eq_false_iff.1 (congrArg (!·) valid)))))
end

/-! ## Steps, launches, anchors, holdover -/

theorem applyStep_of_due {x : Int} {grid : Bool} (h : dueStep d td = some (x, grid)) :
    applyStep td d = fireDue true td (stepNow td x grid (fireDue false td d)) := by
  simp only [applyStep, h]

theorem applyStep_of_none (h : dueStep d td = none) : applyStep td d = d := by
  simp only [applyStep, h]

theorem launchDue_of_waiting {n : Nat} {l : Launch} (waits : d.time.launches.find? (fun l => l.id = n) = some l) (enabled : (d.domain l.domain).state ≠ .disabled) :
    launchDue n d = fireDue false l.domain d := by
  simp only [launchDue, waits, if_pos enabled]

theorem launchDue_of_none {n : Nat} (h : d.time.launches.find? (fun l => l.id = n) = none) : launchDue n d = d := by
  simp only [launchDue, h]

theorem holdoverLong_of_long (held : (d.domain td).state.held = true) (first : (d.domain td).extended = false)
    (long : (d.domain td).heldSince + 600000000000 ≤ d.now) :
    holdoverLong td d = raise 0x0B85 2 (domainObj td) (le 4 (shortStamp ((d.domain td).timeAt d.now - (d.now - (d.domain td).heldSince))))
      (d.onDomain td fun x => { x with extended := true }) (td := td) :=
  if_pos (by simp [held, first, long])

/-- Settles O52: edges and stops are their rows' functions, and PTP, timecode, steps, launches, anchors and holdover have the effects of the lemmas above
(logs 73, 74). -/
theorem timeRows : Obligations.TimeRows := by
  unfold Obligations.TimeRows
  refine ⟨?edges, fun td portB off => ?ptp, fun w => ⟨?bad, ?follows⟩, ?sent, fun td x grid => ⟨?step, ?noStep⟩, fun n l => ⟨?launch, ?noLaunch⟩,
    fun td => ⟨?anchor, ?noAnchor, ?held, ?unheld⟩⟩
  case edges =>
    refine ⟨?_, ?_, ?_, fun k => ?_, ?_, ?_, ?_, fun k => ?_⟩
    case refine_3 => exact happens_of_after (fun _ _ => rfl) fun d h => if_pos h
    all_goals exact happens_of_after (fun _ _ => rfl) fun d _ => rfl
  case ptp =>
    intro on on' run heard was back
    refine ⟨?_, ?_, fun gm steps utc flags => ⟨?_, ?_, ?_⟩, ?_⟩
    · exact happens_of_after (fun _ _ => rfl) fun d ⟨⟨configured, enabled, port⟩, inactive⟩ => ptpSync_of_inactive configured enabled port off inactive
    · exact happens_of_after (fun _ _ => rfl) fun d ⟨⟨configured, enabled, port⟩, active⟩ => ptpSync_of_active configured enabled port off active
    · exact happens_of_after (fun _ _ => rfl) fun d ⟨configured, enabled, port⟩ => ptpAnnounce_of_other configured enabled port
    · exact happens_of_after (fun _ _ => rfl) fun d ⟨⟨configured, enabled, port⟩, same⟩ => ptpAnnounce_of_same configured enabled port same
    · exact happens_of_after (fun _ _ => rfl) fun d ⟨⟨configured, enabled, port⟩, had, new⟩ => ptpAnnounce_of_new configured enabled port had new
    · intro lost other
      classical
      refine ⟨?_, ?_, ?_⟩
      · exact happens_of_after (fun _ _ => rfl) fun d ⟨⟨configured, enabled⟩, valid, inactive⟩ => ptpLost_of_inactive configured enabled valid inactive
      · exact happens_of_after (fun _ _ => rfl) fun d ⟨⟨configured, enabled⟩, valid, active, other⟩ =>
          (ptpLost_of_active configured enabled valid active).trans (if_pos other)
      · exact happens_of_after (fun _ _ => rfl) fun d ⟨⟨configured, enabled⟩, valid, active, other⟩ =>
          (ptpLost_of_active configured enabled valid active).trans (if_neg other)
  case bad => exact happens_of_after (fun _ _ => rfl) fun d enabled => ltcReceive_of_bad enabled
  case follows =>
    intro follows noted
    refine ⟨?_, ?_, ?_⟩
    · exact happens_of_after (fun _ _ => rfl) fun d ⟨enabled, jumps⟩ => ltcReceive_of_jump enabled (Bool.eq_false_iff.2 jumps)
    · exact happens_of_after (fun _ _ => rfl) fun d ⟨enabled, next, early⟩ => ltcReceive_of_early enabled next early
    · exact happens_of_after (fun _ _ => rfl) fun d ⟨enabled, next, valid⟩ => ltcReceive_of_valid enabled next valid
  case sent => exact happens_of_after (fun _ _ => rfl) fun d ⟨enabled, runs⟩ => if_neg (by simp [enabled, runs])
  case step => exact happens_of_after (fun _ _ => rfl) fun d h => applyStep_of_due h
  case noStep => exact happens_of_after (fun _ _ => rfl) fun d h => applyStep_of_none h
  case launch => exact happens_of_after (fun _ _ => rfl) fun d ⟨waits, enabled⟩ => launchDue_of_waiting waits enabled
  case noLaunch => exact happens_of_after (fun _ _ => rfl) fun d h => launchDue_of_none h
  case anchor => exact happens_of_after (fun _ _ => rfl) fun d h => if_neg h
  case noAnchor => exact happens_of_after (fun _ _ => rfl) fun d h => if_pos h
  case held => exact happens_of_after (fun _ _ => rfl) fun d ⟨held, first, long⟩ => holdoverLong_of_long held first long
  case unheld => exact happens_of_after (fun _ _ => rfl) fun d h => if_neg (by simp [h])

end Sys2Proof.Machine
end

section
/-! PROOF. Media flows, links and audio ports (R358 to R382): the rows, and O53. -/

namespace Sys2Proof.Machine

variable {d : Dev} {k : Nat} {f : Flow}

/-! ## Senders (R361, R365) -/

theorem packetLaunch_of_turn (flow : d.flow? k = some f) (runs : f.running = true) (bound : f.bound = true) (turn : waitsTurn d k f = false) :
    packetLaunch k d =
      if f.config.essence = 0 then launchVideo k d else if f.config.essence = 1 then launchXs k d
      else if f.config.essence = 2 then launchAudio k d else launchAnc k d := by
  simp only [packetLaunch, flow, runs, bound, turn, Bool.not_true, Bool.or_self, Bool.false_eq_true, if_false]
  split
  case h_1 essence => rw [if_pos essence]
  case h_2 essence => rw [essence]; rfl
  case h_3 essence => rw [essence]; rfl
  case h_4 not0 not1 not2 => rw [if_neg not0, if_neg not1, if_neg not2]

/-! ## Receivers (R370) -/

section
variable {pathB : Bool} {seq stamp : Nat} {b : List Byte} (flow : d.flow? k = some f) (runs : f.running = true) (path : ¬(pathB = true ∧ f.config.dual = false))
include flow runs path

/-- How far a packet's number stands from the highest one so far, in the 16 bits that it carries. -/
def seqAhead (f : Flow) (seq : Nat) : Int := (((seq % 65536 : Nat) : Int) - f.extSeq + 32768) % 65536 - 32768

/-- What a packet on a path of a running receiver does, after the path is marked alive. -/
theorem rtpReceive_of_path (fragment : Bool) :
    rtpReceive k pathB seq stamp b fragment d =
      if fragment then count 0 1 1 (pathAlive k pathB d)
      else if f.config.essence = 0 then storePacket k pathB (unle (slice b 0 2).reverse * 65536 + seq % 65536) stamp b (pathAlive k pathB d)
      else if !f.seqKnown then storePacket k pathB (seq % 65536) stamp b (pathAlive k pathB d)
      else if (seqAhead f seq).natAbs ≤ 3000 then storePacket k pathB ((f.extSeq + seqAhead f seq) % 2 ^ 32).toNat stamp b (pathAlive k pathB d)
      else match f.held with
        | some (hs, ht, hp) =>
          if (hs + 1) % 65536 = seq % 65536 then
            let e := (pathAlive k pathB d).onFlow k fun f => { f with seqKnown := false, seen := [], held := none, closedSeq := none }
            let e := raise 0x0C83 1 (flowObj k) (le 2 (flowObj k) ++ le 4 f.extSeq ++ le 4 (seq % 65536)) e (td := f.config.domain)
            storePacket k pathB (if seq % 65536 = 0 then 65536 else seq % 65536) stamp b (storePacket k pathB hs ht hp e)
          else if hs = seq % 65536 then pathAlive k pathB d
          else (pathAlive k pathB d).onFlow k fun f => { f with held := some (seq % 65536, stamp, b) }
        | none => (pathAlive k pathB d).onFlow k fun f => { f with held := some (seq % 65536, stamp, b) } := by
  have taken : (!f.running || (pathB && !f.config.dual)) = false := by
    simpa [runs] using path
  simp only [rtpReceive, flow, taken, Bool.false_eq_true, if_false]
  rfl

end

/-! ## Closing (R371) -/

/-- A receiver that stops is halted once nothing is being received. -/
def flowEnds (k : Nat) (d : Dev) : Dev := match d.flow? k with
  | some f => if f.stopping && f.receiving.isEmpty then haltFlow k d else d
  | none => d

/-- The packet time with no packet at all that a receiver of audio closes with zeros. -/
def silentTime (d : Dev) (f : Flow) : Option Nat := match f.lastClosed with
  | some n => if f.config.essence = 2 && closeTime f.config (ceilDiv (n * 1000000000) (flowClock f.config)) ≤ domainNow d f.config.domain
      && (match oldestFrame f with
        | some r => n + packetSamples f.config ≤ r.stamp
        | none => true) then some n else none
  | none => none

/-- A receiver of audio, closed up to a packet time. -/
def closedTo (k n : Nat) (d : Dev) : Dev := d.onFlow k fun f => { f with lastClosed := some (n + packetSamples f.config) }

/-- A receiver with a frame taken out and counted. -/
def frameTaken (k : Nat) (r : RecvFrame) (d : Dev) : Dev := d.onFlow k fun f =>
  { f with frames := f.frames + 1, receiving := f.receiving.filter fun x => x.stamp ≠ r.stamp, lastClosed := some (r.stamp + packetSamples f.config) }

/-- A change of a flow depends on what it makes of that flow alone. -/
theorem onFlow_congr {g h : Flow → Flow} (flow : d.flow? k = some f) (same : g f = h f) : d.onFlow k g = d.onFlow k h := by
  have flow' : mapGet d.net.flows k = some f := flow
  simp only [Dev.onFlow, flow', same]

/-- What a frame's packets make, by the flow's essence. -/
def closeEssence (k : Nat) (f : Flow) (r : RecvFrame) (e : Dev) : Dev := match f.config.essence with
  | 0 => closeVideo k r e
  | 1 => closeXs ((e.flow? k).getD {}) r e
  | 2 => closeAudio ((e.flow? k).getD {}) r.stamp ((r.packets.head?.map (·.2.2)).getD []) e
  | _ => closeAnc k ((e.flow? k).getD {}) r e

theorem flowClose_of_running (flow : d.flow? k = some f) (runs : f.running = true) :
    flowClose k d = match silentTime d f with
      | some n => flowEnds k (closeAudio f n [] (closedTo k n d))
      | none => match oldestFrame f with
        | none => if f.stopping && f.receiving.isEmpty then haltFlow k d else d
        | some r =>
          if closeTime f.config r.instant > domainNow d f.config.domain then d
          else flowEnds k (countLosses k r (closeEssence k f r (frameTaken k r d))) := by
  have closed : ∀ n, closedTo k n d = d.onFlow k fun g => { g with lastClosed := some (n + packetSamples f.config) } := fun n => onFlow_congr flow rfl
  have taken : ∀ r, frameTaken k r d = d.onFlow k fun g =>
      { g with frames := g.frames + 1, receiving := g.receiving.filter fun x => x.stamp ≠ r.stamp, lastClosed := some (r.stamp + packetSamples f.config) } :=
    fun r => onFlow_congr flow rfl
  simp only [flowClose, flow, runs, closed, taken, Bool.not_true, Bool.false_eq_true, if_false]
  rfl

variable {r : RecvFrame} {n : Nat}

/-- No packet time of audio without a packet has come before a frame that is being received, where its time has not or where the frame's is earlier. -/
theorem silentTime_of_frame (oldest : oldestFrame f = some r)
    (comes : ∀ n, f.lastClosed = some n → f.config.essence = 2 →
      domainNow d f.config.domain < closeTime f.config (ceilDiv (n * 1000000000) (flowClock f.config)) ∨ r.stamp < n + packetSamples f.config) :
    silentTime d f = none := by
  unfold silentTime
  split
  case h_2 => rfl
  case h_1 n closed =>
    refine if_neg fun silent => ?_
    simp only [oldest, Bool.and_eq_true, decide_eq_true_eq] at silent
    obtain ⟨⟨audio, come⟩, before⟩ := silent
    rcases comes n closed audio with h | h <;> omega

theorem silentTime_of_come (audio : f.config.essence = 2) (closed : f.lastClosed = some n)
    (come : closeTime f.config (ceilDiv (n * 1000000000) (flowClock f.config)) ≤ domainNow d f.config.domain)
    (before : ∀ x, oldestFrame f = some x → n + packetSamples f.config ≤ x.stamp) : silentTime d f = some n := by
  have ahead : (match oldestFrame f with
      | some r => decide (n + packetSamples f.config ≤ r.stamp)
      | none => true) = true := by
    split
    case h_1 x oldest => exact decide_eq_true (before x oldest)
    case h_2 => rfl
  simp only [silentTime, closed, audio, come, ahead, decide_true, Bool.and_self, if_true]

section
variable (flow : d.flow? k = some f) (runs : f.running = true)
include flow runs

theorem flowClose_of_silent (silent : silentTime d f = some n) :
    flowClose k d = flowEnds k (closeAudio f n [] (closedTo k n d)) := by
  simp only [flowClose_of_running flow runs, silent]

theorem flowClose_of_early (heard : silentTime d f = none) (oldest : oldestFrame f = some r)
    (early : domainNow d f.config.domain < closeTime f.config r.instant) : flowClose k d = d := by
  simp only [flowClose_of_running flow runs, heard, oldest, gt_iff_lt, if_pos early]

theorem flowClose_of_due (heard : silentTime d f = none) (oldest : oldestFrame f = some r) (due : closeTime f.config r.instant ≤ domainNow d f.config.domain) :
    flowClose k d = flowEnds k (countLosses k r (closeEssence k f r (frameTaken k r d))) := by
  simp only [flowClose_of_running flow runs, heard, oldest, gt_iff_lt, if_neg (Nat.not_lt.2 due)]

theorem flowPathLost_of_silent (pathB : Bool) (alive : (if pathB then f.lostB else f.lostA) = false) (path : ¬(pathB = true ∧ f.config.dual = false))
    (late : ((if pathB then f.lastPathB else f.lastPathA).getD f.startedAt) + 100000000 ≤ d.now) :
    flowPathLost k pathB d = pathEvent k pathB false (d.onFlow k fun f => if pathB then { f with lostB := true } else { f with lostA := true }) := by
  have path' : (pathB && !f.config.dual) = false := by simpa using path
  simp only [flowPathLost, flow, runs, alive, path', Nat.not_lt.2 late, Bool.not_true, Bool.or_self, decide_false, Bool.false_eq_true, if_false]

end

/-! ## Ports (R358, R372) -/

theorem linkChange_of_change {i speed : Nat} {up : Bool} (h : (tabGet d.net.ports i).link ≠ (up && decide ((tabGet d.net.ports i).speed ≠ 0))) :
    linkChange i up speed d =
      raise 0x0C84 (if up && decide ((tabGet d.net.ports i).speed ≠ 0) then 1 else 2) 0
        [byte i, byte (boolNat (up && decide ((tabGet d.net.ports i).speed ≠ 0))), byte (speed % 256)]
        (d.onNet fun n => { n with ports := tabMod n.ports i fun x => { x with link := up && decide ((tabGet d.net.ports i).speed ≠ 0) } }) :=
  if_neg h

theorem neighbour_of_answer {i : Nat} {m : NeighbourIn} {a : PortAnswer} (h : portAnswer d i m = some a) :
    neighbour i m d = d.onNet fun n => { n with ports := tabMod n.ports i fun x => { x with answer := some a } } := by
  simp only [neighbour, h]

/-! ## Audio ports (R376 to R382) -/

variable {i : Nat}

/-- An edge of a port's frame clock ends the words that were leaving. -/
def edgeBegins (i : Nat) (d : Dev) : Dev := d.onPort i fun x => { x with leaving := 0 }

/-- A sample's frame, in the channel ring and in a receive port's host ring. -/
def edgePut (i : Nat) (l : List Int) (e : Dev) (j : Nat) : Dev :=
  let g := portFrame i j l e
  let s := storeEntry i j g.1 g.2
  if (e.port i).config.direction = 1 ∧ (e.port i).config.pail ≠ 0 then
    pailWrite (e.port i).config.pail (j % max 1 (e.port i).config.depth * 64) (frameBytes16 g.1) s else s

theorem putFrame_eq (i : Nat) (l : List Int) : (fun e j => putFrame i j l e) = edgePut i l := by
  funext e j
  simp only [putFrame, edgePut, Bool.and_eq_true, decide_eq_true_eq]

/-- The samples that an edge completes enter the ring, but for the first edge of a receive port and for a port that a receiver feeds. -/
def edgeFilled (i n : Nat) (l : List Int) (x : AudioPort) (e : Dev) : Dev :=
  if (x.config.direction = 1 ∧ x.startCount = 0) ∨ x.config.sourceKind = 3 then e else (edgeSamples x n).foldl (edgePut i l) e

theorem edgeFilled_eq (i n : Nat) (l : List Int) (x : AudioPort) (e : Dev) :
    (if (!(x.config.direction = 1 && x.startCount = 0) && x.config.sourceKind ≠ 3) = true then (edgeSamples x n).foldl (fun d j => putFrame i j l d) e else e)
      = edgeFilled i n l x e := by
  rw [edgeFilled, ← ite_not, putFrame_eq]
  refine if_congr ?_ rfl rfl
  simp only [Bool.and_eq_true, Bool.not_eq_true', Bool.and_eq_false_iff, decide_eq_true_eq, decide_eq_false_iff_not]
  tauto

/-- The port after an edge: its slot map, its sample index, and the frame that it sends from here. -/
def edgeEnds (i n : Nat) (e : Dev) : Dev :=
  let e := e.onPort i fun x => { x with slotMap := x.pendingMap.getD x.slotMap, pendingMap := none }
  let y := e.port i
  let sent := if y.config.sourceKind ≠ 3 then ringEntry y n else if y.state = .running then sourceFrame e i n [] else silence
  e.onPort i fun x =>
    { x with sampleIndex := n, startCount := x.startCount + 1, slotsOut := if x.config.direction = 2 then sendSlots x sent else []
             edgeStamp := if n % 64 = 0 then shortStamp (domainNow e x.config.domain) else x.edgeStamp }

theorem fsEdge_of_on (x : Option Nat) (l : List Int) (on : ((edgeBegins i d).port i).on = true) :
    fsEdge i x l d =
      edgeEnds i (edgeIndex (edgeBegins i d) i)
        (edgeFilled i (edgeIndex (edgeBegins i d) i) l ((edgeBegins i d).port i) (restartStep i x (edgeBegins i d))) := by
  refine (if_neg (Bool.eq_false_iff.1 (congrArg (!·) on))).trans ?_
  rw [← edgeFilled_eq]
  simp only [edgeEnds, ite_not]
  rfl

theorem fsEdge_of_off (x : Option Nat) (l : List Int) (off : ((edgeBegins i d).port i).on = false) : fsEdge i x l d = edgeBegins i d :=
  if_pos (congrArg (!·) off)

theorem fsMeasure_of_off (m : Nat) (off : (d.port i).on = false) : fsMeasure i m d = d := if_pos (congrArg (!·) off)

/-- What a window of a port measures. -/
def fsMeasured (i m : Nat) (d : Dev) : Dev :=
  let nominal : Int := ((rateHz (d.port i).config.rate * 1000 : Nat) : Int)
  d.onPort i fun x => { x with measuredMilliHz := m, offsetPpb := ((m : Int) - nominal) * 1000000000 / nominal }

theorem fsMeasure_of_unconverted (m : Nat) (on : (d.port i).on = true) (h : (d.port i).asrc.enable = false ∨ (d.port i).ref.lost = true) :
    fsMeasure i m d = fsMeasured i m d :=
  (if_neg (by simp [on])).trans (if_pos (by simpa using h))

theorem fsMeasure_of_converted (m : Nat) (on : (d.port i).on = true) (enabled : (d.port i).asrc.enable = true) (heard : (d.port i).ref.lost = false) :
    fsMeasure i m d =
      let o := rateHz (d.port i).asrc.outRate * 1000
      let ratio : Nat := if (d.port i).config.direction = 1 then (m * 2 ^ 30 + o / 2) / o else (o * 2 ^ 30 + m / 2) / max 1 m
      setAsrc i (if nearTo (ratio : Rat) ((d.port i).asrc.ratio : Rat) 1 1000000 then 2 else 1) (clampNat ratio (2 ^ 29) (2 ^ 31)) (fsMeasured i m d) :=
  (if_neg (by simp [on])).trans (if_neg (by simp [enabled, heard]))

/-! ## The obligation -/

/-- Settles O53: senders, receivers and their closing, lost paths, links, neighbours, and the edges and windows of audio ports (logs 79 to 82). -/
theorem netAndAudioRows : Obligations.NetAndAudioRows := by
  unfold Obligations.NetAndAudioRows
  refine ⟨fun i f => ?launch, fun i f pathB seq stamp b => ?receive, fun i f r => ?close, fun i up speed => ⟨?link, fun m a => ?neighbour⟩,
    fun i => ⟨fun x l => ⟨?edge, ?edgeOff⟩, fun m => ⟨?measured, ?converted, ?measureOff⟩⟩⟩
  case launch => exact happens_of_after (fun _ _ => rfl) fun d ⟨flow, runs, bound, turn⟩ => packetLaunch_of_turn flow runs bound turn
  case receive =>
    intro k on
    refine ⟨?_, ?_, ?_, ?_, ?_, fun hs ht hp => ?_⟩
    · exact happens_of_after (fun _ _ => rfl) fun d ⟨flow, runs, path⟩ => rtpReceive_of_path flow runs path true
    · refine happens_of_after (fun _ _ => rfl) fun d ⟨⟨flow, runs, path⟩, video⟩ => (rtpReceive_of_path flow runs path false).trans ?_
      exact if_pos video
    · refine happens_of_after (fun _ _ => rfl) fun d ⟨⟨flow, runs, path⟩, other, unknown⟩ => (rtpReceive_of_path flow runs path false).trans ?_
      exact (if_neg other).trans (if_pos (congrArg (!·) unknown))
    · refine happens_of_after (fun _ _ => rfl) fun d ⟨⟨flow, runs, path⟩, other, known, most, least⟩ => (rtpReceive_of_path flow runs path false).trans ?_
      have near : (seqAhead f seq).natAbs ≤ 3000 := by
        change seqAhead f seq ≤ 3000 at most
        change -3000 ≤ seqAhead f seq at least
        omega
      exact (if_neg other).trans ((if_neg (by rw [known]; decide)).trans (if_pos near))
    · refine happens_of_after (fun _ _ => rfl) fun d ⟨⟨flow, runs, path⟩, other, known, empty, far⟩ => (rtpReceive_of_path flow runs path false).trans ?_
      refine (if_neg other).trans ((if_neg (by rw [known]; decide)).trans ((if_neg (Nat.not_le.2 far)).trans ?_))
      simp only [empty]
    · refine happens_of_after (fun _ _ => rfl) fun d ⟨⟨flow, runs, path⟩, other, known, held, next, far⟩ => (rtpReceive_of_path flow runs path false).trans ?_
      refine (if_neg other).trans ((if_neg (by rw [known]; decide)).trans ((if_neg (Nat.not_le.2 far)).trans ?_))
      simp only [held, if_pos next]
  case close =>
    intro k ends comes
    refine ⟨?_, ?_, fun n => ?_, fun pathB => ?_⟩
    · exact happens_of_after (fun _ _ => rfl) fun d ⟨flow, runs, oldest, comes, due⟩ =>
        flowClose_of_due flow runs (silentTime_of_frame oldest comes) oldest due
    · exact happens_of_after (fun _ _ => rfl) fun d ⟨flow, runs, oldest, comes, early⟩ =>
        flowClose_of_early flow runs (silentTime_of_frame oldest comes) oldest early
    · exact happens_of_after (fun _ _ => rfl) fun d ⟨flow, runs, audio, closed, come, before⟩ =>
        flowClose_of_silent flow runs (silentTime_of_come audio closed come before)
    · exact happens_of_after (fun _ _ => rfl) fun d ⟨flow, runs, alive, path, late⟩ => flowPathLost_of_silent flow runs pathB alive path late
  case link => exact happens_of_after (fun _ _ => rfl) fun d h => linkChange_of_change h
  case neighbour => exact happens_of_after (fun _ _ => rfl) fun d h => neighbour_of_answer h
  case edge => exact happens_of_after (fun _ _ => rfl) fun d on => fsEdge_of_on x l on
  case edgeOff => exact happens_of_after (fun _ _ => rfl) fun d off => fsEdge_of_off x l off
  case measured => exact happens_of_after (fun _ _ => rfl) fun d ⟨on, h⟩ => fsMeasure_of_unconverted m on h
  case converted => exact happens_of_after (fun _ _ => rfl) fun d ⟨on, enabled, heard⟩ => fsMeasure_of_converted m on enabled heard
  case measureOff => exact happens_of_after (fun _ _ => rfl) fun d off => fsMeasure_of_off m off

end Sys2Proof.Machine
end

section
/-! PROOF. Frame memory, pails and DMA (R399 to R444): the rows, and O54. -/

namespace Sys2Proof.Machine

variable {d : Dev} {i : Nat}

/-! ## Errors (R404, R405) -/

/-- Counting leaves the frame memory. -/
@[simp] theorem count_hbm (k no n : Nat) (d : Dev) : (count k no n d).hbm = d.hbm := by
  obtain ⟨_, _, _, counted⟩ := count_eq k no n d
  rw [counted]

@[simp] theorem count_rank (k no n : Nat) (d : Dev) (i : Nat) : (count k no n d).rank i = d.rank i := by
  rw [Dev.rank, count_hbm, Dev.rank]

theorem corrected_of_quiet (h : (d.rank i).raised = true ∨ counterOf (count (rankObj i) 0 1 d) (rankObj i) 0 < (d.rank i).threshold) :
    corrected i d = count (rankObj i) 0 1 d := by
  refine if_neg ?_
  rw [count_rank]
  rcases h with raised | below
  · simp [raised]
  · simp [Nat.not_le.2 below]

theorem corrected_of_threshold (unraised : (d.rank i).raised = false) (reached : (d.rank i).threshold ≤ counterOf (count (rankObj i) 0 1 d) (rankObj i) 0) :
    corrected i d = raise 0x11C4 2 (rankObj i) (le 2 (rankObj i) ++ le 2 (d.rank i).threshold)
      ((count (rankObj i) 0 1 d).onRank i fun r => { r with raised := true }) := by
  simp only [corrected, count_rank, unraised, reached, decide_true, Bool.not_false, Bool.and_self, if_true]

/-! ## Migrations and moves (R409, R412) -/

section
variable {m : Migration} {slot : Nat} {bad : Bool}

/-- The copy of a chunk meets an uncorrectable error, or none. -/
def chunkHurt (m : Migration) (slot : Nat) (bad : Bool) (d : Dev) : Dev :=
  if bad then poisonLine ((m.bits * slotCount + slot) * 64) (hbmUe m.source 2 ((m.bits * slotCount + slot) * 64 * 64) 0 d) else d

/-- The migration with one more chunk copied, and the chunk's poison counted. -/
def chunkNext (m : Migration) (slot : Nat) (bad : Bool) (d : Dev) : Migration :=
  let base := (m.bits * slotCount + slot) * 64
  { m with bits := m.bits + 1, poisoned := m.poisoned + (chunkHurt m slot bad d).hbm.poison.countP fun l => decide (base ≤ l) && decide (l < base + 64) }

theorem copyChunk_of_moving (migration : d.hbm.migration = some m) (at_ : slotOf d m.source = some slot) (clear : ¬(m.dest = none ∧ regionBusy d = true)) :
    copyChunk bad d =
      if m.rows ≤ m.bits + 1 then finishMigration (chunkNext m slot bad d) ((chunkHurt m slot bad d).onHbm fun h => { h with migration := some (chunkNext m slot bad d) })
      else (chunkHurt m slot bad d).onHbm fun h => { h with migration := some (chunkNext m slot bad d) } := by
  have clear' : (m.dest.isNone && regionBusy d) = false := by simpa using clear
  simp only [copyChunk, migration, at_, clear', Bool.false_eq_true, if_false]
  rfl

theorem copyChunk_of_busy (migration : d.hbm.migration = some m) (region : m.dest = none) (busy : regionBusy d = true) : copyChunk bad d = d := by
  simp only [copyChunk, migration, region, busy, Option.isNone_none, Bool.and_self, if_true]

end

/-- A rank that was kept may leave service. -/
abbrev RankFits (i : Nat) (d : Dev) : Prop := (d.rank i).state = .kept ∧ regionFits d = true

/-- The source of a migration leaves service once the pool can take the rest. -/
def sourceMoves (d : Dev) : Dev := match d.hbm.migration with
  | some m => if RankFits m.source d then d.onRank m.source fun r => { r with state := .source } else d
  | none => d

/-- The first rank that waits for its region serves until then. -/
def leavingMoves (d : Dev) : Dev := match d.hbm.leaving with
  | l :: _ => if l.shrink = true ∧ RankFits l.rank d then d.onRank l.rank fun r => { r with state := .inService } else d
  | [] => d

theorem poolMove_eq (d : Dev) : poolMove d = nextMigration (leavingMoves (sourceMoves (movePage d))) := by
  have source : ∀ e : Dev, (match e.hbm.migration with
      | some m => if (e.rank m.source).state = RankState.kept && regionFits e then e.onRank m.source fun r => { r with state := .source } else e
      | none => e) = sourceMoves e := fun e => by
    unfold sourceMoves
    cases e.hbm.migration with
    | none => rfl
    | some m => exact if_congr (by simp) rfl rfl
  have leaving : ∀ e : Dev, (match e.hbm.leaving with
      | l :: _ => if l.shrink && (e.rank l.rank).state = RankState.kept && regionFits e then e.onRank l.rank fun r => { r with state := .inService } else e
      | [] => e) = leavingMoves e := fun e => by
    unfold leavingMoves
    cases e.hbm.leaving with
    | nil => rfl
    | cons l rest => exact if_congr (by simp [and_assoc]) rfl rfl
  exact congrArg nextMigration ((leaving _).trans (congrArg leavingMoves (source _)))

/-! ## Refresh, delays, scrub (R399 to R406) -/

theorem refreshDue_of_busy (i : Nat) (d : Dev) : refreshDue i true d = d.onRank i fun r => { r with owed := if 7 ≤ r.owed then 7 else r.owed + 1 } := by
  have limit : ∀ n : Nat, n + 1 ≥ 8 ↔ 7 ≤ n := fun n => by omega
  simp only [refreshDue, limit, Bool.not_true, Bool.false_eq_true, if_false]

/-! ## Pails (R424, R429) -/

section
variable {h : Nat} {p : Pail}

theorem pailUnmap_of_withering (mapped : mappedPail d h = some (i, p)) (withers : p.withering = true) (unused : pailRefs d h = 0) : pailUnmap h d = unmapPail i d := by
  simp only [pailUnmap, mapped, withers, unused, decide_true, Bool.and_self, if_true]

theorem pailUnmap_of_used (mapped : mappedPail d h = some (i, p)) (used : pailRefs d h ≠ 0) : pailUnmap h d = d := by
  simp only [pailUnmap, mapped, used, decide_false, Bool.and_false, Bool.false_eq_true, if_false]

variable {cmd : PendingCmd} {addr : Nat}

theorem importListRead_of_good (mapped : mappedPail d h = some (i, p)) (waits : p.importing = some (cmd, addr)) (good : pagesOk (pageList d addr (p.size / 65536)) = true) :
    importListRead h false d =
      completeCmd cmd .ok (d.onPails fun t => { t with table := mapSet t.table i { p with pages := pageList d addr (p.size / 65536), importing := none } }) := by
  simp only [importListRead, mapped, waits, good, Bool.not_true, Bool.or_self, Bool.false_eq_true, if_false]

theorem importListRead_of_bad {failed : Bool} (mapped : mappedPail d h = some (i, p)) (waits : p.importing = some (cmd, addr))
    (bad : failed = true ∨ pagesOk (pageList d addr (p.size / 65536)) = false) :
    importListRead h failed d =
      completeCmd cmd (.combination 8) (dropOwner (pailKey i) (d.onPails fun t => { t with table := mapDel t.table i, freed := t.freed ++ [i] })) := by
  have bad' : (failed || !pagesOk (pageList d addr (p.size / 65536))) = true := by simpa using bad
  simp only [importListRead, mapped, waits, bad', if_true]

end

/-- Zeroing runs of frame memory leaves the pails. -/
theorem foldl_onHbm_pails {α : Type} (f : α → Hbm → Hbm) (l : List α) (d : Dev) : (l.foldl (fun d x => d.onHbm (f x)) d).pails = d.pails := by
  induction l generalizing d with
  | nil => rfl
  | cons x l ih => exact ih _

theorem zeroingStep_of_pending (h : d.pails.zeroing ≠ []) :
    zeroingStep d =
      let r := zeroRuns (d.pails.zeroed + 0x200000) d.pails.zeroing
      (gleanChunk 4 (r.2.2.foldl (fun d e => d.onHbm fun m => { m with mem := memClear m.mem e.1 e.2, poison := unpoison e.1 e.2 m.poison }) d)).onPails fun t =>
        { t with zeroing := r.2.1, zeroed := if r.2.1.isEmpty then 0 else r.1 } := by
  have pending : d.pails.zeroing.isEmpty = false := List.isEmpty_eq_false_iff.2 h
  simp only [zeroingStep, foldl_onHbm_pails, pending, Bool.false_eq_true, if_false]

/-! ## DMA (R434, R444) -/

theorem burstComplete_of_busy {m c : Nat} (fault : Option AccessFault) (busy : tabGet d.dma.movers m = some c) :
    burstComplete m fault d = assignMovers (finishBurst c fault d) := by
  simp only [burstComplete, busy, Option.isNone_some, Bool.false_eq_true, if_false]

theorem burstComplete_of_idle {m c : Nat} (fault : Option AccessFault) (idle : tabGet d.dma.movers m = none) (takes : tabGet (takeBurst m d).dma.movers m = some c) :
    burstComplete m fault d = assignMovers (finishBurst c fault (takeBurst m d)) := by
  simp only [burstComplete, idle, takes, Option.isNone_none, if_true]

/-! ## The obligation -/

/-- Settles O54: errors, migrations, moves, temperatures, refreshes, scrub, pails and bursts have the effects of the lemmas above (log 89). -/
theorem frameMemoryRows : Obligations.FrameMemoryRows := by
  unfold Obligations.FrameMemoryRows
  refine ⟨fun line requester cause => ?error, fun i => ⟨?quiet, ?threshold⟩, fun m slot bad => ?migration, ?move, fun k v => ?temperature,
    fun i => ⟨?refreshed, ?postponed⟩, ⟨?passEnds, fun a b => ⟨?pausedScrub, ?scrub⟩⟩, fun h i p => ⟨?unmap, ?used⟩, fun h i addr p cmd cells failed => ?list,
    ?zeroing, fun m c fault cells => ⟨?busy, ?idle⟩, fun c cells => ⟨?waiting, ?notWaiting⟩⟩
  case error => exact happens_of_after (fun _ _ => rfl) fun d _ => rfl
  case quiet => exact happens_of_after (fun _ _ => rfl) fun d h => corrected_of_quiet h
  case threshold => exact happens_of_after (fun _ _ => rfl) fun d ⟨unraised, reached⟩ => corrected_of_threshold unraised reached
  case migration =>
    intro base hurt next moving
    refine ⟨?_, ?_, ?_⟩
    · exact happens_of_after (fun _ _ => rfl) fun d ⟨⟨migration, at_, clear⟩, more⟩ =>
        (copyChunk_of_moving migration at_ clear).trans (if_neg (Nat.not_le.2 more))
    · exact happens_of_after (fun _ _ => rfl) fun d ⟨⟨migration, at_, clear⟩, last⟩ => (copyChunk_of_moving migration at_ clear).trans (if_pos last)
    · exact happens_of_after (fun _ _ => rfl) fun d ⟨migration, region, busy⟩ => copyChunk_of_busy migration region busy
  case move =>
    intro fits put
    exact happens_of_after (fun _ _ => rfl) fun d _ => poolMove_eq d
  case temperature =>
    intro new reload read
    refine ⟨?_, ?_⟩
    · exact happens_of_after (fun _ _ => rfl) fun d same => if_pos same
    · exact happens_of_after (fun _ _ => rfl) fun d other => if_neg other
  case refreshed => exact happens_of_after (fun _ _ => rfl) fun d _ => rfl
  case postponed => exact happens_of_after (fun _ _ => rfl) fun d _ => refreshDue_of_busy i d
  case passEnds => exact happens_of_after (fun _ _ => rfl) fun d ⟨going, ended⟩ => (if_neg (Bool.eq_false_iff.1 going)).trans (if_pos ended)
  case pausedScrub => exact happens_of_after (fun _ _ => rfl) fun d paused => if_pos paused
  case scrub => exact happens_of_after (fun _ _ => rfl) fun d ⟨going, more⟩ => (if_neg (Bool.eq_false_iff.1 going)).trans (if_neg (Nat.not_le.2 more))
  case unmap => exact happens_of_after (fun _ _ => rfl) fun d ⟨mapped, withers, unused⟩ => pailUnmap_of_withering mapped withers unused
  case used => exact happens_of_after (fun _ _ => rfl) fun d ⟨mapped, used⟩ => pailUnmap_of_used mapped used
  case list =>
    intro listed waits
    refine ⟨?_, ?_⟩
    · exact happens_of_after (fun _ _ => rfl) fun d ⟨⟨mapped, waits⟩, good⟩ => importListRead_of_good mapped waits good
    · exact happens_of_after (fun _ _ => rfl) fun d ⟨⟨mapped, waits⟩, bad⟩ => importListRead_of_bad mapped waits bad
  case zeroing => exact happens_of_after (fun _ _ => rfl) fun d h => zeroingStep_of_pending h
  case busy => exact happens_of_after (fun _ _ => rfl) fun d busy => burstComplete_of_busy (d := hostWrites cells d) fault busy
  case idle => exact happens_of_after (fun _ _ => rfl) fun d ⟨idle, takes⟩ => burstComplete_of_idle (d := hostWrites cells d) fault idle takes
  case waiting => exact happens_of_after (fun _ _ => rfl) fun d h => if_pos h
  case notWaiting => exact happens_of_after (fun _ _ => rfl) fun d h => if_neg h

end Sys2Proof.Machine
end

section
/-! PROOF. The magazine's engine (R454 to R476): the rows, and O55. -/

namespace Sys2Proof.Machine

variable {d : Dev}

/-! ## Mounting and removal (R454, R460, R470) -/

theorem mountMagazine_of_fault {m : MountInfo} {ch die why : Nat} (mounting : d.mag.state = .mounting)
    (fault : fitOutFault (packFound m d).dies m = some (ch, die, why)) :
    mountMagazine m d = raise 0x1084 3 0 (le 1 ch ++ le 1 die ++ le 1 why ++ le 1 0) (d.onMag fun m => { m with state := .unsupported }) := by
  simp only [mountMagazine, mounting, fault, ne_eq, not_true_eq_false, if_false]

/-- The pack taken into use. -/
def packInUse (m : MountInfo) (d : Dev) : Dev := (d.onPack fun _ => recoverMap m.scan (packFound m d)).onMag fun x =>
  { x with state := .mounted, stripeAcres := 0, stripe := x.stripe + 1, pack := { x.pack with clean := false } }

/-- The clips of a pack that a loss of power left open. -/
def openClips (ids : List Nat) (d : Dev) : List (Nat × Clip) := ids.flatMap fun n => match mapGet d.mag.pack.reels n with
  | some r => (r.clips.filter fun c => c.state = 1).map fun c => (n, c)
  | none => []

/-- MAG_MOUNTED tells of the reels, and of the clips that were left open. -/
def mountTold (m : MountInfo) (ids : List Nat) (opened : List (Nat × Clip)) (e : Dev) : Dev :=
  raise 0x1080 0 0 (le 1 (boolNat m.scan) ++ le 2 (sumOf id e.mag.pack.dies) ++ le 2 ids.length ++ le 2 opened.length ++ le 4 m.mountMs) e

/-- The open clips recovered, and what waited for the magazine gone on. -/
def clipsRecovered (opened : List (Nat × Clip)) (d : Dev) : Dev :=
  checkFree (checkWorn (reattach (placeFull (opened.foldl (fun d x => recoverClip x.1 d x.2) d))))

/-- A pack that fits, mounted. -/
def mounted (m : MountInfo) (d : Dev) : Dev :=
  let ids := (packInUse m d).mag.pack.reels.map (·.1)
  let e := ids.foldl rereadReel (packInUse m d)
  mountTold m ids (openClips ids e) (clipsRecovered (openClips ids e) e)

theorem mountMagazine_of_fit {m : MountInfo} (mounting : d.mag.state = .mounting) (fits : fitOutFault (packFound m d).dies m = none) :
    mountMagazine m d = mounted m d := by
  refine (if_neg (not_not_intro mounting)).trans ?_
  rw [fits]
  extract_lets e e1 ids e2 opened e3 recovered
  have clips : opened = openClips ids e2 := rfl
  have recovered_eq : recovered = clipsRecovered opened e2 := rfl
  clear_value recovered
  change mountTold m ids opened recovered = _
  rw [recovered_eq, clips]
  rfl

/-! ## NAND operations (R457, R459, R463) -/

variable {acre die block : Nat} {ok : Bool}

section
variable {w : AcreWrite} (usable : magUsable d = true)
  (served : (d.mag.writes.find? fun w => w.logical = acre && !w.programmed && servesWrite d.mag w) = some w)
include usable served

theorem nandDone_of_programmed : nandDone (.program acre true) d = settleHost (programOk w d) := by
  simp only [nandDone, usable, served, Bool.not_true, Bool.false_eq_true, if_false, if_true]

theorem nandDone_of_programFailed :
    nandDone (.program acre false) d =
      let x := programFailed w (d.nvme.staged.any fun x => decide (w.id ∈ x.acres)) d
      settleHost (if x.2 then giveUp [w.id] 2 { sct := 2, sc := 0x80 } x.1 else x.1) := by
  simp only [nandDone, usable, served, Bool.not_true, Bool.false_eq_true, if_false]

end

section
variable (usable : magUsable d = true)
include usable

/-- An erase that a die serves, or that a format waits for, takes its effect before a format may end. -/
theorem nandDone_of_erased (serves : (d.mag.format.isSome || servesErase d.mag die block) = true) :
    nandDone (.erase die block ok) d = settleHost (match (eraseDone die block ok d).mag.format with
      | some c => finishFormat c (eraseDone die block ok d)
      | none => eraseDone die block ok d) := by
  simp only [nandDone, usable, serves, Bool.not_true, Bool.false_eq_true, if_false, if_true] <;> rfl

theorem nandDone_of_unserved (idle : d.mag.format = none) (unserved : servesErase d.mag die block = false) : nandDone (.erase die block ok) d = settleHost d := by
  simp only [nandDone, usable, idle, unserved, Option.isSome_none, Bool.or_self, Bool.not_true, Bool.false_eq_true, if_false]

theorem nandDone_of_unrecovered {nsid lba : Nat} (churn : Bool) (reel : (reelOf d nsid).isSome = true) :
    nandDone (.read nsid lba churn false) d = blockUnrecovered nsid lba (boolNat churn) d := by
  have known : (reelOf d nsid).isNone = false := Option.isNone_eq_false_iff.2 reel
  simp only [nandDone, usable, known, Bool.not_true, Bool.or_self, Bool.false_eq_true, if_false]

end

theorem nandDone_of_recovered (nsid lba : Nat) (churn : Bool) (d : Dev) : nandDone (.read nsid lba churn true) d = d := by
  simp only [nandDone, Bool.true_or, if_true, ite_self]

/-! ## Records, directory, checkpoint (R459, R465, R476) -/

theorem directoryUpdate_of_due {n : Nat} {r : Recording} (runs : recordingOf d n = some r) (goes : r.ending = false) (due : r.lastDirectory + 1000000000 ≤ d.now) :
    directoryUpdate n d = settleMag (placeFull (writeEntry n r.clip (d.onRecording n fun r => { r with lastDirectory := d.now })).1) := by
  simp only [directoryUpdate, runs, goes, due, decide_true, Bool.not_false, Bool.and_self, if_true]

/-! ## Churn (R461) -/

/-- The first valid acre of a block that no write of it is staged for. -/
def churnNext (die block : Nat) (d : Dev) : Option (Nat × Nat) :=
  d.mag.pack.map.find? fun e => d.mag.pack.acreKey e.2 = blockKey die block && (newestWrite d e.1).isNone

theorem churnStep_of_choice {wear : Bool} (usable : magUsable d = true) (going : d.faults.paused = false) (choice : churnChoice d.mag die block = some wear) :
    churnStep die block d = churnBlock wear die block d := by
  simp only [churnStep, usable, going, choice, Bool.not_true, Bool.or_self, Bool.false_eq_true, if_false]

theorem churnStep_of_none (none_ : churnChoice d.mag die block = none) : churnStep die block d = d := by
  simp only [churnStep, none_, ite_self]

theorem churnBlock_of_acre {wear : Bool} {e : Nat × Nat} (next : churnNext die block (gleanChunk 1 d) = some e) :
    churnBlock wear die block d =
      placeFull ((stageWhole 2 e.1 (churnImage (gleanChunk 1 d) e.1) (gleanChunk 1 d)).1.onMag fun m =>
        { m with churned := m.churned + 1, levelled := m.levelled + boolNat wear }) := by
  rw [churnNext] at next
  simp only [churnBlock, next]

theorem churnBlock_of_empty {wear : Bool} (next : churnNext die block (gleanChunk 1 d) = none) (may : mayErase (gleanChunk 1 d).mag die block = true) :
    churnBlock wear die block d = serveDies ((gleanChunk 1 d).onMag fun m => { m with erases := m.erases ++ [(die, block)] }) := by
  rw [churnNext] at next
  simp only [churnBlock, next, may, if_true]

/-! ## The obligation -/

/-- Settles O55: power, mounting and removal, NAND operations, records, the journal, the checkpoint and churn have the effects of the lemmas above
(logs 84, 86, 100). -/
theorem magazineRows : Obligations.MagazineRows := by
  unfold Obligations.MagazineRows
  refine ⟨⟨?power, ?powered⟩, fun m ch die why => ⟨?unsupported, ?mount⟩, ⟨?gone, ?removed⟩, fun acre w => ?program, fun die block ok => ?erase,
    fun nsid lba churn => ⟨?unrecovered, ?recovered⟩, fun i n r => ⟨?form, ?noForm, ?directory⟩, ?partialAcre, ?journal, ⟨?checkpoint, ?noCheckpoint⟩,
    fun die block wear e => ?churn⟩
  case power => exact happens_of_after (fun _ _ => rfl) fun d absent => if_pos absent
  case powered => exact happens_of_after (fun _ _ => rfl) fun d present => if_neg present
  case unsupported => exact happens_of_after (fun _ _ => rfl) fun d ⟨mounting, fault⟩ => mountMagazine_of_fault mounting fault
  case mount =>
    refine happens_of_after (fun _ _ => rfl) fun d ⟨mounting, fits⟩ => (mountMagazine_of_fit mounting fits).trans ?_
    extract_lets e ids e2 opened recovered
    have clips : opened = openClips ids e2 := rfl
    have recovered_eq : recovered = clipsRecovered opened e2 := rfl
    clear_value recovered
    change _ = mountTold m ids opened recovered
    rw [recovered_eq, clips]
    rfl
  case gone => exact happens_of_after (fun _ _ => rfl) fun d absent => congrArg endStartWait (if_pos absent)
  case removed => exact happens_of_after (fun _ _ => rfl) fun d present => congrArg endStartWait (if_neg present)
  case program =>
    intro served
    refine ⟨?_, ?_⟩
    · exact happens_of_after (fun _ _ => rfl) fun d ⟨usable, served⟩ => congrArg endStartWait (nandDone_of_programmed usable served)
    · exact happens_of_after (fun _ _ => rfl) fun d ⟨usable, served⟩ => congrArg endStartWait (nandDone_of_programFailed usable served)
  case erase =>
    intro erased
    refine ⟨?_, ?_, fun c => ?_⟩
    · refine happens_of_after (fun _ _ => rfl) fun d ⟨usable, idle, serves, after⟩ => congrArg endStartWait ?_
      rw [nandDone_of_erased usable (by simp [serves]), after]
    · exact happens_of_after (fun _ _ => rfl) fun d ⟨usable, idle, unserved⟩ => congrArg endStartWait (nandDone_of_unserved usable idle unserved)
    · refine happens_of_after (fun _ _ => rfl) fun d ⟨usable, formats, after⟩ => congrArg endStartWait ?_
      rw [nandDone_of_erased usable (by simp [formats]), after]
  case unrecovered => exact happens_of_after (fun _ _ => rfl) fun d ⟨usable, reel⟩ => congrArg endStartWait (nandDone_of_unrecovered usable churn reel)
  case recovered => exact happens_of_after (fun _ _ => rfl) fun d _ => congrArg endStartWait (nandDone_of_recovered nsid lba churn d)
  case form => exact happens_of_after (fun _ _ => rfl) fun d reel => by simp only [reel]
  case noForm => exact happens_of_after (fun _ _ => rfl) fun d none_ => by simp only [none_, id]
  case directory =>
    refine happens_of_after (fun _ _ => rfl) fun d ⟨reel, runs, goes, due⟩ => ?_
    simp only [reel]
    exact directoryUpdate_of_due runs goes due
  case partialAcre => exact happens_of_after (fun _ _ => rfl) fun d usable => if_pos usable
  case journal => exact happens_of_after (fun _ _ => rfl) fun d usable => if_pos usable
  case checkpoint => exact happens_of_after (fun _ _ => rfl) fun d ⟨usable, due⟩ => if_pos (by simp [usable, due])
  case noCheckpoint => exact happens_of_after (fun _ _ => rfl) fun d early => if_neg (by simp [early])
  case churn =>
    intro chosen next
    refine ⟨?_, ?_, ?_⟩
    · exact happens_of_after (fun _ _ => rfl) fun d ⟨⟨usable, going, choice⟩, next⟩ => (churnStep_of_choice usable going choice).trans (churnBlock_of_acre next)
    · exact happens_of_after (fun _ _ => rfl) fun d ⟨⟨usable, going, choice⟩, next, may⟩ =>
        (churnStep_of_choice usable going choice).trans (churnBlock_of_empty next may)
    · exact happens_of_after (fun _ _ => rfl) fun d none_ => churnStep_of_none none_

end Sys2Proof.Machine
end
